-- ==== Sys2Proof/Word.lean ====
section
/-! DEFINITION. The words of the JT-24's frames and the ranges of its counts.

The manual counts positions, footages, diameters and tallies as numbers with a range, and these are `Nat` in the
model. What it gives as bytes and fields of a frame (Chapter 12) is a bit vector. -/

namespace Sys2Proof

/-- One byte of a frame, of a payload or of the settings image. -/
abbrev Byte := BitVec 8

/-- A two-byte field (R182), a revision (R48), a change tag (R167) or a set counter (R121): the values that wrap. -/
abbrev Word16 := BitVec 16

/-- A four-byte field (R182). -/
abbrev Word32 := BitVec 32

/-- 4,294,967,295: the greatest tracking position (R1), reel id (R39), footage (R43) and parent id (R50). -/
abbrev maxPosition : Nat := 4294967295

/-- 65,535: where the saturating counters of the manual stop. -/
abbrev maxCount : Nat := 65535

/-- The greatest diameter, 1,500,000 µm (R36, R133). -/
abbrev maxDiameter : Nat := 1500000

end Sys2Proof
end

