-- ==== Sys2Proof/Syntax.lean ====
section
/-! DEFINITION. The commands of the JT-24: one constructor of `Instr` for each row of spec/opcode_table.json.

The first group are events of the part: a pin changes, a timer expires, an operation that takes time completes, or a
block takes an event that another block has handed to it. The second group are the frames of the two serial ports.
The third group are the requests of the line controller port (section 9.3), each carried out by the block that owns it
(R155). The operands of a request are the fields of its payload as R183 lays them out, at the width the frame gives
them, so that an operand can hold every value a frame can carry: the request's own rule refuses the values that are
out of range. -/

namespace Sys2Proof

/-- The two winding shafts (Chapter 6). -/
inductive Shaft where
  | a
  | b
deriving DecidableEq, Repr

/-- The four thresholds of a set, in the order in which R109 and R119 fire them. -/
inductive Threshold where
  | approach
  | window
  | due
  | overrun
deriving DecidableEq, Repr

/-- The two holds of the hold unit (R144). -/
inductive HoldLine where
  | slow
  | stop
deriving DecidableEq, Repr

/-- How a save ended at the EEPROM (R178). -/
inductive SaveOutcome where
  /-- The EEPROM acknowledged every write and the image read back agrees with the image composed. -/
  | done
  /-- It did not. `left` is "whatever the abandoned writing left", from address 0 on, which the EEPROM alone
  decides. -/
  | failed (left : List Byte)
deriving DecidableEq, Repr

/-- Six maxima of a grade table row (R75), two bytes each in every frame that carries them. -/
structure Maxima where
  defect1 : Word16
  defect2 : Word16
  defect3 : Word16
  defect4 : Word16
  register : Word16
  splice : Word16
deriving DecidableEq, Repr

/-- A grade table: the A row and the B row (R75). -/
structure GradeTable where
  rowA : Maxima
  rowB : Maxima
deriving DecidableEq, Repr

/-- The per-shaft items of a SET_JOB frame (R183). -/
structure ShaftJobFields where
  approach : Word16
  window : Word16
  overrun : Word32
  auto : Byte
deriving DecidableEq, Repr

/-- The payload of a SET_JOB frame (R183). -/
structure JobFields where
  webWidth : Word16
  thickness : Byte
  packing : Word16
  rhoA : Word32
  rhoB : Word32
  shaftA : ShaftJobFields
  shaftB : ShaftJobFields
deriving DecidableEq, Repr

/-- The step record of a SET_PLAN_STEP frame (R183); a count of 0 is FOREVER (R182). -/
structure StepFields where
  count : Word16
  target : Word32
  core : Word32
  limit : Word32
  table : Byte
  baseTension : Word16
  taper : Word16
  span : Word32
deriving DecidableEq, Repr

/-- The commands of the part. -/
inductive Instr where
  /-- POWER_ON (R175). -/
  | powerOn
  /-- WARM_RESET: a falling edge of nRST (R180). -/
  | warmReset
  /-- RESET_END: the rising edge of nRST (R181). -/
  | resetEnd
  /-- SETTINGS_LOAD_COMPLETE (R175); `acknowledged` says whether the EEPROM acknowledged every read (R174). -/
  | settingsLoadComplete (acknowledged : Bool)
  /-- QUADRATURE_CHANGE (R2): ENCA and ENCB now stand at these levels. -/
  | quadratureChange (encA encB : Bool)
  /-- STOP_TIMER_EXPIRY (R7). -/
  | stopTimerExpiry
  /-- SPLICE_PULSE (R9). -/
  | splicePulse
  /-- CUT_PULSE (R10): a rising edge of CUTA or CUTB. -/
  | cutPulse (shaft : Shaft)
  /-- CUT_TAKEN (R119). -/
  | cutTaken (shaft : Shaft)
  /-- KNIFE_WATCH_ARRIVAL (R88). -/
  | knifeWatchArrival
  /-- NIP_WATCH_ARRIVAL (R91). -/
  | nipWatchArrival (shaft : Shaft)
  /-- THRESHOLD_ARRIVAL (R109). -/
  | thresholdArrival (shaft : Shaft) (kind : Threshold)
  /-- AUTOMATIC_RETRY (R115). -/
  | automaticRetry (shaft : Shaft)
  /-- SWEEP_WATCH_ARRIVAL (R128). -/
  | sweepWatchArrival
  /-- VISIT_COMPLETE (R131). -/
  | visitComplete
  /-- CLOSING_COMPLETE (R132). -/
  | closingComplete
  /-- HOLD_TIMER_EXPIRY (R145). -/
  | holdTimerExpiry (hold : HoldLine)
  /-- OVERRIDE_EXPIRY (R148). -/
  | overrideExpiry
  /-- UART_CHARACTER (R162): a character of the inspection link, with or without a framing error. -/
  | uartCharacter (char : Byte) (framingError : Bool)
  /-- GAP_TIMER_EXPIRY (R162). -/
  | gapTimerExpiry
  /-- REQUEST_TRANSACTION (R153): the bytes collected after the start byte 0xA6 until nCS rose. -/
  | requestTransaction (frame : List Byte)
  /-- IGNORED_TRANSACTION (R152): the first byte was no start byte, or nCS rose before it was whole. -/
  | ignoredTransaction
  /-- ANSWER_START (R157): the start byte 0xA7 has been received. -/
  | answerStart
  /-- ANSWER_END (R157): nCS rises after `clocked` bytes have been shifted out behind the start byte. -/
  | answerEnd (clocked : Nat)
  /-- READ_DIGEST (R166). -/
  | readDigest
  /-- ACK_DIGEST (R169). -/
  | ackDigest (tag : Word16)
  /-- CLEAR_ALERTS (R170). -/
  | clearAlerts (tag : Word16) (alerts : BitVec 24)
  /-- SET_ALERT_MASK (R171). -/
  | setAlertMask (alerts : BitVec 24)
  /-- QUERY_REEL (R60). -/
  | queryReel (id : Word32)
  /-- FIND_REEL (R52). -/
  | findReel (lane shaft : Byte) (position : Word32)
  /-- LIST_REELS (R54). -/
  | listReels (selection handle : Byte)
  /-- READ_MARKS (R61). -/
  | readMarks (id : Word32) (page : Byte)
  /-- QUERY_SHAFT (R125). -/
  | queryShaft (shaft : Byte)
  /-- QUERY_LANE (R19) with a lane number other than 0. -/
  | queryLane (lane : Byte)
  /-- MAP_SUMMARY: QUERY_LANE with lane number 0 (R19). -/
  | mapSummary
  /-- READ_SETTINGS (R179). -/
  | readSettings
  /-- SET_LANE, edit kind GEOMETRY (R27). -/
  | setLaneGeometry (lane : Byte) (edge width : Word16)
  /-- SET_LANE, edit kind SHAFT (R28). -/
  | setLaneShaft (lane : Byte) (shaft : Word16)
  /-- SET_LANE, edit kind ENABLE (R31). -/
  | setLaneEnable (lane : Byte)
  /-- SET_LANE, edit kind DISABLE (R30). -/
  | setLaneDisable (lane : Byte)
  /-- SET_LANE, edit kind REFERENCE (R29): 1 for on, 0 for off. -/
  | setLaneReference (lane : Byte) (on : Word16)
  /-- SET_LANE, edit kind CLEAR_TALLY (R26). -/
  | setLaneClearTally (lane : Byte)
  /-- SET_JOB (R160). -/
  | setJob (job : JobFields)
  /-- SET_PLAN_STEP (R105). -/
  | setPlanStep (shaft number : Byte) (step : StepFields)
  /-- CLEAR_PLAN (R105). -/
  | clearPlan (shaft : Byte)
  /-- SET_GRADE_TABLE (R76). -/
  | setGradeTable (index : Byte) (table : GradeTable)
  /-- STAGE_PARENT (R87). -/
  | stageParent (parent : Word32)
  /-- START_SHAFT (R106). -/
  | startShaft (shaft : Byte)
  /-- STOP_SHAFT (R107). -/
  | stopShaft (shaft : Byte)
  /-- CHANGE (R113): force 1 or 0. -/
  | change (shaft force : Byte)
  /-- CANCEL_CHANGE (R117). -/
  | cancelChange (shaft : Byte)
  /-- UNLOADED (R124). -/
  | unloaded (shaft spindle : Byte)
  /-- ADD_MARK (R97): bit n − 1 of the lane set names lane n. -/
  | addMark (shaft : Byte) (lanes : BitVec 24) (back : Word32)
  /-- OVERRIDE_GRADE (R59): 0 is CLEAR. -/
  | overrideGrade (id : Word32) (grade : Byte)
  /-- RETIRE (R57). -/
  | retire (id : Word32) (revision : Word16)
  /-- SWEEP (R129). -/
  | sweep
  /-- HOLD_OVERRIDE (R148). -/
  | holdOverride
  /-- RESET_RUN (R16). -/
  | resetRun
  /-- SET_SETTINGS, item 1 (R177). -/
  | setSettingsNEnc (value : Word32)
  /-- SET_SETTINGS, item 2. -/
  | setSettingsStopTimeout (value : Word32)
  /-- SET_SETTINGS, item 3. -/
  | setSettingsSpliceDebounce (value : Word32)
  /-- SET_SETTINGS, item 4. -/
  | setSettingsDIk (value : Word32)
  /-- SET_SETTINGS, item 5. -/
  | setSettingsDSk (value : Word32)
  /-- SET_SETTINGS, items 6 and 7. -/
  | setSettingsDKw (shaft : Shaft) (value : Word32)
  /-- SET_SETTINGS, item 8 (R147). -/
  | setSettingsHoldQuantum (value : Word32)
  /-- SET_SETTINGS, item 9 (R128). -/
  | setSettingsSweepInterval (value : Word32)
  /-- SET_SETTINGS, item 10 (R39). -/
  | setSettingsReelIdCounter (value : Word32)
  /-- SET_SETTINGS, item 11 (R141). -/
  | setSettingsTravelWatermarks (lower upper : Word32)
  /-- SET_SETTINGS, item 12 (R142). -/
  | setSettingsMarkWatermarks (lower upper : Word32)
  /-- SAVE_SETTINGS (R178). -/
  | saveSettings
  /-- SAVE_COMPLETE (R178). -/
  | saveComplete (outcome : SaveOutcome)
  /-- PRESERVE (R180). -/
  | preserve
  /-- CANCEL_PRESERVE (R180). -/
  | cancelPreserve
  /-- RESET_PART (R180). -/
  | resetPart
deriving DecidableEq, Repr

end Sys2Proof
end

