-- ==== Sys2Proof/Decode.lean ====
section
/-! DEFINITION. The decoder the host asks about: the command that a word spells by the bits of spec/opcode_table.json.

No row of that table gives bits (every row's "fields" is empty and none has "fixed"): the commands are events, and the
request frames of the port are variable in length. So no word spells a command. The request frames of Chapter 12 are
read by `Sys2Proof.Machine.decodeRequest` in Machine/Operands.lean. -/

namespace Sys2Proof

/-- No row of the table gives bits, so no word is a command. -/
def decodeTableWord (_nbits _w : Nat) : Option Instr :=
  none

end Sys2Proof
end

