-- ==== Sys2Proof/Config.lean ====
section
/-! DEFINITION. What the manual leaves to the part: the one free value of the model and the EEPROM's unwritten byte. -/

namespace Sys2Proof.Config

/-- FREE VALUE (DESIGN CHOICE, notes/assumptions/8.md): how many bytes of the image an abandoned save had written
when the reset took it (R178: "The EEPROM holds the image as far as the writing went"). It has no body, so nothing can
be proved of it. It is applied to the state's counter of free values. -/
opaque saveProgress : Nat → Nat

/-- What a byte of the EEPROM that nothing has written reads as (DESIGN CHOICE, notes/assumptions/7.md): the manual
gives no content of a new EEPROM. -/
def erasedByte : Byte := 0xFF

/-- The EEPROM addresses the settings image may occupy: "up to 2,048 bytes" (R174). -/
def eepromSize : Nat := 2048

end Sys2Proof.Config
end

