-- ==== Sys2Proof/Machine/State.lean ====
section
/-! DEFINITION. The state of the JT-24: every block of section 2 with the state its chapter gives it, the queue of
commands that wait, and the state right after power-on.

Numbers the manual counts are `Nat`; the values that wrap are bit vectors. What is kept twice by the manual (a count and
the things it counts) is kept twice here, and the laws of Safety.lean say that the two agree. -/

namespace Sys2Proof.Machine

/-! ## Names and numbers -/

/-- One value for each shaft. -/
structure Pair (α : Type) where
  a : α
  b : α
deriving DecidableEq, Repr

/-- The value of one shaft. -/
def Pair.get {α : Type} (p : Pair α) : Shaft → α
  | .a => p.a
  | .b => p.b

/-- The pair with the value of one shaft replaced. -/
def Pair.set {α : Type} (p : Pair α) : Shaft → α → Pair α
  | .a, x => { p with a := x }
  | .b, x => { p with b := x }

/-- The other shaft. -/
def other : Shaft → Shaft
  | .a => .b
  | .b => .a

/-- A lane: lane n of the manual is the value n − 1. -/
abbrev Lane := Fin 24

/-- A handle of the reel table, 0 to 95 (R36). -/
abbrev Handle := Fin 96

/-- The two spindles of a shaft. -/
inductive Spindle where
  | one
  | two
deriving DecidableEq, Repr

/-- The other spindle of the turret. -/
def Spindle.other : Spindle → Spindle
  | .one => .two
  | .two => .one

/-! ## Position unit (Chapter 1) -/

/-- Direction of the line (R6). -/
inductive Direction where
  | forward
  | reverse
deriving DecidableEq, Repr

/-- Line state (R7). -/
inductive LineState where
  | stopped
  | running
deriving DecidableEq, Repr

/-- The twelve watches of the threshold service (R12). -/
inductive Watch where
  | knife
  | nip (shaft : Shaft)
  | threshold (shaft : Shaft) (kind : Threshold)
  | sweep
deriving DecidableEq, Repr

/-- The four watches of one shaft controller; `none` is disarmed. -/
structure ThresholdWatches where
  approach : Option Nat
  window : Option Nat
  due : Option Nat
  overrun : Option Nat
deriving DecidableEq, Repr

/-- The watch table (R12): each watch disarmed, or armed at a tracking position. -/
structure WatchTable where
  knife : Option Nat
  nip : Pair (Option Nat)
  threshold : Pair ThresholdWatches
  sweep : Option Nat
deriving DecidableEq, Repr

/-- An arrival handed to the owner of a watch and not yet taken (R14): the position the watch was armed at, and P when
the count ended. The list of them is the model's own (DESIGN CHOICE, notes/assumptions/6.md). -/
structure Arrival where
  watch : Watch
  position : Nat
  atP : Nat
deriving DecidableEq, Repr

/-- The splice stamp (R9): P at the last accepted pulse, with the debounce distance that came into force with it (R5;
DEDUCED, notes/assumptions/33.md). -/
structure SpliceStamp where
  position : Nat
  debounce : Nat
deriving DecidableEq, Repr

/-- The position unit. Timers hold the timebase value at which they expire; `none` is a stopped timer. -/
structure PositionUnit where
  p : Nat
  r : Nat
  reference : Bool × Bool
  direction : Direction
  line : LineState
  stopTimer : Option Nat
  fault : Bool
  spliceStamp : Option SpliceStamp
  latch : Pair (Option Nat)
  bounces : Pair Nat
  watches : WatchTable
  arrivals : List Arrival
deriving DecidableEq, Repr

/-! ## Knife map (Chapter 2) -/

/-- A lane record (R18); its lane number is its place in the table. -/
structure LaneRec where
  enabled : Bool
  edge : Nat
  width : Nat
  shaft : Shaft
  reference : Bool
  current : Option Handle
  tally : Nat
  untracked : Bool
deriving DecidableEq, Repr

/-- The knife map; the web width is a stored setting (R20) and stands with the settings. -/
structure KnifeMap where
  lanes : Vector LaneRec 24
  order : List Lane
  trim : Nat
deriving DecidableEq, Repr

/-! ## Findings and marks (Chapters 4 and 5) -/

/-- What a finding is, with the fields its kind has (R63, R80); a register error is two's complement. -/
inductive Finding where
  | defect (cls : Fin 4)
  | register (error : Word16)
  | splice (parent : Nat)
  | flag
deriving DecidableEq, Repr

/-- A mark chained to a reel (R63); the origin goes with the kind. A splice mark holds 0 for offset and width. -/
structure Mark where
  finding : Finding
  arrival : Nat
  offset : Nat
  width : Nat
  late : Bool
deriving DecidableEq, Repr

/-! ## Reel table (Chapter 3) -/

/-- The states of a record that is not FREE (R37). -/
inductive ReelState where
  | winding
  | ended
  | doffing
  | doffed
deriving DecidableEq, Repr

/-- The grades, best first (R77). -/
inductive Grade where
  | a
  | b
  | reject
deriving DecidableEq, Repr

/-- An entry of a parent list (R50). -/
structure ParentEntry where
  parent : Nat
  footage : Nat
deriving DecidableEq, Repr

/-- The seven tallies (R67). -/
structure Tallies where
  defect1 : Nat
  defect2 : Nat
  defect3 : Nat
  defect4 : Nat
  register : Nat
  splice : Nat
  flag : Nat
deriving DecidableEq, Repr

/-- The flags of a record (R49). -/
structure ReelFlags where
  limited : Bool
  reversed : Bool
  short : Bool
  overrun : Bool
  extra : Bool
  unplanned : Bool
  lateStart : Bool
  laneClosed : Bool
  marksDropped : Bool
  parentListFull : Bool
  unloadAssumed : Bool
  lateMarks : Bool
  diaLimit : Bool
  previousRun : Bool
deriving DecidableEq, Repr

/-- A record that is not FREE (R36). The stored footage of a WINDING record has no meaning and stays 0: its footage is
computed at each reading (R43). The mark count is the length of the chain (notes/assumptions/22.md). -/
structure Reel where
  id : Nat
  state : ReelState
  lane : Lane
  shaft : Shaft
  spindle : Spindle
  start : Nat
  stopAt : Option Nat
  rho : Nat
  thickness : Nat
  packing : Nat
  core : Nat
  limit : Nat
  table : Fin 8
  step : Nat
  ordinal : Word16
  footage : Nat
  diameter : Nat
  parents : List ParentEntry
  tallies : Tallies
  computed : Grade
  override : Option Grade
  chain : List Mark
  dropped : Nat
  revision : Word16
  flags : ReelFlags
deriving DecidableEq, Repr

/-- The reel table: a FREE record is `none` (R36). The id counter and the job values are stored settings. -/
structure ReelTable where
  reels : Vector (Option Reel) 96
  free : Nat
  reserved : Pair Nat
deriving DecidableEq, Repr

/-! ## Travel list (Chapter 5) -/

/-- What an approach entry carries (R80): an inspection finding with its cross-web interval, or a splice. -/
inductive Content where
  | report (finding : Finding) (x w : Nat)
  | splice (parent : Nat)
deriving DecidableEq, Repr

/-- An approach entry (R80); it holds two slots. -/
structure ApproachEntry where
  content : Content
  knife : Nat
  accepted : Nat
deriving DecidableEq, Repr

/-- One lane of a lane set, with the part of it the finding covers (R21). -/
structure LaneHit where
  lane : Lane
  offset : Nat
  width : Nat
deriving DecidableEq, Repr

/-- A nip entry (R81), held by the nip stage of its shaft; it holds one slot. -/
structure NipEntry where
  finding : Finding
  arrival : Nat
  lanes : List LaneHit
  late : Bool
deriving DecidableEq, Repr

/-- The travel list. -/
structure TravelList where
  free : Nat
  approach : List ApproachEntry
  nip : Pair (List NipEntry)
  staged : Option Nat
  current : Pair Nat
  spliceRefusals : Nat
  tooLate : Nat
deriving DecidableEq, Repr

/-! ## Shaft controllers (Chapter 6) -/

/-- The phases of a shaft (R103). -/
inductive Phase where
  | idle
  | winding
  | changePending
  | runout
deriving DecidableEq, Repr

/-- The states of a spindle (R102). -/
inductive SpindleState where
  | empty
  | active
  | full
deriving DecidableEq, Repr

/-- The change-due reason (R111). -/
inductive DueReason where
  | none
  | length
  | diameter
deriving DecidableEq, Repr

/-- A step of a plan (R104); a count of 0 is FOREVER (R182). -/
structure PlanStep where
  count : Word16
  target : Nat
  core : Nat
  limit : Nat
  table : Fin 8
  baseTension : Nat
  taper : Nat
  span : Nat
deriving DecidableEq, Repr

/-- A threshold of a set: its position and its fired mark (R108). -/
structure ThresholdMark where
  position : Nat
  fired : Bool
deriving DecidableEq, Repr

/-- The four thresholds of a set (R108). -/
structure ThresholdSet where
  approach : ThresholdMark
  window : ThresholdMark
  due : ThresholdMark
  overrun : ThresholdMark
deriving DecidableEq, Repr

/-- A shaft record (R101) with its CUTREQ line. `retriesDue` is the model's own: how many of the retry events that R115
makes separate events have been raised and not yet taken (notes/assumptions/9.md). -/
structure ShaftRec where
  phase : Phase
  active : Spindle
  spindle1 : SpindleState
  spindle2 : SpindleState
  plan : List PlanStep
  step : Nat
  counter : Word16
  firstFree : Bool
  thresholds : Option ThresholdSet
  reason : DueReason
  short : Bool
  retry : Bool
  retriesDue : Nat
  records : Bool
  tension : Nat
  ignoredCuts : Nat
  cutReq : Bool
deriving DecidableEq, Repr

/-! ## Sweep engine (Chapter 7) -/

/-- What a computation of the engine reads from the record at its beginning (R131, R132). -/
structure Readings where
  handle : Handle
  id : Nat
  footage : Nat
  thickness : Nat
  packing : Nat
  core : Nat
deriving DecidableEq, Repr

/-- The engine's activity (R126). -/
inductive Activity where
  | idle
  | closing (reading : Readings)
  | visiting (reading : Readings)
deriving DecidableEq, Repr

/-- An entry of the closing list (R127). -/
structure ClosingEntry where
  handle : Handle
  id : Nat
deriving DecidableEq, Repr

/-- The sweep engine; `sweep` is the cursor of the sweep in flight. -/
structure SweepEngine where
  activity : Activity
  sweep : Option Nat
  owed : Bool
  closing : List ClosingEntry
deriving DecidableEq, Repr

/-! ## Hold unit (Chapter 8) -/

/-- The 13 hold causes (R140). -/
structure Causes where
  travelLow : Bool
  travelEmpty : Bool
  marksLow : Bool
  untracked : Bool
  notUnloaded : Pair Bool
  records : Pair Bool
  overrun : Pair Bool
  planEnd : Pair Bool
  positionLimit : Bool
deriving DecidableEq, Repr

/-- The output levels (R146). -/
inductive Level where
  | none
  | slow
  | stop
deriving DecidableEq, Repr

/-- The hold unit with its two lines; a hold is active while it holds the expiry of its quantum timer. The lines are
kept apart because a preserving reset keeps them while no cause is held (R151). -/
structure HoldUnit where
  causes : Causes
  lastTravel : Nat
  lastMarks : Nat
  slow : Option Nat
  stop : Option Nat
  override : Option Nat
  slowEntries : Nat
  stopEntries : Nat
  renewals : Nat
  slowLine : Bool
  stopLine : Bool
deriving DecidableEq, Repr

/-! ## Line controller port and inspection link (Chapter 9) -/

/-- The answer codes (R161). -/
inductive AnswerCode where
  | ok
  | none
  | working
  | busy
  | loading
  | badFrame
  | range
  | state
  | lineMoving
  | laneActive
  | overlap
  | early
  | noRecords
  | notUnloaded
  | unknownReel
  | changed
  | tooLate
deriving DecidableEq, Repr

/-- A request: its code and its payload (R153). -/
structure Request where
  code : Byte
  payload : List Byte
deriving DecidableEq, Repr

/-- An answer as the buffer holds it (R154). -/
structure Answer where
  code : AnswerCode
  request : Byte
  payload : List Byte
  lost : Bool
deriving DecidableEq, Repr

/-- The answer buffer (R154). -/
inductive Buffer where
  | empty
  | working
  | ready (answer : Answer)
deriving DecidableEq, Repr

/-- What an answer transaction composed its frame from (R157). -/
inductive Shown where
  | notice
  | empty
  | working
  | answer
deriving DecidableEq, Repr

/-- The transaction in progress (R152); an answer transaction holds the frame it composed. A request transaction and an
ignored one are each one command, so between two commands neither is in progress (notes/assumptions/18.md). -/
inductive Transaction where
  | none
  | request
  | ignored
  | answer (shown : Shown) (frame : List Byte)
deriving DecidableEq, Repr

/-- An ADD_MARK that stays in work while the cut latch holds it (R98), with what it fixed when it was taken. -/
structure HeldMark where
  shaft : Shaft
  arrival : Nat
  lanes : List LaneHit
deriving DecidableEq, Repr

/-- The line controller port; `lost` is the lost marker and `notice` the busy notice's request code. -/
structure Port where
  transaction : Transaction
  buffer : Buffer
  lost : Bool
  inWork : Option Request
  notice : Option Byte
  held : Option HeldMark
deriving DecidableEq, Repr

/-- The phases of the inspection link receiver (R162). -/
inductive RxPhase where
  | hunt
  | receiving
deriving DecidableEq, Repr

/-- The inspection link receiver. -/
structure Receiver where
  phase : RxPhase
  bytes : List Byte
  gap : Option Nat
  badFrame : Nat
  range : Nat
  travelFull : Nat
  loading : Nat
deriving DecidableEq, Repr

/-! ## Digest unit (Chapter 10) -/

/-- An alert's place in the alert set and the mask, and its raise tag (R167, R171). -/
structure AlertCell where
  isSet : Bool
  tag : Word16
  masked : Bool
deriving DecidableEq, Repr

/-- The digest unit with the ATTN line; the alerts stand in the bit order of R182. -/
structure DigestUnit where
  changeTag : Word16
  ackedTag : Word16
  alerts : Vector AlertCell 20
  attn : Bool
deriving DecidableEq, Repr

/-! ## Settings store (Chapter 11) -/

/-- The job settings of one shaft (R105). -/
structure ShaftJob where
  approach : Nat
  window : Nat
  overrun : Nat
  auto : Bool
deriving DecidableEq, Repr

/-- The settings in force (R173). -/
structure Settings where
  nEnc : Nat
  stopTimeout : Nat
  debounce : Nat
  dIk : Nat
  dSk : Nat
  dKw : Pair Nat
  travelLower : Nat
  travelUpper : Nat
  markLower : Nat
  markUpper : Nat
  quantum : Nat
  sweepInterval : Nat
  reelIdCounter : Nat
  webWidth : Nat
  thickness : Nat
  packing : Nat
  rho : Pair Nat
  job : Pair ShaftJob
  tables : Vector GradeTable 8
deriving DecidableEq, Repr

/-- The last save result (R178). -/
inductive SaveResult where
  | none
  | done
  | failed
deriving DecidableEq, Repr

/-- The last reset kind (R180). -/
inductive ResetKind where
  | powerOn
  | warm
  | preserved
deriving DecidableEq, Repr

/-- The reset in progress while nRST is low (R180; notes/assumptions/13.md). -/
inductive ResetActivity where
  | none
  | preserving
  | clearing
deriving DecidableEq, Repr

/-- The settings store with the settings EEPROM. The EEPROM is a list of cells with rising addresses that lists no byte
equal to what an unwritten one reads as (Machine/Memory.lean). -/
structure SettingsStore where
  settings : Settings
  loading : Bool
  save : Option (List Byte)
  lastSave : SaveResult
  defaulted : Bool
  preserve : Bool
  lastReset : ResetKind
  reset : ResetActivity
  eeprom : List Host.Cell
deriving DecidableEq, Repr

/-! ## The whole state -/

/-- The state of the part. `encoder` is the level pair of the ENCA and ENCB pins. `now` is the internal 1 ms timebase.
`freeIndex` counts the free values read, and `pending` is the queue of commands that wait, first in, first out: these
two and `now` are the model's own (notes/assumptions/2.md, 8.md and 10.md). -/
structure State where
  position : PositionUnit
  map : KnifeMap
  table : ReelTable
  freeMarks : Nat
  travel : TravelList
  shafts : Pair ShaftRec
  engine : SweepEngine
  hold : HoldUnit
  port : Port
  link : Receiver
  digest : DigestUnit
  store : SettingsStore
  encoder : Bool × Bool
  now : Nat
  freeIndex : Nat
  pending : List Instr
deriving DecidableEq, Repr

/-- No condition of the manual stops the part: it goes on after every event, and a request it cannot carry out is
answered with a code of R161. So no step ends in a fault, and this type is empty (safe: it excludes no run;
notes/assumptions/28.md). -/
inductive Fault where
deriving DecidableEq, Repr

/-- Why a command has no meaning in the model. -/
inductive Refusal where
  /-- Answered by `exec` alone, for a row of the opcode table whose meaning is not written; no arm does so (safe). -/
  | notModelled (mnemonic : String)
deriving DecidableEq, Repr

/-! ## Power-on values -/

/-- Power-on value of the watch table (R12). -/
def WatchTable.initial : WatchTable :=
  { knife := none
    nip := ⟨none, none⟩
    threshold := ⟨⟨none, none, none, none⟩, ⟨none, none, none, none⟩⟩
    sweep := none }

/-- Power-on value of the position unit (R1, R6, R7, R8, R9, R11, R12). The reference is taken when the settings load
completes (R2); the value before that is a DESIGN CHOICE (notes/assumptions/1.md). -/
def PositionUnit.initial : PositionUnit :=
  { p := 0
    r := 0
    reference := (false, false)
    direction := .forward
    line := .stopped
    stopTimer := none
    fault := false
    spliceStamp := none
    latch := ⟨none, none⟩
    bounces := ⟨0, 0⟩
    watches := .initial
    arrivals := [] }

/-- Power-on value of a lane record (R18). -/
def LaneRec.initial : LaneRec :=
  { enabled := false
    edge := 0
    width := 100
    shaft := .a
    reference := false
    current := none
    tally := 0
    untracked := false }

/-- Power-on value of the knife map (R18, R19, R23). -/
def KnifeMap.initial : KnifeMap :=
  { lanes := Vector.replicate 24 .initial
    order := List.finRange 24
    trim := 0 }

/-- Power-on value of the reel table (R36, R55). -/
def ReelTable.initial : ReelTable :=
  { reels := Vector.replicate 96 none
    free := 96
    reserved := ⟨0, 0⟩ }

/-- Power-on value of the travel list (R79, R86, R87, R94). -/
def TravelList.initial : TravelList :=
  { free := 256
    approach := []
    nip := ⟨[], []⟩
    staged := none
    current := ⟨0, 0⟩
    spliceRefusals := 0
    tooLate := 0 }

/-- Power-on value of a shaft record (R101). -/
def ShaftRec.initial : ShaftRec :=
  { phase := .idle
    active := .one
    spindle1 := .empty
    spindle2 := .empty
    plan := []
    step := 0
    counter := 0
    firstFree := false
    thresholds := none
    reason := .none
    short := false
    retry := false
    retriesDue := 0
    records := false
    tension := 0
    ignoredCuts := 0
    cutReq := false }

/-- Power-on value of the sweep engine (R126). -/
def SweepEngine.initial : SweepEngine :=
  { activity := .idle
    sweep := none
    owed := false
    closing := [] }

/-- No hold cause present. -/
def Causes.empty : Causes :=
  { travelLow := false
    travelEmpty := false
    marksLow := false
    untracked := false
    notUnloaded := ⟨false, false⟩
    records := ⟨false, false⟩
    overrun := ⟨false, false⟩
    planEnd := ⟨false, false⟩
    positionLimit := false }

/-- Power-on value of the hold unit (R150). -/
def HoldUnit.initial : HoldUnit :=
  { causes := .empty
    lastTravel := 256
    lastMarks := 2048
    slow := none
    stop := none
    override := none
    slowEntries := 0
    stopEntries := 0
    renewals := 0
    slowLine := false
    stopLine := false }

/-- Value of the port after every reset (R159). -/
def Port.initial : Port :=
  { transaction := .none
    buffer := .empty
    lost := false
    inWork := none
    notice := none
    held := none }

/-- Value of the receiver after every reset (R165). -/
def Receiver.initial : Receiver :=
  { phase := .hunt
    bytes := []
    gap := none
    badFrame := 0
    range := 0
    travelFull := 0
    loading := 0 }

/-- Value of the digest unit after every reset (R172). -/
def DigestUnit.initial : DigestUnit :=
  { changeTag := 0
    ackedTag := 0
    alerts := Vector.replicate 20 ⟨false, 0, false⟩
    attn := false }

/-- The built-in default of a grade table (R75). -/
def defaultGradeTable : GradeTable :=
  { rowA := ⟨0, 0, 0, 0, 0, 0⟩
    rowB := ⟨5, 2, 0, 0, 3, 1⟩ }

/-- The built-in default of the items of one shaft (R105). -/
def ShaftJob.default : ShaftJob :=
  { approach := 950
    window := 750
    overrun := 50000
    auto := false }

/-- The built-in defaults (R173). -/
def Settings.default : Settings :=
  { nEnc := 10000
    stopTimeout := 300
    debounce := 1500
    dIk := 10000
    dSk := 2000
    dKw := ⟨5000, 5000⟩
    travelLower := 64
    travelUpper := 96
    markLower := 128
    markUpper := 256
    quantum := 2000
    sweepInterval := 5000
    reelIdCounter := 1
    webWidth := 40000
    thickness := 20
    packing := 1000
    rho := ⟨1000000, 1000000⟩
    job := ⟨.default, .default⟩
    tables := Vector.replicate 8 defaultGradeTable }

/-- The settings store right after power-on: the defaults in force and the load in flight (R173, R175, R176, R178,
R180). The EEPROM lists nothing. -/
def SettingsStore.initial : SettingsStore :=
  { settings := .default
    loading := true
    save := none
    lastSave := .none
    defaulted := false
    preserve := false
    lastReset := .powerOn
    reset := .none
    eeprom := [] }

/-- The part right after power-on with an EEPROM nothing has written: every block at its power-on values and the
settings load in flight (R175; notes/assumptions/31.md). The levels of ENCA and ENCB and the timebase's start are DESIGN CHOICES
(notes/assumptions/1.md). -/
def State.reset : State :=
  { position := .initial
    map := .initial
    table := .initial
    freeMarks := 2048
    travel := .initial
    shafts := ⟨.initial, .initial⟩
    engine := .initial
    hold := .initial
    port := .initial
    link := .initial
    digest := .initial
    store := .initial
    encoder := (false, false)
    now := 0
    freeIndex := 0
    pending := [] }

end Sys2Proof.Machine
end

