-- ==== Sys2Proof/Machine/Ops.lean ====
section
/-! DEFINITION. The named reads and updates of the state that every block uses: one setter for each field of `State`,
the accessors of shafts, lanes and records, and the counts that saturate. -/

namespace Sys2Proof.Machine

/-! ## Setters -/

/-- Replaces the position unit. -/
def State.setPosition (s : State) (x : PositionUnit) : State := { s with position := x }

/-- Replaces the knife map. -/
def State.setMap (s : State) (x : KnifeMap) : State := { s with map := x }

/-- Replaces the reel table. -/
def State.setTable (s : State) (x : ReelTable) : State := { s with table := x }

/-- Replaces the free mark count. -/
def State.setFreeMarks (s : State) (x : Nat) : State := { s with freeMarks := x }

/-- Replaces the travel list. -/
def State.setTravel (s : State) (x : TravelList) : State := { s with travel := x }

/-- Replaces both shaft records. -/
def State.setShafts (s : State) (x : Pair ShaftRec) : State := { s with shafts := x }

/-- Replaces the sweep engine. -/
def State.setEngine (s : State) (x : SweepEngine) : State := { s with engine := x }

/-- Replaces the hold unit. -/
def State.setHold (s : State) (x : HoldUnit) : State := { s with hold := x }

/-- Replaces the line controller port. -/
def State.setPort (s : State) (x : Port) : State := { s with port := x }

/-- Replaces the inspection link receiver. -/
def State.setLink (s : State) (x : Receiver) : State := { s with link := x }

/-- Replaces the digest unit. -/
def State.setDigest (s : State) (x : DigestUnit) : State := { s with digest := x }

/-- Replaces the settings store. -/
def State.setStore (s : State) (x : SettingsStore) : State := { s with store := x }

/-- Replaces the levels of the encoder pins. -/
def State.setEncoder (s : State) (x : Bool × Bool) : State := { s with encoder := x }

/-- Replaces the timebase. -/
def State.setNow (s : State) (x : Nat) : State := { s with now := x }

/-- Replaces the counter of free values. -/
def State.setFreeIndex (s : State) (x : Nat) : State := { s with freeIndex := x }

/-- Replaces the queue of waiting commands. -/
def State.setPending (s : State) (x : List Instr) : State := { s with pending := x }

/-! ## Parts of the state -/

/-- The settings in force (R173). -/
abbrev State.settings (s : State) : Settings := s.store.settings

/-- Replaces the settings in force. -/
def State.setSettings (s : State) (x : Settings) : State :=
  s.setStore { s.store with settings := x }

/-- The record of one shaft. -/
def State.shaft (s : State) (sh : Shaft) : ShaftRec := s.shafts.get sh

/-- Replaces the record of one shaft. -/
def State.setShaft (s : State) (sh : Shaft) (x : ShaftRec) : State :=
  s.setShafts (s.shafts.set sh x)

/-- The record of one lane. -/
def State.lane (s : State) (n : Lane) : LaneRec := s.map.lanes[n]

/-- Replaces the record of one lane. -/
def State.setLane (s : State) (n : Lane) (x : LaneRec) : State :=
  s.setMap { s.map with lanes := s.map.lanes.set n x }

/-- The reel record of one handle; `none` is FREE. -/
def State.reel (s : State) (h : Handle) : Option Reel := s.table.reels[h]

/-- Replaces the reel record of one handle. -/
def State.setReel (s : State) (h : Handle) (x : Option Reel) : State :=
  s.setTable { s.table with reels := s.table.reels.set h x }

/-- Applies a change to every record that is not FREE. -/
def State.mapReels (s : State) (f : Reel → Reel) : State :=
  s.setTable { s.table with reels := Vector.ofFn fun i => (s.table.reels[i]).map f }

/-- Applies a change to every lane record. -/
def State.mapLanes (s : State) (f : LaneRec → LaneRec) : State :=
  s.setMap { s.map with lanes := Vector.ofFn fun i => f s.map.lanes[i] }

/-- The lanes of the map in ascending lane number. -/
def allLanes : List Lane := List.finRange 24

/-- The handles in ascending order. -/
def allHandles : List Handle := List.finRange 96

/-- The enabled lanes of a shaft in ascending lane number (R35). -/
def State.enabledLanes (s : State) (sh : Shaft) : List Lane :=
  allLanes.filter fun n => (s.lane n).enabled && decide ((s.lane n).shaft = sh)

/-! ## Counts -/

/-- Adds 1 to a count that saturates at 65,535. -/
def satInc (n : Nat) : Nat :=
  if n < maxCount then n + 1 else n

/-- The ceiling of a division. -/
def ceilDiv (n d : Nat) : Nat :=
  (n + (d - 1)) / d

/-- A position clamped to the greatest tracking position. -/
def clampPosition (x : Nat) : Nat :=
  min x maxPosition

/-- A timer's expiry stands at `now`: the timer runs, and its expiry is not later (DEDUCED, notes/assumptions/5.md). -/
def stands (now : Nat) (timer : Option Nat) : Bool :=
  timer.any fun e => decide (e ≤ now)

/-! ## Resets and the load -/

/-- A reset is in progress (R180). -/
def State.inReset (s : State) : Bool :=
  decide (s.store.reset ≠ .none)

/-- The position unit takes its inputs: not from the taking of a power-on or of a non-preserving reset until the
settings load completes, and always through a preserving reset (R2). -/
def State.tracking (s : State) : Bool :=
  !s.store.loading && decide (s.store.reset ≠ .clearing)

end Sys2Proof.Machine
end

