-- ==== Sys2Proof/Machine/Flags.lean ====
section
/-! DEFINITION. The alerts of the digest unit, the change tag and the ATTN line (Chapter 10). -/

namespace Sys2Proof.Machine

/-- The 20 alerts (R167). -/
inductive Alert where
  | changeDue (shaft : Shaft)
  | approach (shaft : Shaft)
  | overrun (shaft : Shaft)
  | unplannedCut (shaft : Shaft)
  | diaLimit (shaft : Shaft)
  | planEnd (shaft : Shaft)
  | reelDoffed
  | lateChange
  | parentUnknown
  | marksDropped
  | reportsRefused
  | holdChanged
  | positionLimit
  | settingsDefaulted
deriving DecidableEq, Repr

/-- The alert's bit in the alert set and the mask (R182). -/
def Alert.index : Alert → Fin 20
  | .changeDue .a => 0
  | .changeDue .b => 1
  | .approach .a => 2
  | .approach .b => 3
  | .overrun .a => 4
  | .overrun .b => 5
  | .unplannedCut .a => 6
  | .unplannedCut .b => 7
  | .diaLimit .a => 8
  | .diaLimit .b => 9
  | .planEnd .a => 10
  | .planEnd .b => 11
  | .reelDoffed => 12
  | .lateChange => 13
  | .parentUnknown => 14
  | .marksDropped => 15
  | .reportsRefused => 16
  | .holdChanged => 17
  | .positionLimit => 18
  | .settingsDefaulted => 19

/-- What ATTN shows outside a reset: an unmasked alert is set and the change tag differs from the acked tag (R168). -/
def DigestUnit.calls (d : DigestUnit) : Bool :=
  d.alerts.toList.any (fun c => c.isSet && !c.masked) && decide (d.changeTag ≠ d.ackedTag)

/-- Replaces the digest unit and re-evaluates ATTN, which is low during any reset (R168). -/
def State.updateDigest (s : State) (d : DigestUnit) : State :=
  s.setDigest { d with attn := !s.inReset && d.calls }

/-- One raise: the change tag moves by 1, the alert is set, and the new tag is its raise tag (R167). -/
def DigestUnit.raise (d : DigestUnit) (a : Alert) : DigestUnit :=
  { d with
    changeTag := d.changeTag + 1
    alerts := d.alerts.set a.index
      { isSet := true, tag := d.changeTag + 1, masked := (d.alerts[a.index]).masked } }

/-- An alert raised as part of an event (R167). -/
def State.raise (s : State) (a : Alert) : State :=
  s.updateDigest (s.digest.raise a)

/-- An alert raised if a condition holds. -/
def State.raiseIf (s : State) (c : Bool) (a : Alert) : State :=
  if c then s.raise a else s

/-- A raise tag is newer than t when their difference, modulo 65,536, lies from 1 to 32,767 (R170). -/
def newerTag (r t : Word16) : Bool :=
  decide (1 ≤ (r - t).toNat) && decide ((r - t).toNat ≤ 32767)

/-- The set field names nothing but the 20 alerts (R170, R171). -/
def alertSetValid (alerts : BitVec 24) : Bool :=
  decide (alerts.toNat < 2 ^ 20)

/-- Clears the listed alerts whose raise tag is not newer than t (R170). -/
def DigestUnit.clear (d : DigestUnit) (t : Word16) (alerts : BitVec 24) : DigestUnit :=
  { d with
    alerts := Vector.ofFn fun i =>
      if alerts.getLsbD i.val && !newerTag (d.alerts[i]).tag t then { d.alerts[i] with isSet := false }
      else d.alerts[i] }

/-- Masks the named alerts and unmasks every other (R171). -/
def DigestUnit.mask (d : DigestUnit) (alerts : BitVec 24) : DigestUnit :=
  { d with
    alerts := Vector.ofFn fun i => { d.alerts[i] with masked := alerts.getLsbD i.val } }

end Sys2Proof.Machine
end

