-- ==== Sys2Proof/Machine/Hold.lean ====
section
/-! DEFINITION. The hold unit: causes, holds, lines and counters (Chapter 8).

The feeding blocks report to the hold unit as part of their events (R140). Each command that can change what they feed
ends with `State.settle`, which compares what they feed before and after the event: a condition that the event changed
is reported as it stands at the event's end, and the holds, the lines and HOLD_CHANGED follow. -/

namespace Sys2Proof.Machine

/-! ## Causes -/

/-- At least one cause of level STOP is present (R140). -/
def Causes.anyStop (c : Causes) : Bool :=
  c.travelEmpty || c.notUnloaded.a || c.notUnloaded.b || c.records.a || c.records.b || c.overrun.a || c.overrun.b
    || c.planEnd.a || c.planEnd.b || c.positionLimit

/-- At least one cause of either level is present. -/
def Causes.any (c : Causes) : Bool :=
  c.travelLow || c.marksLow || c.untracked || c.anyStop

/-- TRAVEL_LOW and MARKS_LOW by a count: present at the lower watermark or below, absent at the upper or above, and
otherwise as it was (R141, R142). -/
def lowTest (lower upper count : Nat) (was : Bool) : Bool :=
  if count ≤ lower then true else if upper ≤ count then false else was

/-- TRAVEL_EMPTY by a count (R141). -/
def emptyTest (lower count : Nat) (was : Bool) : Bool :=
  if count < 2 then true else if lower ≤ count then false else was

/-- The two travel causes re-tested against the count the hold unit holds (R141). -/
def State.testTravel (s : State) (count : Nat) (c : Causes) : Causes :=
  { c with
    travelLow := lowTest s.settings.travelLower s.settings.travelUpper count c.travelLow
    travelEmpty := emptyTest s.settings.travelLower count c.travelEmpty }

/-- MARKS_LOW re-tested against the count the hold unit holds (R142). -/
def State.testMarks (s : State) (count : Nat) (c : Causes) : Causes :=
  { c with marksLow := lowTest s.settings.markLower s.settings.markUpper count c.marksLow }

/-! ## What the feeding blocks feed -/

/-- The state of one spindle of a shaft. -/
def ShaftRec.spindle (r : ShaftRec) : Spindle → SpindleState
  | .one => r.spindle1
  | .two => r.spindle2

/-- The condition of NOT_UNLOADED: the change-due reason stands and the other spindle is FULL (R116). -/
def ShaftRec.feedsNotUnloaded (r : ShaftRec) : Bool :=
  decide (r.reason ≠ .none) && decide (r.spindle r.active.other = .full)

/-- The condition of OVERRUN: the overrun threshold of the set has fired (R112, R116). -/
def ShaftRec.feedsOverrun (r : ShaftRec) : Bool :=
  match r.thresholds with
  | none => false
  | some t => t.overrun.fired

/-- The condition of PLAN_END: the shaft is in RUNOUT (R116). -/
def ShaftRec.feedsPlanEnd (r : ShaftRec) : Bool :=
  decide (r.phase = .runout)

/-- The condition of UNTRACKED: an enabled lane carries the flag (R143). -/
def State.feedsUntracked (s : State) : Bool :=
  s.map.lanes.toList.any fun l => l.enabled && l.untracked

/-- The causes that follow a condition of the kept state alone: all but the three that depend on watermarks. -/
def State.feeds (s : State) (c : Causes) : Causes :=
  { c with
    untracked := s.feedsUntracked
    notUnloaded := ⟨s.shafts.a.feedsNotUnloaded, s.shafts.b.feedsNotUnloaded⟩
    records := ⟨s.shafts.a.records, s.shafts.b.records⟩
    overrun := ⟨s.shafts.a.feedsOverrun, s.shafts.b.feedsOverrun⟩
    planEnd := ⟨s.shafts.a.feedsPlanEnd, s.shafts.b.feedsPlanEnd⟩
    positionLimit := s.position.fault }

/-- A cause after an event: unchanged where the event left its condition as it was (R140). -/
def reported (was now cause : Bool) : Bool :=
  if was = now then cause else now

/-- The reports of one event, for the causes that follow a condition alone. -/
def Causes.report (was now c : Causes) : Causes :=
  { c with
    untracked := reported was.untracked now.untracked c.untracked
    notUnloaded := ⟨reported was.notUnloaded.a now.notUnloaded.a c.notUnloaded.a,
      reported was.notUnloaded.b now.notUnloaded.b c.notUnloaded.b⟩
    records := ⟨reported was.records.a now.records.a c.records.a, reported was.records.b now.records.b c.records.b⟩
    overrun := ⟨reported was.overrun.a now.overrun.a c.overrun.a, reported was.overrun.b now.overrun.b c.overrun.b⟩
    planEnd := ⟨reported was.planEnd.a now.planEnd.a c.planEnd.a, reported was.planEnd.b now.planEnd.b c.planEnd.b⟩
    positionLimit := reported was.positionLimit now.positionLimit c.positionLimit }

/-! ## Holds and lines -/

/-- The SLOW hold is demanded by any cause, and while the STOP hold is active (R144). -/
def HoldUnit.slowDemand (h : HoldUnit) : Bool :=
  h.causes.any || h.stop.isSome

/-- Activates the STOP hold if it is inactive and demanded (R144, R149). -/
def HoldUnit.activateStop (h : HoldUnit) (expiry : Nat) : HoldUnit :=
  if h.stop.isNone && h.causes.anyStop then
    { h with stop := some expiry, stopEntries := satInc h.stopEntries, stopLine := true }
  else h

/-- Activates the SLOW hold if it is inactive and demanded (R144, R149). -/
def HoldUnit.activateSlow (h : HoldUnit) (expiry : Nat) : HoldUnit :=
  if h.slow.isNone && h.slowDemand then
    { h with slow := some expiry, slowEntries := satInc h.slowEntries, slowLine := true }
  else h

/-- While the override runs, the SLOW hold falls in the event that ends its demand (R148). -/
def HoldUnit.releaseSlow (h : HoldUnit) : HoldUnit :=
  if h.slow.isSome && !h.slowDemand && h.override.isSome then { h with slow := none, slowLine := false } else h

/-- The holds after a change of the cause set (R144, R148). -/
def HoldUnit.follow (h : HoldUnit) (expiry : Nat) : HoldUnit :=
  ((h.activateStop expiry).activateSlow expiry).releaseSlow

/-- The output level (R146). -/
def HoldUnit.level (h : HoldUnit) : Level :=
  if h.stop.isSome then .stop else if h.slow.isSome then .slow else .none

/-- The hold unit takes a new cause set; a set that stands already changes nothing (R140). -/
def State.takeCauses (s : State) (c : Causes) : State :=
  if c = s.hold.causes then s
  else s.setHold (HoldUnit.follow { s.hold with causes := c } (s.now + s.settings.quantum))

/-- HOLD_CHANGED, raised once where the level at the end of an event differs from that at its start (R146). -/
def State.announce (before after : State) : State :=
  after.raiseIf (decide (before.hold.level ≠ after.hold.level)) .holdChanged

/-- The hold unit keeps the counts that the travel list and the mark pool report (R141, R142). -/
def State.takeCounts (before after : State) : State :=
  after.setHold { after.hold with
    lastTravel := if after.travel.free = before.travel.free then after.hold.lastTravel else after.travel.free
    lastMarks := if after.freeMarks = before.freeMarks then after.hold.lastMarks else after.freeMarks }

/-- The cause set after the reports of an event. -/
def State.eventCauses (before after : State) : Causes :=
  let c := Causes.report (before.feeds .empty) (after.feeds .empty) after.hold.causes
  let c := if after.travel.free = before.travel.free then c else after.testTravel after.travel.free c
  if after.freeMarks = before.freeMarks then c else after.testMarks after.freeMarks c

/-- The hold unit's part of an event, at the event's end (DEDUCED, notes/assumptions/12.md). A command that carries several
events, such as the releases of one pass (R92), settles once, at its own end, so that HOLD_CHANGED follows all its other
alerts (R146, R167): a DESIGN CHOICE (notes/assumptions/44.md). During a reset the hold unit takes no report (R151). -/
def State.settle (before after : State) : State :=
  if after.inReset then after
  else before.announce ((before.takeCounts after).takeCauses (before.eventCauses after))

end Sys2Proof.Machine
end

