-- ==== Sys2Proof/Machine/Memory.lean ====
section
/-! DEFINITION. The settings EEPROM as a list of cells in one canonical form: addresses strictly rising, below the
EEPROM's size, and no cell equal to what an unwritten byte reads as. -/

namespace Sys2Proof.Machine

/-- The EEPROM's contents. -/
abbrev Memory := List Host.Cell

/-- The byte at an address; an address that is not listed reads as `Config.erasedByte`. -/
def Memory.read : Memory → Nat → Byte
  | [], _ => Config.erasedByte
  | (k, b) :: m, a => if k = a then b else Memory.read m a

/-- Writes one byte and keeps the canonical form: writing what an unlisted address reads as removes the cell. -/
def Memory.write : Memory → Nat → Byte → Memory
  | [], a, b => if b = Config.erasedByte then [] else [(a, b)]
  | (k, c) :: m, a, b =>
    if a < k then
      if b = Config.erasedByte then (k, c) :: m else (a, b) :: (k, c) :: m
    else if a = k then
      if b = Config.erasedByte then m else (a, b) :: m
    else (k, c) :: Memory.write m a b

/-- Writes bytes from an address on. -/
def Memory.writeBytes : Memory → Nat → List Byte → Memory
  | m, _, [] => m
  | m, a, b :: bs => Memory.writeBytes (Memory.write m a b) (a + 1) bs

/-- The `n` bytes from an address on. -/
def Memory.readBytes (m : Memory) (a n : Nat) : List Byte :=
  (List.range n).map fun i => Memory.read m (a + i)

/-- The canonical form. -/
abbrev Memory.wf (m : Memory) : Prop :=
  m.Pairwise (fun c d => c.1 < d.1) ∧ ∀ c ∈ m, c.2 ≠ Config.erasedByte ∧ c.1 < Config.eepromSize

end Sys2Proof.Machine
end

