-- ==== Sys2Proof/Machine/Bytes.lean ====
section
/-! DEFINITION. Bytes, multi-byte fields, bit sets and the two checks of the frame formats (Chapters 9, 11 and 12). -/

namespace Sys2Proof.Machine

/-- The low byte of a number. -/
def byteOf (n : Nat) : Byte :=
  BitVec.ofNat 8 n

/-- A field of `k` bytes, most significant byte first (R182). -/
def beBytes : Nat → Nat → List Byte
  | 0, _ => []
  | k + 1, n => beBytes k (n / 256) ++ [byteOf n]

/-- The number that bytes spell, most significant byte first (R182). -/
def ofBE (bytes : List Byte) : Nat :=
  bytes.foldl (fun n b => n * 256 + b.toNat) 0

/-- The field of `len` bytes at offset `off`. -/
def fieldAt (bytes : List Byte) (off len : Nat) : Nat :=
  ofBE ((bytes.drop off).take len)

/-- A yes or no as one byte, 1 or 0. -/
def boolByte (b : Bool) : Byte :=
  if b then 1 else 0

/-- A set field: the first item stands in bit 0 of the last byte (R182). -/
def bitSet : List Bool → Nat
  | [] => 0
  | b :: bs => (if b then 1 else 0) + 2 * bitSet bs

/-- Bytes filled up with 0 to a fixed length (R183: fields that hold no value are sent as 0). -/
def padTo (k : Nat) (bytes : List Byte) : List Byte :=
  bytes ++ List.replicate (k - bytes.length) 0

/-- One bit of the CRC-16: generator 0x1021, most significant bit first (R152). -/
def crc16Bit (crc : Word16) : Word16 :=
  if crc.msb then (crc <<< 1) ^^^ 0x1021 else crc <<< 1

/-- One byte of the CRC-16. -/
def crc16Byte (crc : Word16) (b : Byte) : Word16 :=
  Nat.repeat crc16Bit 8 (crc ^^^ (b.zeroExtend 16 <<< 8))

/-- The CRC-16 of every frame of both ports: initial value 0xFFFF, no reflection, no final inversion (R152). -/
def crc16 (bytes : List Byte) : Word16 :=
  bytes.foldl crc16Byte 0xFFFF

/-- One bit of the CRC-32 in its reflected form; 0xEDB88320 is 0x04C11DB7 read backwards (R174). -/
def crc32Bit (crc : Word32) : Word32 :=
  if crc.getLsbD 0 then (crc >>> 1) ^^^ 0xEDB88320 else crc >>> 1

/-- One byte of the CRC-32. -/
def crc32Byte (crc : Word32) (b : Byte) : Word32 :=
  Nat.repeat crc32Bit 8 (crc ^^^ b.zeroExtend 32)

/-- The CRC-32 of the settings image: initial value 0xFFFFFFFF, input and output reflected, final inversion (R174). -/
def crc32 (bytes : List Byte) : Word32 :=
  bytes.foldl crc32Byte 0xFFFFFFFF ^^^ 0xFFFFFFFF

end Sys2Proof.Machine
end

