-- ==== Sys2Proof/Machine/Operands.lean ====
section
/-! DEFINITION. The operands of requests: the catalogue of codes and payload lengths, the payload of each request as
R183 lays it out, the request a payload spells, and the reading of the enumerated fields of R182. -/

namespace Sys2Proof.Machine

/-! ## Enumerated fields -/

/-- Shaft: 1 = A, 2 = B (R182). -/
def shaftOf (code : Nat) : Option Shaft :=
  if code = 1 then some .a else if code = 2 then some .b else none

/-- The code of a shaft (R182). -/
def shaftCode : Shaft → Nat
  | .a => 1
  | .b => 2

/-- Spindle 1 or 2 (R124). -/
def spindleOf (code : Nat) : Option Spindle :=
  if code = 1 then some .one else if code = 2 then some .two else none

/-- Lane number 1 to 24 (R26, R52). -/
def laneOf (n : Nat) : Option Lane :=
  if h : 1 ≤ n ∧ n ≤ 24 then some ⟨n - 1, by omega⟩ else none

/-- The number of a lane. -/
def laneNumber (n : Lane) : Nat :=
  n.val + 1

/-- A handle 0 to 95 (R54). -/
def handleOf (n : Nat) : Option Handle :=
  if h : n < 96 then some ⟨n, h⟩ else none

/-- A grade table index 0 to 7 (R76, R104). -/
def tableOf (n : Nat) : Option (Fin 8) :=
  if h : n < 8 then some ⟨n, h⟩ else none

/-- Off or on, sent as 0 or 1 (R182). -/
def switchOf (n : Nat) : Option Bool :=
  if n = 0 then some false else if n = 1 then some true else none

/-- A grade or CLEAR (R182); the outer `none` is a value not listed. -/
def gradeOf (n : Nat) : Option (Option Grade) :=
  if n = 0 then some none
  else if n = 1 then some (some .a)
  else if n = 2 then some (some .b)
  else if n = 3 then some (some .reject)
  else none

/-- The state selection of LIST_REELS (R182); the inner `none` is ANY. -/
def selectionOf (n : Nat) : Option (Option ReelState) :=
  if n = 0 then some none
  else if n = 1 then some (some .winding)
  else if n = 2 then some (some .ended)
  else if n = 3 then some (some .doffing)
  else if n = 4 then some (some .doffed)
  else none

/-! ## The catalogue of requests -/

/-- The payload length of each request code of the catalogue, and nothing for a byte that is no code (R153, R183). -/
def payloadLength (code : Nat) : Option Nat :=
  match code with
  | 0x01 => some 0
  | 0x02 => some 2
  | 0x03 => some 5
  | 0x04 => some 3
  | 0x10 => some 4
  | 0x11 => some 6
  | 0x12 => some 2
  | 0x13 => some 5
  | 0x14 => some 1
  | 0x15 => some 1
  | 0x16 => some 0
  | 0x20 => some 6
  | 0x21 => some 31
  | 0x22 => some 25
  | 0x23 => some 1
  | 0x24 => some 25
  | 0x25 => some 4
  | 0x30 => some 1
  | 0x31 => some 1
  | 0x32 => some 2
  | 0x33 => some 1
  | 0x34 => some 2
  | 0x35 => some 8
  | 0x36 => some 5
  | 0x37 => some 6
  | 0x38 => some 0
  | 0x39 => some 0
  | 0x3A => some 0
  | 0x40 => some 9
  | 0x41 => some 0
  | 0x42 => some 0
  | 0x43 => some 0
  | 0x44 => some 0
  | _ => none

/-! ## Payloads -/

/-- A two-byte field. -/
def bytes16 (w : Word16) : List Byte := beBytes 2 w.toNat

/-- A three-byte set field. -/
def bytes24 (w : BitVec 24) : List Byte := beBytes 3 w.toNat

/-- A four-byte field. -/
def bytes32 (w : Word32) : List Byte := beBytes 4 w.toNat

/-- Six maxima in the order of R75's table. -/
def Maxima.toBytes (m : Maxima) : List Byte :=
  bytes16 m.defect1 ++ bytes16 m.defect2 ++ bytes16 m.defect3 ++ bytes16 m.defect4 ++ bytes16 m.register
    ++ bytes16 m.splice

/-- A grade table: the A row, then the B row (R183, R186). -/
def tableBytes (t : GradeTable) : List Byte :=
  Maxima.toBytes t.rowA ++ Maxima.toBytes t.rowB

/-- The per-shaft items of SET_JOB (R183). -/
def shaftJobBytes (j : ShaftJobFields) : List Byte :=
  bytes16 j.approach ++ bytes16 j.window ++ bytes32 j.overrun ++ [j.auto]

/-- The payload of SET_JOB (R183). -/
def jobBytes (j : JobFields) : List Byte :=
  bytes16 j.webWidth ++ [j.thickness] ++ bytes16 j.packing ++ bytes32 j.rhoA ++ bytes32 j.rhoB
    ++ shaftJobBytes j.shaftA ++ shaftJobBytes j.shaftB

/-- A step record (R183). -/
def stepBytes (st : StepFields) : List Byte :=
  bytes16 st.count ++ bytes32 st.target ++ bytes32 st.core ++ bytes32 st.limit ++ [st.table]
    ++ bytes16 st.baseTension ++ bytes16 st.taper ++ bytes32 st.span

/-- A SET_LANE payload: lane, edit kind and two values (R183). -/
def laneEdit (lane kind : Byte) (first second : Word16) : Request :=
  ⟨0x20, [lane, kind] ++ bytes16 first ++ bytes16 second⟩

/-- A SET_SETTINGS payload: item and two values (R183). -/
def settingEdit (item : Byte) (first second : Word32) : Request :=
  ⟨0x40, [item] ++ bytes32 first ++ bytes32 second⟩

/-- The request that a command stands for, with the payload R183 lays out; values that are not read are sent as 0. A
command that is no request of the port has none. -/
def encodeRequest : Instr → Option Request
  | .readDigest => some ⟨0x01, []⟩
  | .ackDigest tag => some ⟨0x02, bytes16 tag⟩
  | .clearAlerts tag alerts => some ⟨0x03, bytes16 tag ++ bytes24 alerts⟩
  | .setAlertMask alerts => some ⟨0x04, bytes24 alerts⟩
  | .queryReel id => some ⟨0x10, bytes32 id⟩
  | .findReel lane shaft position => some ⟨0x11, [lane, shaft] ++ bytes32 position⟩
  | .listReels selection handle => some ⟨0x12, [selection, handle]⟩
  | .readMarks id page => some ⟨0x13, bytes32 id ++ [page]⟩
  | .queryShaft shaft => some ⟨0x14, [shaft]⟩
  | .queryLane lane => some ⟨0x15, [lane]⟩
  | .mapSummary => some ⟨0x15, [0]⟩
  | .readSettings => some ⟨0x16, []⟩
  | .setLaneGeometry lane edge width => some (laneEdit lane 1 edge width)
  | .setLaneShaft lane shaft => some (laneEdit lane 2 shaft 0)
  | .setLaneEnable lane => some (laneEdit lane 3 0 0)
  | .setLaneDisable lane => some (laneEdit lane 4 0 0)
  | .setLaneReference lane on => some (laneEdit lane 5 on 0)
  | .setLaneClearTally lane => some (laneEdit lane 6 0 0)
  | .setJob job => some ⟨0x21, jobBytes job⟩
  | .setPlanStep shaft number step => some ⟨0x22, [shaft, number] ++ stepBytes step⟩
  | .clearPlan shaft => some ⟨0x23, [shaft]⟩
  | .setGradeTable index table => some ⟨0x24, [index] ++ tableBytes table⟩
  | .stageParent parent => some ⟨0x25, bytes32 parent⟩
  | .startShaft shaft => some ⟨0x30, [shaft]⟩
  | .stopShaft shaft => some ⟨0x31, [shaft]⟩
  | .change shaft force => some ⟨0x32, [shaft, force]⟩
  | .cancelChange shaft => some ⟨0x33, [shaft]⟩
  | .unloaded shaft spindle => some ⟨0x34, [shaft, spindle]⟩
  | .addMark shaft lanes back => some ⟨0x35, [shaft] ++ bytes24 lanes ++ bytes32 back⟩
  | .overrideGrade id grade => some ⟨0x36, bytes32 id ++ [grade]⟩
  | .retire id revision => some ⟨0x37, bytes32 id ++ bytes16 revision⟩
  | .sweep => some ⟨0x38, []⟩
  | .holdOverride => some ⟨0x39, []⟩
  | .resetRun => some ⟨0x3A, []⟩
  | .setSettingsNEnc value => some (settingEdit 1 value 0)
  | .setSettingsStopTimeout value => some (settingEdit 2 value 0)
  | .setSettingsSpliceDebounce value => some (settingEdit 3 value 0)
  | .setSettingsDIk value => some (settingEdit 4 value 0)
  | .setSettingsDSk value => some (settingEdit 5 value 0)
  | .setSettingsDKw .a value => some (settingEdit 6 value 0)
  | .setSettingsDKw .b value => some (settingEdit 7 value 0)
  | .setSettingsHoldQuantum value => some (settingEdit 8 value 0)
  | .setSettingsSweepInterval value => some (settingEdit 9 value 0)
  | .setSettingsReelIdCounter value => some (settingEdit 10 value 0)
  | .setSettingsTravelWatermarks lower upper => some (settingEdit 11 lower upper)
  | .setSettingsMarkWatermarks lower upper => some (settingEdit 12 lower upper)
  | .saveSettings => some ⟨0x41, []⟩
  | .preserve => some ⟨0x42, []⟩
  | .cancelPreserve => some ⟨0x43, []⟩
  | .resetPart => some ⟨0x44, []⟩
  | .powerOn => none
  | .warmReset => none
  | .resetEnd => none
  | .settingsLoadComplete _ => none
  | .quadratureChange _ _ => none
  | .stopTimerExpiry => none
  | .splicePulse => none
  | .cutPulse _ => none
  | .cutTaken _ => none
  | .knifeWatchArrival => none
  | .nipWatchArrival _ => none
  | .thresholdArrival _ _ => none
  | .automaticRetry _ => none
  | .sweepWatchArrival => none
  | .visitComplete => none
  | .closingComplete => none
  | .holdTimerExpiry _ => none
  | .overrideExpiry => none
  | .uartCharacter _ _ => none
  | .gapTimerExpiry => none
  | .requestTransaction _ => none
  | .ignoredTransaction => none
  | .answerStart => none
  | .answerEnd _ => none
  | .saveComplete _ => none

/-! ## Reading a payload -/

/-- The byte at an offset of a payload. -/
def byteAt (p : List Byte) (off : Nat) : Byte := p.getD off 0

/-- The two-byte field at an offset. -/
def word16At (p : List Byte) (off : Nat) : Word16 := BitVec.ofNat 16 (fieldAt p off 2)

/-- The three-byte set field at an offset. -/
def word24At (p : List Byte) (off : Nat) : BitVec 24 := BitVec.ofNat 24 (fieldAt p off 3)

/-- The four-byte field at an offset. -/
def word32At (p : List Byte) (off : Nat) : Word32 := BitVec.ofNat 32 (fieldAt p off 4)

/-- The six maxima at an offset. -/
def maximaAt (p : List Byte) (off : Nat) : Maxima :=
  ⟨word16At p off, word16At p (off + 2), word16At p (off + 4), word16At p (off + 6), word16At p (off + 8),
    word16At p (off + 10)⟩

/-- The grade table at an offset. -/
def tableAt (p : List Byte) (off : Nat) : GradeTable :=
  ⟨maximaAt p off, maximaAt p (off + 12)⟩

/-- The per-shaft items of SET_JOB at an offset. -/
def shaftJobAt (p : List Byte) (off : Nat) : ShaftJobFields :=
  ⟨word16At p off, word16At p (off + 2), word32At p (off + 4), byteAt p (off + 8)⟩

/-- The payload of SET_JOB. -/
def jobAt (p : List Byte) : JobFields :=
  ⟨word16At p 0, byteAt p 2, word16At p 3, word32At p 5, word32At p 9, shaftJobAt p 13, shaftJobAt p 22⟩

/-- The step record at an offset. -/
def stepAt (p : List Byte) (off : Nat) : StepFields :=
  ⟨word16At p off, word32At p (off + 2), word32At p (off + 6), word32At p (off + 10), byteAt p (off + 14),
    word16At p (off + 15), word16At p (off + 17), word32At p (off + 19)⟩

/-- The command that a SET_LANE payload spells; an edit kind that is none of the six spells none (R26, R183). -/
def decodeLaneEdit (p : List Byte) : Option Instr :=
  match (byteAt p 1).toNat with
  | 1 => some (.setLaneGeometry (byteAt p 0) (word16At p 2) (word16At p 4))
  | 2 => some (.setLaneShaft (byteAt p 0) (word16At p 2))
  | 3 => some (.setLaneEnable (byteAt p 0))
  | 4 => some (.setLaneDisable (byteAt p 0))
  | 5 => some (.setLaneReference (byteAt p 0) (word16At p 2))
  | 6 => some (.setLaneClearTally (byteAt p 0))
  | _ => none

/-- The command that a SET_SETTINGS payload spells; an unknown item spells none (R177, R183). -/
def decodeSetting (p : List Byte) : Option Instr :=
  match (byteAt p 0).toNat with
  | 1 => some (.setSettingsNEnc (word32At p 1))
  | 2 => some (.setSettingsStopTimeout (word32At p 1))
  | 3 => some (.setSettingsSpliceDebounce (word32At p 1))
  | 4 => some (.setSettingsDIk (word32At p 1))
  | 5 => some (.setSettingsDSk (word32At p 1))
  | 6 => some (.setSettingsDKw .a (word32At p 1))
  | 7 => some (.setSettingsDKw .b (word32At p 1))
  | 8 => some (.setSettingsHoldQuantum (word32At p 1))
  | 9 => some (.setSettingsSweepInterval (word32At p 1))
  | 10 => some (.setSettingsReelIdCounter (word32At p 1))
  | 11 => some (.setSettingsTravelWatermarks (word32At p 1) (word32At p 5))
  | 12 => some (.setSettingsMarkWatermarks (word32At p 1) (word32At p 5))
  | _ => none

/-- The command that a well-formed request spells (R183). Values that a request does not read are dropped. -/
def decodeRequest (q : Request) : Option Instr :=
  let p := q.payload
  match q.code.toNat with
  | 0x01 => some .readDigest
  | 0x02 => some (.ackDigest (word16At p 0))
  | 0x03 => some (.clearAlerts (word16At p 0) (word24At p 2))
  | 0x04 => some (.setAlertMask (word24At p 0))
  | 0x10 => some (.queryReel (word32At p 0))
  | 0x11 => some (.findReel (byteAt p 0) (byteAt p 1) (word32At p 2))
  | 0x12 => some (.listReels (byteAt p 0) (byteAt p 1))
  | 0x13 => some (.readMarks (word32At p 0) (byteAt p 4))
  | 0x14 => some (.queryShaft (byteAt p 0))
  | 0x15 => if byteAt p 0 = 0 then some .mapSummary else some (.queryLane (byteAt p 0))
  | 0x16 => some .readSettings
  | 0x20 => decodeLaneEdit p
  | 0x21 => some (.setJob (jobAt p))
  | 0x22 => some (.setPlanStep (byteAt p 0) (byteAt p 1) (stepAt p 2))
  | 0x23 => some (.clearPlan (byteAt p 0))
  | 0x24 => some (.setGradeTable (byteAt p 0) (tableAt p 1))
  | 0x25 => some (.stageParent (word32At p 0))
  | 0x30 => some (.startShaft (byteAt p 0))
  | 0x31 => some (.stopShaft (byteAt p 0))
  | 0x32 => some (.change (byteAt p 0) (byteAt p 1))
  | 0x33 => some (.cancelChange (byteAt p 0))
  | 0x34 => some (.unloaded (byteAt p 0) (byteAt p 1))
  | 0x35 => some (.addMark (byteAt p 0) (word24At p 1) (word32At p 4))
  | 0x36 => some (.overrideGrade (word32At p 0) (byteAt p 4))
  | 0x37 => some (.retire (word32At p 0) (word16At p 4))
  | 0x38 => some .sweep
  | 0x39 => some .holdOverride
  | 0x3A => some .resetRun
  | 0x40 => decodeSetting p
  | 0x41 => some .saveSettings
  | 0x42 => some .preserve
  | 0x43 => some .cancelPreserve
  | 0x44 => some .resetPart
  | _ => none

end Sys2Proof.Machine
end

