-- ==== Sys2Proof/Machine/Image.lean ====
section
/-! DEFINITION. The ranges of the settings, the settings image and the EEPROM's part in saves and loads (R141, R142,
R173, R174, R178, R186). -/

namespace Sys2Proof.Machine

/-! ## Ranges -/

/-- A number within a range. -/
def within (lo hi n : Nat) : Bool :=
  decide (lo ≤ n) && decide (n ≤ hi)

/-- The window per-mille is 0, 500, 750 or 900 (R105). -/
def windowValid (w : Nat) : Bool :=
  decide (w = 0) || decide (w = 500) || decide (w = 750) || decide (w = 900)

/-- The per-shaft items lie in their ranges (R105). -/
def ShaftJob.valid (j : ShaftJob) : Bool :=
  within 500 999 j.approach && windowValid j.window && decide (j.overrun ≤ 1000000)

/-- The travel watermarks lie in their ranges and in order (R141). -/
def travelMarksValid (lower upper : Nat) : Bool :=
  within 2 255 lower && within (lower + 1) 256 upper

/-- The mark watermarks lie in their ranges and in order (R142). -/
def markMarksValid (lower upper : Nat) : Bool :=
  decide (lower ≤ 2047) && within (lower + 1) 2048 upper

/-- The sweep interval is 0, or 100 to 100,000 (R128). -/
def sweepIntervalValid (x : Nat) : Bool :=
  decide (x = 0) || within 100 100000 x

/-- A distance of 0 to 100,000 mm (R84, R173). -/
def distanceValid (x : Nat) : Bool :=
  decide (x ≤ 100000)

/-- The ratio's range (R41). -/
def rhoValid (x : Nat) : Bool :=
  within 950000 1050000 x

/-- Every item lies within its range in R173, the watermark pairs in order; a grade maximum is in range by its size
(R174). -/
def Settings.valid (st : Settings) : Bool :=
  within 200 200000 st.nEnc && within 50 5000 st.stopTimeout && distanceValid st.debounce && distanceValid st.dIk
    && distanceValid st.dSk && distanceValid st.dKw.a && distanceValid st.dKw.b
    && travelMarksValid st.travelLower st.travelUpper && markMarksValid st.markLower st.markUpper
    && within 100 60000 st.quantum && sweepIntervalValid st.sweepInterval && within 1 maxPosition st.reelIdCounter
    && within 1000 40000 st.webWidth && within 5 200 st.thickness && within 1000 1200 st.packing
    && rhoValid st.rho.a && rhoValid st.rho.b && st.job.a.valid && st.job.b.valid

/-! ## The body of the image -/

/-- The length of the format-1 body (R186). -/
abbrev bodyLength : Nat := 251

/-- The code of a window per-mille in the window and auto-change byte (R186). -/
def windowCode (w : Nat) : Nat :=
  if w = 500 then 1 else if w = 750 then 2 else if w = 900 then 3 else 0

/-- The window per-mille of a code. -/
def windowOfCode (c : Nat) : Nat :=
  if c = 1 then 500 else if c = 2 then 750 else if c = 3 then 900 else 0

/-- The per-shaft items in the image (R186). -/
def ShaftJob.toBody (j : ShaftJob) : List Byte :=
  beBytes 2 j.approach ++ [byteOf (windowCode j.window + if j.auto then 128 else 0)] ++ beBytes 3 j.overrun

/-- The 251 body bytes (R186). -/
def Settings.toBody (st : Settings) : List Byte :=
  beBytes 3 st.nEnc ++ beBytes 2 st.stopTimeout ++ beBytes 3 st.debounce ++ beBytes 3 st.dIk ++ beBytes 3 st.dSk
    ++ beBytes 3 st.dKw.a ++ beBytes 3 st.dKw.b
    ++ beBytes 1 st.travelLower ++ beBytes 2 st.travelUpper ++ beBytes 2 st.markLower ++ beBytes 2 st.markUpper
    ++ beBytes 2 st.quantum ++ beBytes 3 st.sweepInterval ++ beBytes 4 st.reelIdCounter
    ++ beBytes 2 st.webWidth ++ beBytes 1 st.thickness ++ beBytes 2 st.packing ++ beBytes 3 st.rho.a
    ++ beBytes 3 st.rho.b ++ st.job.a.toBody ++ st.job.b.toBody ++ st.tables.toList.flatMap tableBytes

/-- The window and auto-change byte holds no bit but bits 0, 1 and 7 (R186). -/
def windowByteValid (b : Nat) : Bool :=
  decide (b % 128 < 4)

/-- The per-shaft items at an offset of the body. -/
def jobInBody (body : List Byte) (off : Nat) : ShaftJob :=
  { approach := fieldAt body off 2
    window := windowOfCode (fieldAt body (off + 2) 1 % 4)
    overrun := fieldAt body (off + 3) 3
    auto := decide (128 ≤ fieldAt body (off + 2) 1) }

/-- The items of a body, at the offsets of R186's table. -/
def settingsInBody (body : List Byte) : Settings :=
  { nEnc := fieldAt body 0 3
    stopTimeout := fieldAt body 3 2
    debounce := fieldAt body 5 3
    dIk := fieldAt body 8 3
    dSk := fieldAt body 11 3
    dKw := ⟨fieldAt body 14 3, fieldAt body 17 3⟩
    travelLower := fieldAt body 20 1
    travelUpper := fieldAt body 21 2
    markLower := fieldAt body 23 2
    markUpper := fieldAt body 25 2
    quantum := fieldAt body 27 2
    sweepInterval := fieldAt body 29 3
    reelIdCounter := fieldAt body 32 4
    webWidth := fieldAt body 36 2
    thickness := fieldAt body 38 1
    packing := fieldAt body 39 2
    rho := ⟨fieldAt body 41 3, fieldAt body 44 3⟩
    job := ⟨jobInBody body 47, jobInBody body 53⟩
    tables := Vector.ofFn fun i => tableAt body (59 + 24 * i.val) }

/-- The settings of a body, where every item of it is in range (R174, R186). -/
def settingsOfBody (body : List Byte) : Option Settings :=
  if windowByteValid (fieldAt body 49 1) && windowByteValid (fieldAt body 55 1) && (settingsInBody body).valid then
    some (settingsInBody body)
  else none

/-! ## The image -/

/-- The length of the header (R186). -/
abbrev headerLength : Nat := 7

/-- The header of an image: the body length, the format number 1 and the CRC-32 of the body (R174, R186). -/
def imageHeader (body : List Byte) : List Byte :=
  beBytes 2 body.length ++ [1] ++ beBytes 4 (crc32 body).toNat

/-- The image of the settings in force, as a save composes it (R178). -/
def Settings.image (st : Settings) : List Byte :=
  imageHeader st.toBody ++ st.toBody

/-- The settings of the image in the EEPROM, where the image is accepted (R174); `acknowledged` says that the EEPROM
acknowledged every read. -/
def loadImage (acknowledged : Bool) (m : Memory) : Option Settings :=
  let header := Memory.readBytes m 0 headerLength
  let body := Memory.readBytes m headerLength bodyLength
  if acknowledged && decide (fieldAt header 0 2 = bodyLength) && decide (fieldAt header 2 1 = 1)
      && decide (fieldAt header 3 4 = (crc32 body).toNat) then
    settingsOfBody body
  else none

/-! ## Writing -/

/-- The EEPROM after a save that was done: the image stands from address 0 on (R178, R186). -/
def writeImage (m : Memory) (image : List Byte) : Memory :=
  Memory.writeBytes m 0 image

/-- The EEPROM after a save abandoned when `n` bytes had been written: the body goes first and the header last
(R178). -/
def writePart (m : Memory) (image : List Byte) (n : Nat) : Memory :=
  let body := image.drop headerLength
  let m1 := Memory.writeBytes m headerLength (body.take n)
  Memory.writeBytes m1 0 ((image.take headerLength).take (n - body.length))

/-- The EEPROM after a failed save: whatever the abandoned writing left (R178). -/
def writeLeft (m : Memory) (left : List Byte) : Memory :=
  Memory.writeBytes m 0 (left.take Config.eepromSize)

end Sys2Proof.Machine
end

