-- ==== Sys2Proof/Machine/Reels.lean ====
section
/-! DEFINITION. The reel table: searches, footage, opening, ending and closing of records, record accounting and the
spindle states that follow from the records (Chapter 3, R38, R102). -/

namespace Sys2Proof.Machine

/-! ## Finding records -/

/-- The record covers a position of a lane on a shaft (R51). -/
def Reel.covers (r : Reel) (n : Lane) (sh : Shaft) (x : Nat) : Bool :=
  !r.flags.previousRun && decide (r.lane = n) && decide (r.shaft = sh) && decide (r.start ≤ x)
    && (decide (r.state = .winding) || r.stopAt.any fun e => decide (x < e))

/-- The position search (R51). -/
def State.coveringReel (s : State) (n : Lane) (sh : Shaft) (x : Nat) : Option Handle :=
  allHandles.find? fun h => (s.reel h).any fun r => r.covers n sh x

/-- The search by id; an id of 0 finds no record (R53). -/
def State.reelById (s : State) (id : Nat) : Option Handle :=
  if id = 0 then none else allHandles.find? fun h => (s.reel h).any fun r => decide (r.id = id)

/-- How many records satisfy a test. -/
def State.countReels (s : State) (f : Reel → Bool) : Nat :=
  (allHandles.filter fun h => (s.reel h).any f).length

/-- The number of a shaft's records in a state (R56). -/
def State.reelsIn (s : State) (sh : Shaft) (st : ReelState) : Nat :=
  s.countReels fun r => decide (r.shaft = sh) && decide (r.state = st)

/-! ## Footage -/

/-- The footage of a position at or beyond the start, before it is clamped (R43). -/
def rawFootage (start rho x : Nat) : Nat :=
  ((x - start) * rho + 500000) / 1000000

/-- The footage of a position at or beyond the start, clamped (R43). -/
def footageAt (start rho x : Nat) : Nat :=
  min (rawFootage start rho x) maxPosition

/-- The footage of a position on a record; a position below the start reads 0 (R43). -/
def Reel.footageOf (r : Reel) (x : Nat) : Nat :=
  if r.start ≤ x then footageAt r.start r.rho x else 0

/-- The flags after a footage of a position has been read or fixed: LIMITED for a clamp, REVERSED for a position below
the start (R43, R44). -/
def Reel.footageFlags (r : Reel) (x : Nat) : ReelFlags :=
  if r.start ≤ x then { r.flags with limited := r.flags.limited || decide (maxPosition < rawFootage r.start r.rho x) }
  else { r.flags with reversed := true }

/-- The revision moves by 1, wrapping (R48). -/
def Reel.bump (r : Reel) : Reel :=
  { r with revision := r.revision + 1 }

/-- A record with new flags, and with a new revision where a flag is newly set (R48, R49). -/
def Reel.withFlags (r : Reel) (f : ReelFlags) : Reel :=
  if f = r.flags then r else { r with flags := f }.bump

/-- A live footage read at P = x (R43). -/
def Reel.liveRead (r : Reel) (x : Nat) : Reel :=
  r.withFlags (r.footageFlags x)

/-! ## Ending and closing -/

/-- The end position and the fixed footage of a record ended or closed at x (R44). -/
def Reel.endAt (r : Reel) (x : Nat) : Reel :=
  { r with
    stopAt := some (max x r.start)
    footage := r.footageOf x
    flags := r.footageFlags x }

/-- The record is on its spindle: every state but DOFFED (R38). -/
def Reel.onSpindle (r : Reel) : Bool :=
  decide (r.state ≠ .doffed)

/-- A record of the shaft that a cut or a STOP_SHAFT closes (R45, R46). -/
def Reel.closes (r : Reel) (sh : Shaft) : Bool :=
  decide (r.shaft = sh) && (decide (r.state = .winding) || decide (r.state = .ended))

/-- A record closed at x by a cut or a STOP_SHAFT, with the SHORT flag where the set is short (R45, R46, R120). The
revision moves once for the event. -/
def Reel.close (x : Nat) (short : Bool) (r : Reel) : Reel :=
  let r1 := if r.state = .winding then r.endAt x else r
  { r1 with state := .doffing, flags := { r1.flags with short := r1.flags.short || short } }.bump

/-- Closes the WINDING and ENDED records of a shaft at x (R45, R46, R120). -/
def State.closeReels (s : State) (sh : Shaft) (x : Nat) (short : Bool) : State :=
  s.mapReels fun r => if r.closes sh then r.close x short else r

/-- The closing-list entries of the records that a cut or a STOP_SHAFT of the shaft closes, by handle (R127). -/
def State.closingEntries (s : State) (sh : Shaft) : List ClosingEntry :=
  allHandles.filterMap fun h =>
    match s.reel h with
    | none => none
    | some r => if r.closes sh then some ⟨h, r.id⟩ else none

/-- A record ended by a lane disable (R30, R44): ENDED, with LANE_CLOSED. -/
def Reel.endByDisable (r : Reel) (p : Nat) : Reel :=
  let r1 := r.endAt p
  { r1 with state := .ended, flags := { r1.flags with laneClosed := true } }.bump

/-- The DOFFING records of a spindle become DOFFED (R47). -/
def State.doff (s : State) (sh : Shaft) (sp : Spindle) (assumed : Bool) : State :=
  s.mapReels fun r =>
    if r.shaft = sh ∧ r.spindle = sp ∧ r.state = .doffing then
      { r with state := .doffed, flags := { r.flags with unloadAssumed := r.flags.unloadAssumed || assumed } }.bump
    else r

/-! ## Record accounting -/

/-- The unreserved free count (R55). -/
def State.unreserved (s : State) : Nat :=
  s.table.free - (s.table.reserved.a + s.table.reserved.b)

/-- Replaces the reserved count of a shaft. -/
def State.setReserved (s : State) (sh : Shaft) (n : Nat) : State :=
  s.setTable { s.table with reserved := s.table.reserved.set sh n }

/-! ## Opening a record -/

/-- The id counter stepped on by 1, wrapping to 1 (R39). -/
def stepId (c : Nat) : Nat :=
  if c < maxPosition then c + 1 else 1

/-- The first candidate from `c` on that no record holds (R39); at most 95 records hold an id when one is sought. -/
def freeId (held : List Nat) : Nat → Nat → Nat
  | 0, c => c
  | k + 1, c => if held.contains c then freeId held k (stepId c) else c

/-- The reel ids of the records that are not FREE. -/
def State.heldIds (s : State) : List Nat :=
  allHandles.filterMap fun h => (s.reel h).map Reel.id

/-- The greatest end position among the records of a lane and shaft that do not carry PREVIOUS_RUN, or 0 (R42). -/
def State.latestEnd (s : State) (n : Lane) (sh : Shaft) : Nat :=
  allHandles.foldl (fun m h =>
    match s.reel h with
    | none => m
    | some r => if r.lane = n ∧ r.shaft = sh ∧ r.flags.previousRun = false then max m (r.stopAt.getD 0) else m) 0

/-- The pool an opening is charged to (R40). -/
inductive Pool where
  | unreserved
  | reservation
deriving DecidableEq, Repr

/-- No flag set. -/
def ReelFlags.none : ReelFlags :=
  ⟨false, false, false, false, false, false, false, false, false, false, false, false, false, false⟩

/-- The shaft's current step (R101). -/
def ShaftRec.currentStep (r : ShaftRec) : Option PlanStep :=
  if r.step = 0 then none else r.plan[r.step - 1]?

/-- The pool can meet an opening (R40). -/
def State.poolMeets (s : State) (sh : Shaft) : Pool → Bool
  | .unreserved => decide (s.table.reserved.a + s.table.reserved.b < s.table.free)
  | .reservation => decide (1 ≤ s.table.reserved.get sh)

/-- A newly opened record (R41, R42). -/
def State.newReel (s : State) (n : Lane) (sh : Shaft) (sp : Spindle) (x : Nat) (flags : ReelFlags) (st : PlanStep) :
    Reel :=
  { id := freeId s.heldIds 96 s.settings.reelIdCounter
    state := .winding
    lane := n
    shaft := sh
    spindle := sp
    start := max x (s.latestEnd n sh)
    stopAt := Option.none
    rho := s.settings.rho.get sh
    thickness := s.settings.thickness
    packing := s.settings.packing
    core := st.core
    limit := st.limit
    table := st.table
    step := (s.shaft sh).step
    ordinal := (s.shaft sh).counter
    footage := 0
    diameter := st.core
    parents := [⟨s.travel.current.get sh, 0⟩]
    tallies := ⟨0, 0, 0, 0, 0, 0, 0⟩
    computed := .a
    override := Option.none
    chain := []
    dropped := 0
    revision := 0
    flags := flags }

/-- Opens the FREE record with the lowest handle, charged to a pool, and moves the id counter on (R39, R40, R55).
An opening that is not met opens nothing (notes/assumptions/25.md). -/
def State.openRecord (s : State) (n : Lane) (sh : Shaft) (sp : Spindle) (x : Nat) (pool : Pool) (flags : ReelFlags) :
    Option (Handle × State) :=
  match s.poolMeets sh pool, (s.shaft sh).currentStep, allHandles.find? (fun h => (s.reel h).isNone) with
  | true, some st, some h =>
    let r := s.newReel n sh sp x flags st
    let s1 := s.setReel h (some r)
    let s2 := s1.setTable { s1.table with
      free := s1.table.free - 1
      reserved := match pool with
        | .unreserved => s1.table.reserved
        | .reservation => s1.table.reserved.set sh (s1.table.reserved.get sh - 1) }
    some (h, s2.setSettings { s2.settings with reelIdCounter := stepId r.id })
  | _, _, _ => none

/-! ## Spindle states -/

/-- The number of records on a spindle (R38). -/
def State.recordsOn (s : State) (sh : Shaft) (sp : Spindle) : Nat :=
  s.countReels fun r => decide (r.shaft = sh) && decide (r.spindle = sp) && r.onSpindle

/-- The state of a spindle that follows from the records on it (R102). -/
def State.spindleStateOf (s : State) (sh : Shaft) (sp : Spindle) : SpindleState :=
  if s.recordsOn sh sp = 0 then .empty
  else if (s.shaft sh).phase ≠ .idle ∧ (s.shaft sh).active = sp then .active
  else .full

/-- The shaft controller takes the counts that the reel table reports (R38, R102). -/
def State.refreshSpindles (s : State) (sh : Shaft) : State :=
  s.setShaft sh { s.shaft sh with
    spindle1 := s.spindleStateOf sh .one
    spindle2 := s.spindleStateOf sh .two }

/-- An opening for a lane: its current reel becomes the new record, or it becomes UNTRACKED where the opening is not
met (R33, R35, R122). -/
def State.openForLane (s : State) (n : Lane) (sh : Shaft) (sp : Spindle) (x : Nat) (pool : Pool) (flags : ReelFlags) :
    State :=
  match s.openRecord n sh sp x pool flags with
  | some (h, s1) =>
    (s1.setLane n { s1.lane n with current := some h, untracked := false }).refreshSpindles sh
  | none => s.setLane n { s.lane n with current := none, untracked := true }

end Sys2Proof.Machine
end

