-- ==== Sys2Proof/Machine/Watches.lean ====
section
/-! DEFINITION. The threshold service: arming, disarming and reporting the twelve watches (R12 to R15). -/

namespace Sys2Proof.Machine

/-- The watch of one kind. -/
def ThresholdWatches.get (w : ThresholdWatches) : Threshold → Option Nat
  | .approach => w.approach
  | .window => w.window
  | .due => w.due
  | .overrun => w.overrun

/-- The four watches with one of them replaced. -/
def ThresholdWatches.set (w : ThresholdWatches) : Threshold → Option Nat → ThresholdWatches
  | .approach, x => { w with approach := x }
  | .window, x => { w with window := x }
  | .due, x => { w with due := x }
  | .overrun, x => { w with overrun := x }

/-- Where a watch is armed, if it is. -/
def WatchTable.get (t : WatchTable) : Watch → Option Nat
  | .knife => t.knife
  | .nip sh => t.nip.get sh
  | .threshold sh k => (t.threshold.get sh).get k
  | .sweep => t.sweep

/-- The table with one watch armed or disarmed. -/
def WatchTable.set (t : WatchTable) : Watch → Option Nat → WatchTable
  | .knife, x => { t with knife := x }
  | .nip sh, x => { t with nip := t.nip.set sh x }
  | .threshold sh k, x => { t with threshold := t.threshold.set sh ((t.threshold.get sh).set k x) }
  | .sweep, x => { t with sweep := x }

/-- The twelve watches in the order of R12's table. -/
def allWatches : List Watch :=
  [.knife, .nip .a, .nip .b,
   .threshold .a .approach, .threshold .a .window, .threshold .a .due, .threshold .a .overrun,
   .threshold .b .approach, .threshold .b .window, .threshold .b .due, .threshold .b .overrun,
   .sweep]

/-- Where a watch is armed in the state. -/
def State.watch (s : State) (w : Watch) : Option Nat :=
  s.position.watches.get w

/-- Sets or clears a watch without looking at P. -/
def State.setWatch (s : State) (w : Watch) (x : Option Nat) : State :=
  s.setPosition { s.position with watches := s.position.watches.set w x }

/-- Hands an arrival to the owner of a watch (R14). -/
def State.report (s : State) (w : Watch) (x : Nat) : State :=
  s.setPosition { s.position with arrivals := s.position.arrivals ++ [⟨w, x, s.position.p⟩] }

/-- An owner's request to disarm a watch (R13). -/
def State.disarm (s : State) (w : Watch) : State :=
  s.setWatch w none

/-- An owner's request to arm a watch at X: armed where X lies beyond P, and otherwise left disarmed and reported at
once (R13). -/
def State.arm (s : State) (w : Watch) (x : Nat) : State :=
  if s.position.p < x then s.setWatch w (some x) else (s.setWatch w none).report w x

/-- One watch at the end of a count that has raised P: reported and disarmed if it is armed at most P (R14). -/
def State.reportReached (s : State) (w : Watch) : State :=
  match s.watch w with
  | none => s
  | some x => if x ≤ s.position.p then (s.setWatch w none).report w x else s

/-- All watches at the end of a count that has raised P (R14). -/
def State.reportAll (s : State) : State :=
  allWatches.foldl State.reportReached s

/-- The oldest arrival of a watch that its owner has not taken, and the state with it taken (DESIGN CHOICE,
notes/assumptions/6.md). -/
def State.takeArrival (s : State) (w : Watch) : Option (Arrival × State) :=
  match s.position.arrivals.find? (fun a => decide (a.watch = w)) with
  | none => none
  | some a =>
    some (a, s.setPosition { s.position with
      arrivals := s.position.arrivals.eraseP (fun a => decide (a.watch = w)) })

end Sys2Proof.Machine
end

