-- ==== Sys2Proof/Machine/Shafts.lean ====
section
/-! DEFINITION. The shaft controllers: phases, thresholds, change-due events, entering CHANGE_PENDING and the automatic
retry (Chapter 6). -/

namespace Sys2Proof.Machine

/-! ## Phase and CUTREQ -/

/-- A change of phase; CUTREQ is high in CHANGE_PENDING and low in every other phase (R103). -/
def ShaftRec.toPhase (r : ShaftRec) (ph : Phase) : ShaftRec :=
  { r with phase := ph, cutReq := decide (ph = .changePending) }

/-- The automatic retry is cleared, and the retry events not yet taken with it (R115). -/
def ShaftRec.clearRetry (r : ShaftRec) : ShaftRec :=
  { r with retry := false, retriesDue := 0 }

/-! ## Thresholds -/

/-- The threshold of one kind. -/
def ThresholdSet.get (t : ThresholdSet) : Threshold → ThresholdMark
  | .approach => t.approach
  | .window => t.window
  | .due => t.due
  | .overrun => t.overrun

/-- The thresholds with one of them replaced. -/
def ThresholdSet.set (t : ThresholdSet) : Threshold → ThresholdMark → ThresholdSet
  | .approach, x => { t with approach := x }
  | .window, x => { t with window := x }
  | .due, x => { t with due := x }
  | .overrun, x => { t with overrun := x }

/-- The four kinds in the order in which R109 and R119 fire them. -/
def allThresholds : List Threshold := [.approach, .window, .due, .overrun]

/-- The kinds that stand before one in that order (R109). -/
def earlierThresholds : Threshold → List Threshold
  | .approach => []
  | .window => [.approach]
  | .due => [.approach, .window]
  | .overrun => [.approach, .window, .due]

/-- The four positions of a set opened at S, unfired (R108). -/
def thresholdsOf (start target rho : Nat) (job : ShaftJob) : ThresholdSet :=
  { approach := ⟨clampPosition (start + ceilDiv (target * job.approach / 1000 * 1000000) rho), false⟩
    window := ⟨clampPosition (start + ceilDiv (target * job.window / 1000 * 1000000) rho), false⟩
    due := ⟨clampPosition (start + ceilDiv (target * 1000000) rho), false⟩
    overrun := ⟨clampPosition (start + ceilDiv ((target + job.overrun) * 1000000) rho), false⟩ }

/-- The thresholds of a set opened at S are computed from the current step and the watches armed (R108). -/
def State.openThresholds (s : State) (sh : Shaft) (start : Nat) : State :=
  match (s.shaft sh).currentStep with
  | none => s
  | some st =>
    let t := thresholdsOf start st.target (s.settings.rho.get sh) (s.settings.job.get sh)
    let s1 := s.setShaft sh { s.shaft sh with thresholds := some t }
    allThresholds.foldl (fun u k => u.arm (.threshold sh k) (t.get k).position) s1

/-- The window threshold of the set has fired (R110). -/
def ShaftRec.windowOpen (r : ShaftRec) : Bool :=
  match r.thresholds with
  | none => false
  | some t => t.window.fired

/-! ## Entering CHANGE_PENDING -/

/-- The reel table's reservation of n records for a shaft, if the unreserved free count is at least n (R55). -/
def State.reserve (s : State) (sh : Shaft) (n : Nat) : Option State :=
  if n ≤ s.unreserved then some (s.setReserved sh (s.table.reserved.get sh + n)) else none

/-- The shaft record on entering CHANGE_PENDING; `unasked` is a forced CHANGE or an automatic attempt (R114). -/
def ShaftRec.pend (r : ShaftRec) (unasked : Bool) : ShaftRec :=
  { (r.toPhase .changePending).clearRetry with
    short := !r.windowOpen && !r.firstFree && unasked
    records := false }

/-- Entering CHANGE_PENDING, or nothing where the reservation fails (R114). -/
def State.enterPending (s : State) (sh : Shaft) (unasked : Bool) : Option State :=
  match s.reserve sh (s.enabledLanes sh).length with
  | none => none
  | some s1 => some (s1.setShaft sh ((s1.shaft sh).pend unasked))

/-- An automatic attempt: tested on the other spindle and on the reservation; a failed one makes the retry wait, and
presents RECORDS where the reservation failed (R115). -/
def State.attempt (s : State) (sh : Shaft) : State :=
  let r := s.shaft sh
  if r.spindle r.active.other ≠ .empty then s.setShaft sh { r with retry := true }
  else match s.enterPending sh true with
    | some s1 => s1
    | none => s.setShaft sh { r with retry := true, records := true }

/-- A retry of a waiting automatic attempt: made while the phase is WINDING, the reason stands and auto-change is on,
and otherwise the retry is cleared (R115). -/
def State.retryAttempt (s : State) (sh : Shaft) : State :=
  let r := s.shaft sh
  if !r.retry then s
  else if r.phase = .winding ∧ r.reason ≠ .none ∧ (s.settings.job.get sh).auto then s.attempt sh
  else s.setShaft sh r.clearRetry

/-- A report that lets a waiting retry be made; the retry is an event of its own (R115; DEDUCED,
notes/assumptions/9.md). -/
def ShaftRec.retryRaised (r : ShaftRec) : ShaftRec :=
  if r.retry then { r with retriesDue := r.retriesDue + 1 } else r

/-- An increase of the free count is reported to both shaft controllers (R55). -/
def State.reportFreed (s : State) : State :=
  s.setShafts ⟨s.shafts.a.retryRaised, s.shafts.b.retryRaised⟩

/-- A shaft's reservation is released; a release that lowers the count is reported to the other shaft controller
(R55). -/
def State.releaseReserved (s : State) (sh : Shaft) : State :=
  let s1 := s.setReserved sh 0
  if s.table.reserved.get sh = 0 then s1
  else s1.setShaft (other sh) ((s1.shaft (other sh)).retryRaised)

/-! ## Change-due events and thresholds that fire -/

/-- The change-due reason after an event (R111). -/
def DueReason.after (event old : DueReason) : DueReason :=
  match event with
  | .length => .length
  | .diameter => if old = .none then .diameter else old
  | .none => old

/-- A change-due event of a shaft; the cut that catches up the due threshold makes no automatic attempt (R111, R119). -/
def State.changeDue (s : State) (sh : Shaft) (event : DueReason) (attempts : Bool) : State :=
  let old := (s.shaft sh).reason
  let s1 := (s.setShaft sh { s.shaft sh with reason := event.after old }).raiseIf
    (decide (event.after old ≠ old)) (.changeDue sh)
  if attempts && decide ((s1.shaft sh).phase = .winding) && (s1.settings.job.get sh).auto then s1.attempt sh else s1

/-- OVERRUN set on the WINDING records of a shaft. At an arrival this moves the revision where the flag was clear; a
cut moves it once for the whole cut, when it closes the records (R48, R112, R119). -/
def State.flagOverrun (s : State) (sh : Shaft) (inCut : Bool) : State :=
  s.mapReels fun r =>
    if r.shaft = sh ∧ r.state = .winding then
      if inCut then { r with flags := { r.flags with overrun := true } }
      else r.withFlags { r.flags with overrun := true }
    else r

/-- A threshold marked fired. -/
def ShaftRec.markFired (r : ShaftRec) (k : Threshold) : ShaftRec :=
  { r with thresholds := r.thresholds.map fun t => t.set k { t.get k with fired := true } }

/-- A threshold fires: it is marked fired and acted on (R110, R111, R112). -/
def State.fire (sh : Shaft) (inCut : Bool) (s : State) (k : Threshold) : State :=
  let s1 := s.setShaft sh ((s.shaft sh).markFired k)
  match k with
  | .approach => s1.raise (.approach sh)
  | .window => s1
  | .due => s1.changeDue sh .length (!inCut)
  | .overrun => (s1.flagOverrun sh inCut).raise (.overrun sh)

/-- Those of the listed thresholds that are unfired and stand at most at x fire, in order (R109, R119). -/
def State.fireUpTo (s : State) (sh : Shaft) (x : Nat) (inCut : Bool) (ks : List Threshold) : State :=
  ks.foldl (fun u k =>
    match (u.shaft sh).thresholds with
    | none => u
    | some t => if !(t.get k).fired && decide ((t.get k).position ≤ x) then u.fire sh inCut k else u) s

/-- An arrival of a threshold watch still stands (R109): the shaft is not IDLE, the threshold of the kind is unfired and
at the position carried, and no cut is stamped below that position. -/
def State.arrivalStands (s : State) (sh : Shaft) (k : Threshold) (x : Nat) : Bool :=
  match (s.shaft sh).thresholds with
  | none => false
  | some t =>
    decide ((s.shaft sh).phase ≠ .idle) && !(t.get k).fired && decide ((t.get k).position = x)
      && !((s.position.latch.get sh).any fun c => decide (c < x))

/-- An arrival of a threshold watch taken by the shaft controller (R109). -/
def State.takeThreshold (s : State) (sh : Shaft) (k : Threshold) (x : Nat) : State :=
  if s.arrivalStands sh k x then (s.fireUpTo sh x false (earlierThresholds k)).fire sh false k else s

end Sys2Proof.Machine
end

