-- ==== Sys2Proof/Machine/Answers.lean ====
section
/-! DEFINITION. The answer payloads of R184 and R186, field by field, and the answer frame of R183. -/

namespace Sys2Proof.Machine

/-! ## Code values (R182) -/

/-- The value of an answer code (R183). -/
def AnswerCode.toByte : AnswerCode → Byte
  | .ok => 0x00
  | .none => 0x01
  | .working => 0x02
  | .busy => 0x03
  | .loading => 0x04
  | .badFrame => 0x05
  | .range => 0x06
  | .state => 0x07
  | .lineMoving => 0x08
  | .laneActive => 0x09
  | .overlap => 0x0A
  | .early => 0x0B
  | .noRecords => 0x0C
  | .notUnloaded => 0x0D
  | .unknownReel => 0x0E
  | .changed => 0x0F
  | .tooLate => 0x10

/-- Shaft. -/
def shaftByte (sh : Shaft) : Byte := byteOf (shaftCode sh)

/-- Spindle 1 or 2. -/
def spindleByte : Spindle → Byte
  | .one => 1
  | .two => 2

/-- Spindle state. -/
def spindleStateByte : SpindleState → Byte
  | .empty => 0
  | .active => 1
  | .full => 2

/-- Shaft phase. -/
def phaseByte : Phase → Byte
  | .idle => 0
  | .winding => 1
  | .changePending => 2
  | .runout => 3

/-- Reel state. -/
def reelStateByte : ReelState → Byte
  | .winding => 1
  | .ended => 2
  | .doffing => 3
  | .doffed => 4

/-- Grade; absent is 0. -/
def gradeByte : Option Grade → Byte
  | none => 0
  | some .a => 1
  | some .b => 2
  | some .reject => 3

/-- Change-due reason. -/
def reasonByte : DueReason → Byte
  | .none => 0
  | .length => 1
  | .diameter => 2

/-- Hold level. -/
def levelByte : Level → Byte
  | .none => 0
  | .slow => 1
  | .stop => 2

/-- Direction. -/
def directionByte : Direction → Byte
  | .forward => 0
  | .reverse => 1

/-- Line state. -/
def lineByte : LineState → Byte
  | .stopped => 0
  | .running => 1

/-- Last reset kind. -/
def resetKindByte : ResetKind → Byte
  | .powerOn => 0
  | .warm => 1
  | .preserved => 2

/-- Last save result (R186). -/
def saveResultCode : SaveResult → Nat
  | .none => 0
  | .done => 1
  | .failed => 2

/-- Mark kind. -/
def findingKind : Finding → Byte
  | .defect _ => 1
  | .register _ => 2
  | .splice _ => 3
  | .flag => 4

/-- Origin, which goes with the kind (R63). -/
def findingOrigin : Finding → Byte
  | .defect _ => 1
  | .register _ => 1
  | .splice _ => 2
  | .flag => 3

/-- Class of a DEFECT, and 0 for every other kind. -/
def findingClass : Finding → Byte
  | .defect c => byteOf (c.val + 1)
  | _ => 0

/-- Register error of a REGISTER, and 0 for every other kind. -/
def findingError : Finding → Word16
  | .register e => e
  | _ => 0

/-- Parent id of a SPLICE, and 0 for every other kind. -/
def findingParent : Finding → Nat
  | .splice p => p
  | _ => 0

/-- Reel flags in the bit order of R182. -/
def ReelFlags.bits (f : ReelFlags) : Nat :=
  bitSet [f.limited, f.reversed, f.short, f.overrun, f.extra, f.unplanned, f.lateStart, f.laneClosed, f.marksDropped,
    f.parentListFull, f.unloadAssumed, f.lateMarks, f.diaLimit, f.previousRun]

/-- Hold cause set in the bit order of R182. -/
def Causes.bits (c : Causes) : Nat :=
  bitSet [c.travelLow, c.travelEmpty, c.marksLow, c.untracked, c.notUnloaded.a, c.notUnloaded.b, c.records.a,
    c.records.b, c.overrun.a, c.overrun.b, c.planEnd.a, c.planEnd.b, c.positionLimit]

/-- Alert set in the bit order of R182. -/
def DigestUnit.setBits (d : DigestUnit) : Nat :=
  bitSet (d.alerts.toList.map fun c => c.isSet)

/-- Alert mask in the bit order of R182. -/
def DigestUnit.maskBits (d : DigestUnit) : Nat :=
  bitSet (d.alerts.toList.map fun c => c.masked)

/-- A handle, 0xFF when absent (R184). -/
def handleByte : Option Handle → Byte
  | none => 0xFF
  | some h => byteOf h.val

/-! ## The digest (R166, R184) -/

/-- The digest bytes of one shaft: 13 bytes. -/
def State.digestShaft (s : State) (sh : Shaft) : List Byte :=
  let r := s.shaft sh
  [phaseByte r.phase, spindleStateByte r.spindle1, spindleStateByte r.spindle2, byteOf r.step] ++ bytes16 r.counter
    ++ [reasonByte r.reason] ++ beBytes 2 r.tension
    ++ [byteOf (s.reelsIn sh .winding), byteOf (s.reelsIn sh .ended), byteOf (s.reelsIn sh .doffing),
      byteOf (s.reelsIn sh .doffed)]

/-- Digest bytes 0 to 49: tags, alert set and mask, raise tags. -/
def State.digestAlerts (s : State) : List Byte :=
  bytes16 s.digest.changeTag ++ bytes16 s.digest.ackedTag ++ beBytes 3 s.digest.setBits ++ beBytes 3 s.digest.maskBits
    ++ s.digest.alerts.toList.flatMap fun c => bytes16 c.tag

/-- Digest bytes 50 to 67: position and parents. -/
def State.digestPosition (s : State) : List Byte :=
  beBytes 4 s.position.p ++ [directionByte s.position.direction, lineByte s.position.line]
    ++ beBytes 4 (s.travel.staged.getD 0) ++ beBytes 4 s.travel.current.a ++ beBytes 4 s.travel.current.b

/-- Digest bytes 94 to 112: pools, holds and trim. -/
def State.digestHolds (s : State) : List Byte :=
  beBytes 2 s.travel.free ++ beBytes 2 s.freeMarks
    ++ [byteOf s.table.free, byteOf s.table.reserved.a, byteOf s.table.reserved.b, levelByte s.hold.level]
    ++ beBytes 2 s.hold.causes.bits ++ [boolByte s.hold.override.isSome] ++ beBytes 2 s.hold.slowEntries
    ++ beBytes 2 s.hold.stopEntries ++ beBytes 2 s.hold.renewals ++ beBytes 2 s.map.trim

/-- Digest bytes 113 to 126: refusals, faults and the last reset kind. -/
def State.digestFaults (s : State) : List Byte :=
  beBytes 2 s.link.badFrame ++ beBytes 2 s.link.range ++ beBytes 2 s.link.travelFull ++ beBytes 2 s.link.loading
    ++ beBytes 2 s.travel.spliceRefusals ++ beBytes 2 s.travel.tooLate
    ++ [byteOf (bitSet [s.position.fault, s.store.defaulted]), resetKindByte s.store.lastReset]

/-- The digest: 127 bytes (R184). -/
def State.digestBytes (s : State) : List Byte :=
  s.digestAlerts ++ s.digestPosition ++ s.digestShaft .a ++ s.digestShaft .b ++ s.digestHolds ++ s.digestFaults

/-! ## Reels (R60, R61, R54, R52) -/

/-- Parent entries in use and four entries, unused 0. -/
def Reel.parentBytes (r : Reel) : List Byte :=
  [byteOf r.parents.length]
    ++ padTo 32 ((r.parents.take 4).flatMap fun e => beBytes 4 e.parent ++ beBytes 4 e.footage)

/-- The seven tallies. -/
def Tallies.toBytes (t : Tallies) : List Byte :=
  beBytes 2 t.defect1 ++ beBytes 2 t.defect2 ++ beBytes 2 t.defect3 ++ beBytes 2 t.defect4 ++ beBytes 2 t.register
    ++ beBytes 2 t.splice ++ beBytes 2 t.flag

/-- The reel header: 101 bytes (R60, R184). `footage` is the live or the fixed footage. -/
def Reel.header (r : Reel) (h : Handle) (footage : Nat) : List Byte :=
  [byteOf h.val] ++ beBytes 4 r.id
    ++ [reelStateByte r.state, byteOf (laneNumber r.lane), shaftByte r.shaft, spindleByte r.spindle,
      byteOf (bitSet [r.stopAt.isSome, r.override.isSome])]
    ++ beBytes 4 r.start ++ beBytes 4 (r.stopAt.getD 0) ++ beBytes 4 footage ++ beBytes 4 r.diameter
    ++ beBytes 4 r.rho ++ beBytes 1 r.thickness ++ beBytes 2 r.packing ++ beBytes 4 r.core ++ beBytes 4 r.limit
    ++ [byteOf r.table.val, byteOf r.step] ++ bytes16 r.ordinal ++ r.parentBytes ++ r.tallies.toBytes
    ++ [gradeByte (some r.computed), gradeByte r.override, byteOf r.chain.length] ++ beBytes 2 r.dropped
    ++ beBytes 2 r.flags.bits ++ bytes16 r.revision

/-- A mark record: 22 bytes, its reel footage computed at reading (R61, R184). -/
def Mark.toBytes (m : Mark) (r : Reel) : List Byte :=
  [findingKind m.finding, findingClass m.finding, findingOrigin m.finding, boolByte m.late] ++ beBytes 4 m.arrival
    ++ beBytes 2 m.offset ++ beBytes 2 m.width ++ bytes16 (findingError m.finding)
    ++ beBytes 4 (findingParent m.finding) ++ beBytes 4 (footageAt r.start r.rho m.arrival)

/-- The marks of a page: chain positions 8 × page to 8 × page + 7 (R61). -/
def Reel.pageMarks (r : Reel) (page : Nat) : List Mark :=
  (r.chain.drop (8 * page)).take 8

/-- The mark page: 185 bytes (R61, R184). -/
def Reel.markPage (r : Reel) (page : Nat) : List Byte :=
  beBytes 4 r.id ++ bytes16 r.revision ++ [byteOf r.chain.length, byteOf page, byteOf (r.pageMarks page).length]
    ++ padTo 176 ((r.pageMarks page).flatMap fun m => m.toBytes r)

/-- The FIND_REEL answer: 10 bytes (R52, R184). -/
def Reel.found (r : Reel) (h : Handle) (x : Nat) : List Byte :=
  beBytes 4 r.id ++ [byteOf h.val, reelStateByte r.state] ++ beBytes 4 (footageAt r.start r.rho x)

/-- The handles LIST_REELS matches, from a starting handle up (R54). -/
def State.matching (s : State) (selection : Option ReelState) (first : Handle) : List Handle :=
  allHandles.filter fun h =>
    decide (first ≤ h) && (s.reel h).any fun r => selection.all fun st => decide (r.state = st)

/-- One entry of the LIST_REELS answer. -/
def State.listEntry (s : State) (h : Handle) : List Byte :=
  match s.reel h with
  | none => []
  | some r =>
    [byteOf h.val] ++ beBytes 4 r.id
      ++ [reelStateByte r.state, byteOf (laneNumber r.lane), shaftByte r.shaft, boolByte r.flags.previousRun]

/-- The continuation handle: the one after the last listed, where the walk stopped at the twelfth match (R54). -/
def continuation (listed : List Handle) : Byte :=
  match listed.getLast? with
  | some h => if listed.length = 12 ∧ h.val + 1 < 96 then byteOf (h.val + 1) else 0xFF
  | none => 0xFF

/-- The LIST_REELS answer: 110 bytes (R54, R184). -/
def State.reelList (s : State) (selection : Option ReelState) (first : Handle) : List Byte :=
  let listed := (s.matching selection first).take 12
  [byteOf listed.length, continuation listed] ++ padTo 108 (listed.flatMap s.listEntry)

/-! ## Lanes (R19) -/

/-- The QUERY_LANE answer: 12 bytes (R19, R184). -/
def State.laneBytes (s : State) (n : Lane) : List Byte :=
  let l := s.lane n
  [byteOf (laneNumber n), boolByte l.enabled] ++ beBytes 2 l.edge ++ beBytes 2 l.width
    ++ [shaftByte l.shaft, boolByte l.reference, handleByte l.current] ++ beBytes 2 l.tally ++ [boolByte l.untracked]

/-- One entry of the map summary. -/
def State.summaryEntry (s : State) (n : Lane) : List Byte :=
  let l := s.lane n
  [byteOf (laneNumber n), byteOf (bitSet [l.enabled, l.reference, l.untracked])] ++ beBytes 2 l.edge
    ++ beBytes 2 l.width ++ [shaftByte l.shaft]

/-- The map summary: 172 bytes (R19, R184). -/
def State.mapBytes (s : State) : List Byte :=
  beBytes 2 s.settings.webWidth ++ beBytes 2 s.map.trim ++ s.map.order.flatMap s.summaryEntry

/-! ## Shafts (R125) -/

/-- A step record of the shaft answer: 23 bytes. -/
def PlanStep.toBytes (st : PlanStep) : List Byte :=
  bytes16 st.count ++ beBytes 4 st.target ++ beBytes 4 st.core ++ beBytes 4 st.limit ++ [byteOf st.table.val]
    ++ beBytes 2 st.baseTension ++ beBytes 2 st.taper ++ beBytes 4 st.span

/-- Threshold positions and fired marks: 17 bytes; a position is 0 while no threshold is computed (R125). -/
def thresholdBytes : Option ThresholdSet → List Byte
  | none => List.replicate 17 0
  | some t =>
    beBytes 4 t.approach.position ++ beBytes 4 t.window.position ++ beBytes 4 t.due.position
      ++ beBytes 4 t.overrun.position
      ++ [byteOf (bitSet [t.approach.fired, t.window.fired, t.due.fired, t.overrun.fired])]

/-- The shaft answer: 235 bytes (R125, R184). -/
def State.shaftBytes (s : State) (sh : Shaft) : List Byte :=
  let r := s.shaft sh
  let j := s.settings.job.get sh
  let latch := s.position.latch.get sh
  [phaseByte r.phase, spindleByte r.active, spindleStateByte r.spindle1, spindleStateByte r.spindle2,
      byteOf r.plan.length]
    ++ padTo 184 (r.plan.flatMap PlanStep.toBytes) ++ [byteOf r.step] ++ bytes16 r.counter
    ++ [byteOf (bitSet [r.firstFree, r.short, r.retry, latch.isSome])] ++ thresholdBytes r.thresholds
    ++ [reasonByte r.reason] ++ beBytes 2 j.approach ++ beBytes 2 j.window ++ beBytes 4 j.overrun ++ [boolByte j.auto]
    ++ [byteOf (s.table.reserved.get sh)] ++ beBytes 4 (latch.getD 0) ++ beBytes 2 (s.position.bounces.get sh)
    ++ beBytes 2 r.ignoredCuts ++ beBytes 2 r.tension
    ++ [byteOf (s.reelsIn sh .winding), byteOf (s.reelsIn sh .ended), byteOf (s.reelsIn sh .doffing),
      byteOf (s.reelsIn sh .doffed)]

/-! ## Operator marks, alerts and settings -/

/-- The ADD_MARK answer: 97 bytes (R98, R184). -/
def markAnswer (ids : List Nat) : List Byte :=
  [byteOf ids.length] ++ padTo 96 (ids.flatMap (beBytes 4))

/-- The status byte of READ_SETTINGS (R186). -/
def State.settingsStatus (s : State) : Byte :=
  byteOf ((if s.store.save.isSome then 1 else 0) + 2 * saveResultCode s.store.lastSave
    + (if s.store.defaulted then 8 else 0) + (if s.store.preserve then 16 else 0))

/-- The READ_SETTINGS answer: the settings body and the status byte (R179, R186). -/
def State.settingsBytes (s : State) : List Byte :=
  s.settings.toBody ++ [s.settingsStatus]

/-! ## The answer frame (R183) -/

/-- The flags byte of an answer frame: ANSWER_LOST and the notice flag (R183). -/
def answerFlags (lost notice : Bool) : Byte :=
  byteOf (bitSet [lost, notice])

/-- An answer frame, its CRC-16 over every byte from the length byte to the end of the payload (R183). -/
def answerFrame (code : AnswerCode) (flags request : Byte) (payload : List Byte) : List Byte :=
  let bytes := [byteOf payload.length, code.toByte, flags, request] ++ payload
  bytes ++ bytes16 (crc16 bytes)

end Sys2Proof.Machine
end

