-- ==== Sys2Proof/Machine/KnifeMap.lean ====
section
/-! DEFINITION. The knife map: resolving a cross-web interval, trim, the map order and the checks of a lane edit
(Chapter 2). -/

namespace Sys2Proof.Machine

/-- The lane's range covers a cross-web position (R18). -/
def LaneRec.contains (l : LaneRec) (q : Nat) : Bool :=
  decide (l.edge ≤ q) && decide (q < l.edge + l.width)

/-- Two ranges [a, a + v) and [b, b + w) have a position in common. -/
def rangesMeet (a v b w : Nat) : Bool :=
  decide (max a b < min (a + v) (b + w))

/-- The upper end of the cut interval (R21): w taken as 1 where it is 0, and the interval cut at the web width. -/
def cutEnd (web x w : Nat) : Nat :=
  min (x + if w = 0 then 1 else w) web

/-- The part of an enabled lane of the shaft that [lo, hi) covers (R21). -/
def LaneRec.hit (l : LaneRec) (n : Lane) (sh : Shaft) (lo hi : Nat) : Option LaneHit :=
  let start := max lo l.edge
  let stop := min hi (l.edge + l.width)
  if l.enabled && decide (l.shaft = sh) && decide (start < stop) then some ⟨n, start - l.edge, stop - start⟩ else none

/-- The lane set of a shaft for the cut interval, in ascending lane number (R21). -/
def State.laneSet (s : State) (sh : Shaft) (lo hi : Nat) : List LaneHit :=
  allLanes.filterMap fun n => (s.lane n).hit n sh lo hi

/-- The lane set of a shaft for a splice: all its enabled lanes, without offset or width (R24). -/
def State.spliceLanes (s : State) (sh : Shaft) : List LaneHit :=
  (s.enabledLanes sh).map fun n => ⟨n, 0, 0⟩

/-- No enabled lane covers the position. -/
def State.uncovered (s : State) (q : Nat) : Bool :=
  s.map.lanes.toList.all fun l => !(l.enabled && l.contains q)

/-- The cut interval [lo, hi) is empty, or holds a position that no enabled lane covers (R23). Where it holds one, the
first is `lo` itself or the end of an enabled lane's range, so these are the positions looked at. -/
def State.isTrim (s : State) (lo hi : Nat) : Bool :=
  decide (hi ≤ lo) || s.uncovered lo ||
    s.map.lanes.toList.any fun l =>
      l.enabled && decide (lo ≤ l.edge + l.width) && decide (l.edge + l.width < hi) && s.uncovered (l.edge + l.width)

/-- The trim tally after a resolution of an inspection report (R23). -/
def State.countTrim (s : State) (lo hi : Nat) : State :=
  if s.isTrim lo hi then s.setMap { s.map with trim := satInc s.map.trim } else s

/-- A finding or operator mark that came to a lane and found no reel (R34). -/
def State.countUntracked (s : State) (n : Lane) : State :=
  s.setLane n { s.lane n with tally := satInc (s.lane n).tally }

/-! ## Map order -/

/-- Lane m stands before lane n at an edge: by left edge, then by lane number (R19). -/
def State.standsBefore (s : State) (m : Lane) (edge : Nat) (n : Lane) : Bool :=
  decide ((s.lane m).edge < edge) || (decide ((s.lane m).edge = edge) && decide (m < n))

/-- Lane n put at its place among lanes in map order (R19). -/
def State.placeLane (s : State) (n : Lane) (edge : Nat) : List Lane → List Lane
  | [] => [n]
  | m :: ms => if s.standsBefore m edge n then m :: s.placeLane n edge ms else n :: m :: ms

/-- The map order after a lane gets a new left edge (R19, R27). -/
def State.moveLane (s : State) (n : Lane) (edge : Nat) : List Lane :=
  s.placeLane n edge (s.map.order.filter fun m => decide (m ≠ n))

/-! ## Checks of an edit -/

/-- The range would overlap that of an enabled lane other than n (R27, R31). -/
def State.overlapsOther (s : State) (n : Lane) (edge width : Nat) : Bool :=
  allLanes.any fun m =>
    decide (m ≠ n) && (s.lane m).enabled && rangesMeet edge width (s.lane m).edge (s.lane m).width

/-- Some enabled lane ends beyond a web width (R20). -/
def State.lanesBeyond (s : State) (web : Nat) : Bool :=
  s.map.lanes.toList.any fun l => l.enabled && decide (web < l.edge + l.width)

end Sys2Proof.Machine
end

