-- ==== Sys2Proof/Machine/Marks.lean ====
section
/-! DEFINITION. Landings: tallies, chains, dropped marks, parent lists, grading and the revision (Chapter 4, R50). -/

namespace Sys2Proof.Machine

/-- The most marks a chain holds (R62). -/
abbrev chainLimit : Nat := 64

/-- The most entries a parent list holds (R50). -/
abbrev parentLimit : Nat := 4

/-- The tallies after a landing of a finding (R67). -/
def Tallies.count (t : Tallies) : Finding → Tallies
  | .defect 0 => { t with defect1 := satInc t.defect1 }
  | .defect 1 => { t with defect2 := satInc t.defect2 }
  | .defect 2 => { t with defect3 := satInc t.defect3 }
  | .defect 3 => { t with defect4 := satInc t.defect4 }
  | .register _ => { t with register := satInc t.register }
  | .splice _ => { t with splice := satInc t.splice }
  | .flag => { t with flag := satInc t.flag }

/-- The six grading tallies are at most the maxima of a row (R77). -/
def Tallies.within (t : Tallies) (m : Maxima) : Bool :=
  decide (t.defect1 ≤ m.defect1.toNat) && decide (t.defect2 ≤ m.defect2.toNat) && decide (t.defect3 ≤ m.defect3.toNat)
    && decide (t.defect4 ≤ m.defect4.toNat) && decide (t.register ≤ m.register.toNat)
    && decide (t.splice ≤ m.splice.toNat)

/-- The grade result of R77. -/
def gradeResult (t : Tallies) (g : GradeTable) : Grade :=
  if t.within g.rowA then .a else if t.within g.rowB then .b else .reject

/-- The grade's place in the order A, B, REJECT (R77). -/
def Grade.rank : Grade → Nat
  | .a => 0
  | .b => 1
  | .reject => 2

/-- The worse of two grades (R78). -/
def Grade.worse (g h : Grade) : Grade :=
  if g.rank ≤ h.rank then h else g

/-- A mark inserted after every mark whose arrival position is at most its own (R65). -/
def insertMark (m : Mark) : List Mark → List Mark
  | [] => [m]
  | x :: xs => if x.arrival ≤ m.arrival then x :: insertMark m xs else m :: x :: xs

/-- A parent entry inserted after every entry whose footage is at most its own (R50). -/
def insertParent (e : ParentEntry) : List ParentEntry → List ParentEntry
  | [] => [e]
  | x :: xs => if x.footage ≤ e.footage then x :: insertParent e xs else e :: x :: xs

/-- The parent list and the flags after a splice landing (R50, R72); no other landing touches them. The footage is
computed before the length of the list is looked at. That a clamped footage sets LIMITED is DEDUCED
(notes/assumptions/23.md). -/
def Reel.extendParents (r : Reel) (m : Mark) : Reel :=
  match m.finding with
  | .splice parent =>
    let flags := { r.flags with
      limited := r.flags.limited || decide (maxPosition < rawFootage r.start r.rho m.arrival) }
    if r.parents.length < parentLimit then
      { r with parents := insertParent ⟨parent, footageAt r.start r.rho m.arrival⟩ r.parents, flags := flags }
    else { r with flags := { flags with parentListFull := true } }
  | _ => r

/-- The mark chained, or dropped and counted (R68). -/
def Reel.chainOrDrop (r : Reel) (m : Mark) (chained : Bool) : Reel :=
  if chained then { r with chain := insertMark m r.chain }
  else { r with dropped := satInc r.dropped, flags := { r.flags with marksDropped := true } }

/-- The stored content of a record after a landing, before its revision moves (R66 to R69, R72, R78). -/
def Reel.landed (r : Reel) (m : Mark) (chained : Bool) (g : GradeTable) : Reel :=
  let r1 := ({ r with tallies := r.tallies.count m.finding }.chainOrDrop m chained).extendParents m
  { r1 with
    computed := r.computed.worse (gradeResult r1.tallies g)
    flags := { r1.flags with lateMarks := r1.flags.lateMarks || m.late } }

/-- A landing chains its mark when an entry is free and the chain has room (R68). -/
def State.chains (s : State) (r : Reel) : Bool :=
  decide (1 ≤ s.freeMarks) && decide (r.chain.length < chainLimit)

/-- A landing on the record of a handle (R66). The revision moves once, and LATE_CHANGE is raised on a DOFFED record,
where the landing has changed the stored content (R69, R70); MARKS_DROPPED is raised at every drop (R68). -/
def State.land (s : State) (h : Handle) (m : Mark) : State :=
  match s.reel h with
  | none => s
  | some r =>
    let chained := s.chains r
    let r1 := r.landed m chained s.settings.tables[r.table]
    let s1 := s.setReel h (some (if r1 = r then r else r1.bump))
    let s2 := if chained then s1.setFreeMarks (s1.freeMarks - 1) else s1
    (s2.raiseIf (!chained) .marksDropped).raiseIf (decide (r1 ≠ r) && decide (r.state = .doffed)) .lateChange

end Sys2Proof.Machine
end

