-- ==== Sys2Proof/Machine/Travel.lean ====
section
/-! DEFINITION. The travel list: acceptance, knife passes, release passes and operator marks (Chapter 5). -/

namespace Sys2Proof.Machine

/-! ## Stages and slots -/

/-- An approach entry inserted after every entry whose knife position is at most its own (R80). -/
def insertApproach (e : ApproachEntry) : List ApproachEntry → List ApproachEntry
  | [] => [e]
  | x :: xs => if x.knife ≤ e.knife then x :: insertApproach e xs else e :: x :: xs

/-- A nip entry inserted after every entry whose arrival position is at most its own (R81). -/
def insertNip (e : NipEntry) : List NipEntry → List NipEntry
  | [] => [e]
  | x :: xs => if x.arrival ≤ e.arrival then x :: insertNip e xs else e :: x :: xs

/-- The travel list holds no entry (R99). -/
def TravelList.isEmpty (t : TravelList) : Bool :=
  t.approach.isEmpty && t.nip.a.isEmpty && t.nip.b.isEmpty

/-- The greater of the two knife-to-nip distances (R84). -/
def Settings.maxKw (st : Settings) : Nat :=
  max st.dKw.a st.dKw.b

/-- The shaft's cut latch holds an arrival position: it is occupied with a stamp at most that position (R93). -/
def State.held (s : State) (sh : Shaft) (x : Nat) : Bool :=
  (s.position.latch.get sh).any fun c => decide (c ≤ x)

/-- The knife watch after an event that has changed the approach stage (R82). -/
def State.setKnifeWatch (s : State) : State :=
  match s.travel.approach with
  | [] => s.disarm .knife
  | e :: _ => s.arm .knife e.knife

/-- A shaft's nip watch after an event that has changed its nip stage or its latch (R82). -/
def State.setNipWatch (s : State) (sh : Shaft) : State :=
  match s.travel.nip.get sh with
  | [] => s.disarm (.nip sh)
  | e :: _ => if s.held sh e.arrival then s.disarm (.nip sh) else s.arm (.nip sh) e.arrival

/-! ## Release at the nip -/

/-- The mark that a nip entry places on a lane's reel (R92). -/
def NipEntry.mark (e : NipEntry) (l : LaneHit) : Mark :=
  { finding := e.finding, arrival := e.arrival, offset := l.offset, width := l.width, late := e.late }

/-- A released lane whose search finds no covering reel (R34, R92, R94). -/
def State.missed (s : State) (n : Lane) (late : Bool) : State :=
  let s1 := s.countUntracked n
  if late then s1.setTravel { s1.travel with tooLate := satInc s1.travel.tooLate } else s1

/-- One lane of a nip entry that is released (R92). -/
def State.releaseLane (s : State) (sh : Shaft) (e : NipEntry) (l : LaneHit) : State :=
  match s.coveringReel l.lane sh e.arrival with
  | some h => s.land h (e.mark l)
  | none => s.missed l.lane e.late

/-- The shaft's current parent after the release of an entry (R95). -/
def TravelList.release (t : TravelList) (sh : Shaft) (f : Finding) : TravelList :=
  { t with
    free := t.free + 1
    current := match f with
      | .splice parent => t.current.set sh parent
      | _ => t.current }

/-- A nip entry released as one event, its lanes in ascending order; its slot is returned at the end (R92, R95). -/
def State.releaseEntry (sh : Shaft) (s : State) (e : NipEntry) : State :=
  let s1 := e.lanes.foldl (fun t l => t.releaseLane sh e l) s
  s1.setTravel (s1.travel.release sh e.finding)

/-- An entry of a nip stage that a release pass takes (R91). -/
def State.releases (s : State) (sh : Shaft) (e : NipEntry) : Bool :=
  decide (e.arrival ≤ s.position.p) && !s.held sh e.arrival

/-- A release pass on a shaft (R91). -/
def State.releasePass (s : State) (sh : Shaft) : State :=
  let stage := s.travel.nip.get sh
  let taken := stage.takeWhile (s.releases sh)
  let s1 := s.setTravel { s.travel with nip := s.travel.nip.set sh (stage.dropWhile (s.releases sh)) }
  (taken.foldl (State.releaseEntry sh) s1).setNipWatch sh

/-! ## Knife passage -/

/-- A nip entry put into the stage of a shaft; it keeps one slot of its approach entry (R89, R90). -/
def State.addNip (s : State) (sh : Shaft) (e : NipEntry) : State :=
  s.setTravel { s.travel with
    free := s.travel.free - 1
    nip := s.travel.nip.set sh (insertNip e (s.travel.nip.get sh)) }

/-- The nip entry of an approach entry on a shaft (R89, R90). -/
def State.nipEntry (s : State) (e : ApproachEntry) (sh : Shaft) (f : Finding) (lanes : List LaneHit) : NipEntry :=
  { finding := f
    arrival := e.knife + s.settings.dKw.get sh
    lanes := lanes
    late := decide (e.knife + s.settings.dKw.get sh < e.accepted) }

/-- The nip entry of an inspection finding on a shaft whose lane set is not empty (R89). -/
def State.addReport (s : State) (e : ApproachEntry) (f : Finding) (sh : Shaft) (lanes : List LaneHit) : State :=
  if lanes.isEmpty then s else s.addNip sh (s.nipEntry e sh f lanes)

/-- An approach entry passing the knife (R89, R90). Both its slots are returned and each nip entry takes one again,
so the slots not kept are free at the end. -/
def State.resolveEntry (s : State) (e : ApproachEntry) : State :=
  let s0 := s.setTravel { s.travel with free := s.travel.free + 2 }
  match e.content with
  | .report f x w =>
    let hi := cutEnd s.settings.webWidth x w
    let s1 := s0.countTrim x hi
    (s1.addReport e f .a (s1.laneSet .a x hi)).addReport e f .b (s1.laneSet .b x hi)
  | .splice parent =>
    (s0.addNip .a (s0.nipEntry e .a (.splice parent) (s0.spliceLanes .a))).addNip .b
      (s0.nipEntry e .b (.splice parent) (s0.spliceLanes .b))

/-- The release pass at the end of a knife pass, on a shaft whose stage has gained an entry (R88). -/
def State.passIfGained (before s : State) (sh : Shaft) : State :=
  if (before.travel.nip.get sh).length < (s.travel.nip.get sh).length then s.releasePass sh else s

/-- An approach entry that a knife pass takes: P has reached its knife position (R88). -/
def State.passes (s : State) (e : ApproachEntry) : Bool :=
  decide (e.knife ≤ s.position.p)

/-- A knife pass (R88). A release pass on shaft A leaves the stage of shaft B as it is, and the two passes may be taken in
either order (R91); that shaft A comes first is a DESIGN CHOICE (notes/assumptions/34.md), which shows where both draw
on the last free mark entries (R71) and in the raise tags (R167). -/
def State.knifePass (s : State) : State :=
  let s1 := s.setTravel { s.travel with approach := s.travel.approach.dropWhile s.passes }
  let s2 := (s.travel.approach.takeWhile s.passes).foldl State.resolveEntry s1
  (s.passIfGained (s.passIfGained s2 .a) .b).setKnifeWatch

/-! ## Acceptance -/

/-- An approach entry accepted: two slots taken, the entry inserted, and a knife pass within the event where its knife
position is at most P (R85, R86). -/
def State.acceptEntry (s : State) (e : ApproachEntry) : State :=
  let s1 := s.setTravel { s.travel with
    free := s.travel.free - 2
    approach := insertApproach e s.travel.approach }
  if e.knife ≤ s1.position.p then s1.knifePass else s1.setKnifeWatch

/-- An inspection report as the receiver hands it on (R163). -/
structure Report where
  defect : Bool
  lag : Nat
  x : Nat
  w : Nat
  cls : Nat
  error : Word16
deriving DecidableEq, Repr

/-- The finding of a report, where its class is in range (R83, R85). -/
def Report.finding (r : Report) : Option Finding :=
  if r.defect then
    match r.cls with
    | 1 => some (.defect 0)
    | 2 => some (.defect 1)
    | 3 => some (.defect 2)
    | 4 => some (.defect 3)
    | _ => none
  else some (.register r.error)

/-- The knife position of a report taken at P (R84). -/
def State.reportKnife (s : State) (r : Report) : Nat :=
  (s.position.p - r.lag) + s.settings.dIk

/-- The refusals of an inspection report by the travel list (R83). -/
inductive Rejection where
  | range
  | travelFull
deriving DecidableEq, Repr

/-- The tests of R83 in their order: the finding of the report, or the refusal. -/
def State.testReport (s : State) (r : Report) : Except Rejection Finding :=
  if s.settings.webWidth ≤ r.x then .error .range
  else match r.finding with
    | none => .error .range
    | some f =>
      if maxPosition < s.reportKnife r + s.settings.maxKw then .error .range
      else if s.travel.free < 2 then .error .travelFull
      else .ok f

/-- The approach entry of an accepted report (R85). -/
def State.reportEntry (s : State) (r : Report) (f : Finding) : ApproachEntry :=
  { content := .report f r.x r.w, knife := s.reportKnife r, accepted := s.position.p }

/-- A splice event taken by the travel list at the P the pulse was accepted at (R86). -/
def State.takeSplice (s : State) : State :=
  let k := s.position.p + s.settings.dSk
  if maxPosition < k + s.settings.maxKw then s.raise .positionLimit
  else if s.travel.free < 2 then
    (s.setTravel { s.travel with spliceRefusals := satInc s.travel.spliceRefusals }).raise .reportsRefused
  else
    let s1 := (s.setTravel { s.travel with staged := none }).raiseIf s.travel.staged.isNone .parentUnknown
    s1.acceptEntry { content := .splice (s.travel.staged.getD 0), knife := k, accepted := s.position.p }

/-! ## Operator marks -/

/-- The lanes an operator mark names, with the widths they have when it is taken (R97). -/
def State.namedLanes (s : State) (lanes : BitVec 24) : List LaneHit :=
  (allLanes.filter fun n => lanes.getLsbD n.val).map fun n => ⟨n, 0, (s.lane n).width⟩

/-- One lane of an operator mark: the state, and the reel id it landed on or 0 (R98). -/
def State.flagLane (s : State) (m : HeldMark) (l : LaneHit) : State × Nat :=
  match s.coveringReel l.lane m.shaft m.arrival with
  | some h =>
    (s.land h { finding := .flag, arrival := m.arrival, offset := l.offset, width := l.width, late := false },
      ((s.reel h).map Reel.id).getD 0)
  | none => (s.countUntracked l.lane, 0)

/-- The attribution of an operator mark, lane by lane, with the reel ids of its answer (R98). -/
def State.attribute (s : State) (m : HeldMark) : State × List Nat :=
  m.lanes.foldl (fun acc l => ((acc.1.flagLane m l).1, acc.2 ++ [(acc.1.flagLane m l).2])) (s, [])

end Sys2Proof.Machine
end

