-- ==== Sys2Proof/Machine/Port.lean ====
section
/-! DEFINITION. The line controller port: the answer buffer, requests taken and completed, busy notices and answer
transactions (Chapter 9). -/

namespace Sys2Proof.Machine

/-! ## Transactions -/

/-- What kind of transaction the first byte received after nCS falls makes it (R152). -/
inductive TransactionKind where
  | request
  | answer
  | ignored
deriving DecidableEq, Repr

/-- The kind of a transaction, by the whole bytes received while nCS is low (R152). -/
def transactionKind (bytes : List Byte) : TransactionKind :=
  match bytes.head? with
  | none => .ignored
  | some first => if first = 0xA6 then .request else if first = 0xA7 then .answer else .ignored

/-- The commands that stand for a transaction in which these bytes were received (R152, R153, R157). -/
def transactionCommands (bytes : List Byte) : List Instr :=
  match transactionKind bytes with
  | .request => [.requestTransaction bytes.tail]
  | .answer => [.answerStart, .answerEnd bytes.tail.length]
  | .ignored => [.ignoredTransaction]

/-- The frame that a transaction shifts out behind its first byte; only an answer transaction has one (R152, R157). That
an ignored one has none is a DESIGN CHOICE (notes/assumptions/40.md), and so it is that none is shifted out while no
transaction is in progress, as in one that a reset has abandoned or that is begun in a reset (R159;
notes/assumptions/45.md). -/
def Transaction.frame : Transaction → List Byte
  | .answer _ frame => frame
  | .none => []
  | .request => []
  | .ignored => []

/-- The byte that SDO shifts out at a place of the transaction in progress, the first byte at place 0: 0x00 while the
first byte is received, throughout a request transaction, and behind the CRC of an answer frame (R152, R157). R152 gives
no byte behind the first one of an ignored transaction, and R159 none for an abandoned one; 0x00 there is a DESIGN CHOICE
(notes/assumptions/40.md and 45.md). -/
def Port.shiftedOut (p : Port) : Nat → Byte
  | 0 => 0x00
  | place + 1 => p.transaction.frame.getD place 0x00

/-! ## The buffer -/

/-- The buffer holds an unread answer. -/
def Buffer.isReady : Buffer → Bool
  | .ready _ => true
  | _ => false

/-- The buffer becomes READY with an answer made without a request in work: BAD_FRAME or LOADING (R154, R158). The
ANSWER_LOST flag is set where an unread answer stood. -/
def Port.refuse (p : Port) (code : AnswerCode) (request : Byte) : Port :=
  { p with
    transaction := .none
    buffer := .ready { code := code, request := request, payload := [], lost := p.buffer.isReady } }

/-- A well-formed request is taken: WORKING, the lost marker set where an unread answer is discarded (R154, R155). -/
def Port.take (p : Port) (q : Request) : Port :=
  { p with transaction := .none, buffer := .working, lost := p.buffer.isReady, inWork := some q }

/-- A request transaction that ends in WORKING is discarded with a busy notice (R156). Like every request transaction it
ends an answer transaction still in progress, which consumes nothing (notes/assumptions/18.md). -/
def Port.turnAway (p : Port) (code : Byte) : Port :=
  { p with transaction := .none, notice := some code }

/-- The completion of a request: the buffer becomes READY with its answer (R155). -/
def Port.complete (p : Port) (request : Byte) (code : AnswerCode) (payload : List Byte) : Port :=
  { p with
    buffer := .ready { code := code, request := request, payload := payload, lost := p.lost }
    lost := false
    inWork := none
    held := none }

/-- What an owning block answers: the code and the payload, or nothing while the request stays in work. -/
structure Reply where
  state : State
  answer : Option (AnswerCode × List Byte)

/-- A reply that carries an answer code and no payload. -/
def Reply.code (s : State) (c : AnswerCode) : Reply :=
  { state := s, answer := some (c, []) }

/-- A reply OK with a payload. -/
def Reply.ok (s : State) (payload : List Byte) : Reply :=
  { state := s, answer := some (.ok, payload) }

/-! ## Carrying out a request -/

/-- How the port stands to a command that is a request. -/
inductive Standing where
  /-- The part is in a reset and the port takes no transaction (R159, R180). -/
  | reset
  /-- The settings load is in flight (R158). -/
  | loading
  /-- Another request is in work (R156). -/
  | busy
  /-- This very request is in work: a request transaction has brought it (R155). -/
  | inWork
  /-- The buffer is EMPTY or READY (R154). -/
  | free
deriving DecidableEq, Repr

/-- How the port stands to a request. An ADD_MARK that is held stays in work until its cut is taken, so nothing but that
completes it. -/
def State.standing (s : State) (i : Instr) : Standing :=
  if s.inReset then .reset
  else if s.store.loading then .loading
  else match s.port.buffer with
    | .working =>
      if s.port.held.isNone && decide (s.port.inWork.bind decodeRequest = some i) then .inWork else .busy
    | .empty => .free
    | .ready _ => .free

/-- A request completes with the reply of its owning block, or stays in work (R155). -/
def Reply.finish (r : Reply) (request : Byte) : State :=
  match r.answer with
  | some (code, payload) => r.state.setPort (r.state.port.complete request code payload)
  | none => r.state

/-- A request carried out by its owning block. Where no request transaction has brought it, the command stands for the
whole of it: the frame, its taking or its refusal by the buffer, and its completion (notes/assumptions/3.md). -/
def State.carryOut (s : State) (i : Instr) (act : State → Reply) : State :=
  match encodeRequest i with
  | none => s
  | some q =>
    match s.standing i with
    | .reset => s
    | .loading => s.setPort (s.port.refuse .loading q.code)
    | .busy => s.setPort (s.port.turnAway q.code)
    | .inWork => (act s).finish q.code
    | .free => (act (s.setPort (s.port.take q))).finish q.code

/-! ## Answer transactions -/

/-- The frame an answer transaction composes when 0xA7 has been received, and what it shows (R157). -/
def Port.composed (p : Port) : Shown × List Byte :=
  match p.notice with
  | some code => (.notice, answerFrame .busy (answerFlags false true) code [])
  | none =>
    match p.buffer with
    | .empty => (.empty, answerFrame .none (answerFlags false false) 0 [])
    | .working =>
      (.working, answerFrame .working (answerFlags false false) ((p.inWork.map Request.code).getD 0) [])
    | .ready a => (.answer, answerFrame a.code (answerFlags a.lost false) a.request a.payload)

/-- A transaction in progress once its first byte has been received (R152); an answer transaction composes its frame then
(R157). -/
def Port.start (p : Port) : TransactionKind → Port
  | .request => { p with transaction := .request }
  | .answer => { p with transaction := .answer p.composed.1 p.composed.2 }
  | .ignored => { p with transaction := .ignored }

/-- The port takes the transaction of a kind from its first byte on; in a reset it takes none (R152, R159). -/
def State.startTransaction (s : State) (k : TransactionKind) : State :=
  if s.inReset then s else s.setPort (s.port.start k)

/-- What a frame shifted out whole consumes (R157). -/
def Port.consume (p : Port) : Shown → Port
  | .notice => { p with notice := none }
  | .empty => p
  | .working => p
  | .answer => { p with buffer := .empty }

/-- The end of an answer transaction after `clocked` bytes (R157). -/
def Port.endAnswer (p : Port) (clocked : Nat) : Port :=
  match p.transaction with
  | .answer shown frame =>
    let p1 := if frame.length ≤ clocked then p.consume shown else p
    { p1 with transaction := .none }
  | .none => p
  | .request => p
  | .ignored => p

/-! ## Request transactions -/

/-- The request code a collected frame holds, or 0 where it is too short to hold one (R154, R156). -/
def frameCode (frame : List Byte) : Byte :=
  frame.getD 1 0

/-- The payload of a collected frame whose length byte agrees with it. -/
def framePayload (frame : List Byte) : List Byte :=
  (frame.drop 2).take (frame.length - 4)

/-- The request code and the payload length agree with the catalogue (R153, checks 3 and 4). -/
def catalogued (frame : List Byte) : Bool :=
  match payloadLength (frameCode frame).toNat with
  | none => false
  | some n => decide ((frame.getD 0 0).toNat = 1 + n)

/-- The four checks of R153 on the bytes collected after the start byte. -/
def frameValid (frame : List Byte) : Bool :=
  decide (frame.length = (frame.getD 0 0).toNat + 3)
    && decide ((crc16 (frame.take (frame.length - 2))).toNat = fieldAt frame (frame.length - 2) 2)
    && catalogued frame

/-- The answer to a well-formed request that spells no command: a SET_LANE whose edit kind is none of the six (R26) or a
SET_SETTINGS whose item is unknown (R177), which a save in flight makes BUSY first (DEDUCED,
notes/assumptions/19.md). -/
def State.noCommand (s : State) (q : Request) : AnswerCode :=
  if q.code = 0x40 ∧ s.store.save.isSome then .busy else .range

/-- A well-formed request is taken. One that spells no command completes at once with its refusal. -/
def State.takeRequest (s : State) (q : Request) : State :=
  let s1 := s.setPort (s.port.take q)
  match decodeRequest q with
  | some _ => s1
  | none => s1.setPort (s1.port.complete q.code (s.noCommand q) [])

/-- A request transaction taken at the rising edge of nCS (R153, R154, R156, R158). -/
def State.endRequest (s : State) (frame : List Byte) : State :=
  if s.store.loading then s.setPort (s.port.refuse .loading (frameCode frame))
  else if s.port.buffer = .working then s.setPort (s.port.turnAway (frameCode frame))
  else if frameValid frame then s.takeRequest ⟨frameCode frame, framePayload frame⟩
  else s.setPort (s.port.refuse .badFrame (frameCode frame))

/-! ## Held operator marks -/

/-- The answer code of an ADD_MARK: TOO_LATE when no named lane found a reel (R98). -/
def markCode (ids : List Nat) : AnswerCode :=
  if ids.any fun id => decide (id ≠ 0) then .ok else .tooLate

/-- The attribution of an operator mark with its answer (R98). -/
def State.placeMark (s : State) (m : HeldMark) : Reply :=
  { state := (s.attribute m).1, answer := some (markCode (s.attribute m).2, markAnswer (s.attribute m).2) }

/-- A held ADD_MARK of a shaft is attributed and completes when the taken cut is reported (R98, R118, R123). -/
def State.attributeHeld (s : State) (sh : Shaft) : State :=
  match s.port.held with
  | none => s
  | some m => if m.shaft = sh then (s.placeMark m).finish 0x35 else s

end Sys2Proof.Machine
end

