-- ==== Sys2Proof/Machine/Sweep.lean ====
section
/-! DEFINITION. The sweep engine: triggers, the choice of work, visits, closing computations, the diameter arithmetic,
the diameter limit and the winding tension (Chapter 7). -/

namespace Sys2Proof.Machine

/-! ## Arithmetic -/

/-- The square root taken one result bit per step from the most significant bit down: a bit is kept wherever the square
of the partial result does not exceed the radicand (R133). -/
def sqrtBits (x : Nat) : Nat → Nat → Nat
  | 0, acc => acc
  | b + 1, acc => sqrtBits x b (if (acc + 2 ^ b) * (acc + 2 ^ b) ≤ x then acc + 2 ^ b else acc)

/-- The floor of the square root of a radicand below 2⁶⁴ (R133). -/
def floorSqrt (x : Nat) : Nat :=
  sqrtBits x 32 0

/-- Dc² + Q3 of R133. -/
def radicand (footage thickness packing core : Nat) : Nat :=
  core * core + 4 * thickness * footage * 1000 * 113 / 355 * packing / 1000

/-- The diameter of R133 before it is clamped. -/
def rawDiameter (footage thickness packing core : Nat) : Nat :=
  floorSqrt (radicand footage thickness packing core)

/-- The diameter of a computation (R133). -/
def Readings.diameter (x : Readings) : Nat :=
  min (rawDiameter x.footage x.thickness x.packing x.core) maxDiameter

/-- The computation reports a clamp (R133). -/
def Readings.clamped (x : Readings) : Bool :=
  decide (maxDiameter < rawDiameter x.footage x.thickness x.packing x.core)

/-- The tension at a reference diameter already clamped (R137). -/
def tensionAt (st : PlanStep) (dref : Nat) : Nat :=
  st.baseTension - st.baseTension * st.taper * (dref - st.core) / (1000 * (st.span - st.core))

/-! ## Sweep end -/

/-- The record's diameter stands at or above its limit while it winds (R134). -/
def Reel.atLimit (r : Reel) : Bool :=
  decide (r.state = .winding) && decide (r.limit ≤ r.diameter)

/-- A shaft has a WINDING record that gains DIA_LIMIT at this sweep end (R134). -/
def State.gainsLimit (s : State) (sh : Shaft) : Bool :=
  allHandles.any fun h => (s.reel h).any fun r => decide (r.shaft = sh) && r.atLimit && !r.flags.diaLimit

/-- DIA_LIMIT set on the records at their limit (R134). It moves the revision on its own, beside a visit's write taken in
the same command (DEDUCED, notes/assumptions/43.md). -/
def State.flagLimits (s : State) : State :=
  s.mapReels fun r => if r.atLimit then r.withFlags { r.flags with diaLimit := true } else r

/-- The alert and the change-due event of a shaft that gained DIA_LIMIT (R134). -/
def State.announceLimit (s : State) (gains : Bool) (sh : Shaft) : State :=
  if gains then (s.raise (.diaLimit sh)).changeDue sh .diameter true else s

/-- The diameter-limit examination (R134). Where both shafts gain DIA_LIMIT at one sweep end, shaft A is served wholly
before shaft B: a DESIGN CHOICE (notes/assumptions/35.md), which shows in the raise tags (R167) and in which automatic
attempt reserves records first (R111, R115). -/
def State.examineLimits (s : State) : State :=
  ((s.flagLimits).announceLimit (s.gainsLimit .a) .a).announceLimit (s.gainsLimit .b) .b

/-- The greatest stored diameter among the WINDING records of a shaft, if it has any (R136). -/
def State.greatestDiameter (s : State) (sh : Shaft) : Option Nat :=
  allHandles.foldl (fun m h =>
    match s.reel h with
    | none => m
    | some r => if r.shaft = sh ∧ r.state = .winding then some (max (m.getD 0) r.diameter) else m) none

/-- The stored diameter of the reel on the shaft's reference lane, if that lane has a current reel (R136). -/
def State.referenceDiameter (s : State) (sh : Shaft) : Option Nat :=
  match allLanes.find? (fun n => decide ((s.lane n).shaft = sh) && (s.lane n).reference) with
  | none => none
  | some n => (s.lane n).current.bind fun h => (s.reel h).map Reel.diameter

/-- The reference diameter, clamped into the range from Dc to Dspan (R136). -/
def State.dref (s : State) (sh : Shaft) (st : PlanStep) : Nat :=
  let d := match s.referenceDiameter sh with
    | some d => d
    | none => (s.greatestDiameter sh).getD st.core
  min (max d st.core) st.span

/-- The tension setpoint of a shaft that is not IDLE, written at a sweep end (R135). -/
def State.writeTension (s : State) (sh : Shaft) : State :=
  match (s.shaft sh).currentStep with
  | none => s
  | some st =>
    if (s.shaft sh).phase = .idle then s
    else s.setShaft sh { s.shaft sh with tension := tensionAt st (s.dref sh st) }

/-- The end of a sweep (R135). -/
def State.endSweep (s : State) : State :=
  let s1 := (s.examineLimits.writeTension .a).writeTension .b
  s1.setEngine { s1.engine with sweep := none }

/-! ## The choice of work -/

/-- What a computation reads from a record (R131, R132). -/
def Reel.readings (r : Reel) (h : Handle) (footage : Nat) : Readings :=
  { handle := h, id := r.id, footage := footage, thickness := r.thickness, packing := r.packing, core := r.core }

/-- The closing list taken up from its oldest entry on: an entry whose handle is FREE or holds another reel is dropped at
once (R130, R132). -/
def State.nextClosing (s : State) : List ClosingEntry → Option (Readings × List ClosingEntry)
  | [] => none
  | e :: rest =>
    match s.reel e.handle with
    | none => s.nextClosing rest
    | some r => if r.id = e.id then some (r.readings e.handle r.footage, rest) else s.nextClosing rest

/-- The lowest handle at or above a cursor whose record is WINDING (R130). -/
def State.nextWinding (s : State) (cursor : Nat) : Option Handle :=
  allHandles.find? fun h => decide (cursor ≤ h.val) && (s.reel h).any fun r => decide (r.state = .winding)

/-- A visit begins: the live footage is read from P as it stands (R131). -/
def State.beginVisit (s : State) (h : Handle) : State :=
  match s.reel h with
  | none => s
  | some r =>
    let s1 := s.setReel h (some (r.liveRead s.position.p))
    s1.setEngine { s1.engine with
      activity := .visiting (r.readings h (r.footageOf s.position.p))
      sweep := some (h.val + 1) }

/-- The sweep in flight goes on from its cursor: a visit, or the sweep's end (R130, R135). -/
def State.goOn (s : State) (cursor : Nat) : State :=
  match s.nextWinding cursor with
  | some h => s.beginVisit h
  | none => s.endSweep

/-- An owed sweep starts (R130). -/
def State.startOwed (s : State) : State :=
  if s.engine.owed then (s.setEngine { s.engine with owed := false, sweep := some 0 }).goOn 0 else s

/-- The sweep part of the choice (R130). A sweep that ends makes the engine choose again, and then only an owed sweep
is left to choose. -/
def State.chooseSweep (s : State) : State :=
  match s.engine.sweep with
  | none => s.startOwed
  | some c =>
    match s.nextWinding c with
    | some h => s.beginVisit h
    | none => s.endSweep.startOwed

/-- The engine, having nothing in work, chooses its next computation (R130). -/
def State.chooseWork (s : State) : State :=
  let s0 := s.setEngine { s.engine with activity := .idle }
  match s0.nextClosing s0.engine.closing with
  | some (x, rest) => s0.setEngine { s0.engine with activity := .closing x, closing := rest }
  | none => (s0.setEngine { s0.engine with closing := [] }).chooseSweep

/-- Work has arrived: an IDLE engine chooses, and a busy one goes on (R130). The engine in a reset chooses when the
reset ends (R139). -/
def State.workArrives (s : State) : State :=
  if s.engine.activity = .idle ∧ s.inReset = false then s.chooseWork else s

/-! ## Events of the engine -/

/-- A trigger: it owes one sweep, or is absorbed (R129). -/
def State.trigger (s : State) : State :=
  if s.engine.owed then s else (s.setEngine { s.engine with owed := true }).workArrives

/-- Entries added to the closing list; an older entry for a handle is removed first (R127). -/
def addClosing (list new : List ClosingEntry) : List ClosingEntry :=
  new.foldl (fun l e => l.filter (fun x => decide (x.handle ≠ e.handle)) ++ [e]) list

/-- The records closed by an event go to the closing list (R45, R46, R127). -/
def State.queueClosing (s : State) (new : List ClosingEntry) : State :=
  if new.isEmpty then s
  else (s.setEngine { s.engine with closing := addClosing s.engine.closing new }).workArrives

/-- The record a visit writes at its completion: the diameter, and LIMITED where it was clamped (R131). The write is an
event of its own beside a sweep end (DEDUCED, notes/assumptions/43.md). -/
def Reel.visited (r : Reel) (x : Readings) : Reel :=
  { r with diameter := x.diameter }.withFlags { r.flags with limited := r.flags.limited || x.clamped }

/-- The record a closing computation writes: the revision moves by 1 for the whole write (R132). -/
def Reel.closedWrite (r : Reel) (x : Readings) : Reel :=
  { r with diameter := x.diameter, flags := { r.flags with limited := r.flags.limited || x.clamped } }.bump

/-- The write of a completed visit, if the record is still the same WINDING reel (R131). -/
def State.writeVisit (s : State) (x : Readings) : State :=
  match s.reel x.handle with
  | none => s
  | some r => if r.id = x.id ∧ r.state = .winding then s.setReel x.handle (some (r.visited x)) else s

/-- The write of a completed closing computation, if the handle still holds the reel (R132). -/
def State.writeClosing (s : State) (x : Readings) : State :=
  match s.reel x.handle with
  | none => s
  | some r => if r.id = x.id then s.setReel x.handle (some (r.closedWrite x)) else s

/-- The sweep watch armed at a position, or disarmed where the interval is 0 or the position beyond the greatest (R128).
R128 says that the watch stays disarmed, as it is after an arrival. Where SET_SETTINGS or RESET_RUN has armed it again
before the arrival is taken, and the sum lies beyond the greatest position, it is disarmed: a DESIGN CHOICE
(notes/assumptions/39.md). -/
def State.armSweep (s : State) (x : Nat) : State :=
  if s.settings.sweepInterval = 0 ∨ maxPosition < x then s.disarm .sweep else s.arm .sweep x

end Sys2Proof.Machine
end

