-- ==== Sys2Proof/Machine/Cut.lean ====
section
/-! DEFINITION. Taking a cut, starting and stopping a shaft, and unloading a spindle (R106, R107, R118 to R124). -/

namespace Sys2Proof.Machine

/-! ## Parts that a cut and a stop share -/

/-- The set of a shaft is closed at x: its WINDING and ENDED records become DOFFING and go to the closing list (R45, R46,
R120, R127). -/
def State.closeSet (s : State) (sh : Shaft) (x : Nat) (short : Bool) : State :=
  (s.closeReels sh x short).queueClosing (s.closingEntries sh)

/-- The tension setpoint becomes the base tension of the current step (R106, R123). -/
def State.baseTension (s : State) (sh : Shaft) : State :=
  match (s.shaft sh).currentStep with
  | none => s
  | some st => s.setShaft sh { s.shaft sh with tension := st.baseTension }

/-! ## Taking a cut -/

/-- The cut latch of a shaft cleared (R11). -/
def State.clearLatch (s : State) (sh : Shaft) : State :=
  s.setPosition { s.position with latch := s.position.latch.set sh none }

/-- The taken cut is reported to the travel list and then to the port (R118, R123; the order is DEDUCED,
notes/assumptions/38.md). -/
def State.reportCut (s : State) (sh : Shaft) : State :=
  (s.releasePass sh).attributeHeld sh

/-- A cut taken in phase IDLE (R118). -/
def State.ignoreCut (s : State) (sh : Shaft) : State :=
  let s1 := s.setShaft sh { s.shaft sh with ignoredCuts := satInc (s.shaft sh).ignoredCuts }
  (s1.clearLatch sh).reportCut sh

/-- A cut finds the other spindle FULL: its records become DOFFED with UNLOAD_ASSUMED, and REEL_DOFFED is raised
(R119). -/
def State.assumeUnload (s : State) (sh : Shaft) : State :=
  let r := s.shaft sh
  if r.spindle r.active.other = .full then
    ((s.doff sh r.active.other true).refreshSpindles sh).raise .reelDoffed
  else s

/-- The closed set is counted (R121): the shaft record, and whether the plan is used up. -/
def ShaftRec.countSet (r : ShaftRec) : ShaftRec × Bool :=
  if r.phase = .runout then (r, false)
  else
    let r1 := r.toPhase .winding
    match r.currentStep with
    | none => (r1, false)
    | some st =>
      if st.count = 0 then ({ r1 with counter := r.counter - 1 }, false)
      else if 1 < r.counter.toNat then ({ r1 with counter := r.counter - 1 }, false)
      else match r.plan[r.step]? with
        | some nextStep => ({ r1 with step := r.step + 1, counter := nextStep.count }, false)
        | none => ({ r.toPhase .runout with counter := 0 }, true)

/-- The counting of a cut, with PLAN_END where it enters RUNOUT (R121). -/
def State.countCut (s : State) (sh : Shaft) : State :=
  let c := (s.shaft sh).countSet
  (s.setShaft sh c.1).raiseIf c.2 (.planEnd sh)

/-- The pool of one opening of a cut: the reservation while it lasts, where the cut was taken in CHANGE_PENDING
(R122). -/
def State.cutPool (s : State) (sh : Shaft) (taken : Phase) : Pool :=
  if taken = .changePending ∧ 1 ≤ s.table.reserved.get sh then .reservation else .unreserved

/-- The next set opened on the other spindle, the lanes in ascending order, with UNPLANNED_CUT for a cut taken in
WINDING (R122). -/
def State.openSet (s : State) (sh : Shaft) (c : Nat) (taken : Phase) : State :=
  let flags := { ReelFlags.none with
    extra := decide ((s.shaft sh).phase = .runout)
    unplanned := decide (taken = .winding) }
  let s1 := s.raiseIf (decide (taken = .winding)) (.unplannedCut sh)
  (s1.enabledLanes sh).foldl
    (fun u n => u.openForLane n sh (u.shaft sh).active c (u.cutPool sh taken) flags) s1

/-- The shaft record settled at the end of a cut (R123); CUTREQ has followed the phase. -/
def ShaftRec.settleCut (r : ShaftRec) : ShaftRec :=
  { r.clearRetry with reason := .none, records := false, firstFree := false, short := false }

/-- The active spindle changes, and the spindle states follow the records on them (R120, R122). -/
def State.turnOver (s : State) (sh : Shaft) : State :=
  (s.setShaft sh { s.shaft sh with active := (s.shaft sh).active.other }).refreshSpindles sh

/-- A cut stamped at c, taken in phase WINDING, CHANGE_PENDING or RUNOUT (R119 to R123). A record that it closes moves
its revision once (DEDUCED, notes/assumptions/24.md). The new set opens with the parent that is current at the cut, also
where a splice with an arrival position below c still waits for the knife or nip arrival that releases it: R95 says that
the splice is released by then, R14 and R91 let its arrival wait. A DESIGN CHOICE (notes/assumptions/41.md). -/
def State.takeCut (s : State) (sh : Shaft) (c : Nat) : State :=
  let taken := (s.shaft sh).phase
  let s1 := (s.fireUpTo sh c true allThresholds).assumeUnload sh
  let s2 := (s1.closeSet sh c (s1.shaft sh).short).turnOver sh
  let s3 := (s2.countCut sh).openSet sh c taken
  let s4 := s3.releaseReserved sh
  let s5 := s4.setShaft sh (s4.shaft sh).settleCut
  let s6 := (s5.openThresholds sh c).baseTension sh
  (s6.clearLatch sh).reportCut sh

/-- The shaft controller takes a latched cut; with the latch absent there is none to take. -/
def State.cut (s : State) (sh : Shaft) : State :=
  match s.position.latch.get sh with
  | none => s
  | some c => if (s.shaft sh).phase = .idle then s.ignoreCut sh else s.takeCut sh c

/-! ## Starting and stopping -/

/-- The shaft record when it starts (R106, steps 1 to 4). -/
def ShaftRec.begin (r : ShaftRec) (st : PlanStep) : ShaftRec :=
  { (r.toPhase .winding).clearRetry with
    active := if r.spindle1 = .empty then .one else .two
    step := 1
    counter := st.count
    firstFree := true
    short := false
    reason := .none
    records := false }

/-- A shaft starts at P (R106). -/
def State.start (s : State) (sh : Shaft) (st : PlanStep) : State :=
  let s1 := s.setShaft sh ((s.shaft sh).begin st)
  let s2 := (s1.enabledLanes sh).foldl
    (fun u n => u.openForLane n sh (u.shaft sh).active s.position.p .unreserved ReelFlags.none) s1
  (s2.openThresholds sh s.position.p).baseTension sh

/-- The shaft record when it stops (R107). -/
def ShaftRec.halt (r : ShaftRec) : ShaftRec :=
  { (r.toPhase .idle).clearRetry with
    step := 0
    counter := 0
    firstFree := false
    short := false
    reason := .none
    records := false
    thresholds := none
    tension := 0 }

/-- The four threshold watches of a shaft disarmed (R107). -/
def State.disarmThresholds (s : State) (sh : Shaft) : State :=
  allThresholds.foldl (fun u k => u.disarm (.threshold sh k)) s

/-- A shaft stops at P (R107). -/
def State.halt (s : State) (sh : Shaft) : State :=
  let s1 := (s.closeSet sh s.position.p false).releaseReserved sh
  let s2 := (s1.setShaft sh (s1.shaft sh).halt).refreshSpindles sh
  (s2.disarmThresholds sh).mapLanes fun l =>
    if l.shaft = sh then { l with current := none, untracked := false } else l

/-! ## Unloading -/

/-- A FULL spindle unloaded, with the automatic retry the shaft has waiting (R115, R124). -/
def State.unload (s : State) (sh : Shaft) (sp : Spindle) : State :=
  let s1 := ((s.doff sh sp false).refreshSpindles sh).raise .reelDoffed
  if sp = (s1.shaft sh).active.other then s1.retryAttempt sh else s1

end Sys2Proof.Machine
end

