-- ==== Sys2Proof/Machine/Arrivals.lean ====
section
/-! DEFINITION. The meanings of the events that one block hands to another: a latched cut, watch arrivals, the automatic
retry and the engine's completions (R88, R91, R109, R115, R119, R128, R131, R132). -/

namespace Sys2Proof.Machine

/-- CUT_TAKEN: the shaft controller takes the latched cut (R118 to R123). The hold unit takes its part once, behind the
release pass of the cut's report (DESIGN CHOICE, notes/assumptions/44.md). -/
def execCutTaken (sh : Shaft) (s : State) : Host.Outcome State Fault Refusal :=
  .next (s.settle (s.cut sh))

/-- KNIFE_WATCH_ARRIVAL: the oldest arrival of the knife watch not yet taken starts a knife pass (R88). The hold unit takes
its part once, behind the passes (DESIGN CHOICE, notes/assumptions/44.md). -/
def execKnifeWatchArrival (s : State) : Host.Outcome State Fault Refusal :=
  .next (match s.takeArrival .knife with
    | none => s
    | some (_, s1) => s.settle s1.knifePass)

/-- NIP_WATCH_ARRIVAL: the oldest arrival of the shaft's nip watch not yet taken starts a release pass (R91). The hold
unit takes its part once, behind all releases of the pass (DESIGN CHOICE, notes/assumptions/44.md). -/
def execNipWatchArrival (sh : Shaft) (s : State) : Host.Outcome State Fault Refusal :=
  .next (match s.takeArrival (.nip sh) with
    | none => s
    | some (_, s1) => s.settle (s1.releasePass sh))

/-- THRESHOLD_ARRIVAL: the oldest arrival of the threshold watch not yet taken (R109). -/
def execThresholdArrival (sh : Shaft) (k : Threshold) (s : State) : Host.Outcome State Fault Refusal :=
  .next (match s.takeArrival (.threshold sh k) with
    | none => s
    | some (a, s1) => s.settle (s1.takeThreshold sh k a.position))

/-- One retry event of a shaft is taken from those raised (R115). -/
def State.takeRetry (s : State) (sh : Shaft) : State :=
  s.setShaft sh { s.shaft sh with retriesDue := (s.shaft sh).retriesDue - 1 }

/-- AUTOMATIC_RETRY: one of the retries that a report has raised (R115). -/
def execAutomaticRetry (sh : Shaft) (s : State) : Host.Outcome State Fault Refusal :=
  .next (if (s.shaft sh).retriesDue = 0 then s else s.settle ((s.takeRetry sh).retryAttempt sh))

/-- SWEEP_WATCH_ARRIVAL: a trigger, and the watch armed one interval on from the position carried (R128, R129). The
engine in a reset takes nothing, and the arrival waits (R181). -/
def execSweepWatchArrival (s : State) : Host.Outcome State Fault Refusal :=
  .next (if s.inReset then s else match s.takeArrival .sweep with
    | none => s
    | some (a, s1) =>
      let s2 := s1.trigger
      s.settle (s2.armSweep (a.position + s2.settings.sweepInterval)))

/-- VISIT_COMPLETE: the visit in progress writes its result and the engine chooses again (R130, R131). With no visit in
progress there is none to complete (DESIGN CHOICE, notes/assumptions/37.md). The write, the end of the sweep and the
beginning of the next visit each move the revision of a record on which they newly set a flag, as three events of R48:
DEDUCED (notes/assumptions/43.md). -/
def execVisitComplete (s : State) : Host.Outcome State Fault Refusal :=
  .next (match s.engine.activity with
    | .visiting x => if s.inReset then s else s.settle (s.writeVisit x).chooseWork
    | _ => s)

/-- CLOSING_COMPLETE: the closing computation in progress writes its result and the engine chooses again (R130,
R132). With none in progress there is none to complete (DESIGN CHOICE, notes/assumptions/37.md). The revisions move as in
`execVisitComplete` (DEDUCED, notes/assumptions/43.md). -/
def execClosingComplete (s : State) : Host.Outcome State Fault Refusal :=
  .next (match s.engine.activity with
    | .closing x => if s.inReset then s else s.settle (s.writeClosing x).chooseWork
    | _ => s)

end Sys2Proof.Machine
end

