-- ==== Sys2Proof/Machine/DigestRequests.lean ====
section
/-! DEFINITION. The meanings of READ_DIGEST, ACK_DIGEST, CLEAR_ALERTS and SET_ALERT_MASK (R166, R169 to R171). -/

namespace Sys2Proof.Machine

/-- READ_DIGEST (R166). -/
def execReadDigest (s : State) : Host.Outcome State Fault Refusal :=
  .next (s.carryOut .readDigest fun t => Reply.ok t t.digestBytes)

/-- ACK_DIGEST (R169). -/
def execAckDigest (tag : Word16) (s : State) : Host.Outcome State Fault Refusal :=
  .next (s.carryOut (.ackDigest tag) fun t =>
    Reply.code (t.updateDigest { t.digest with ackedTag := tag }) .ok)

/-- The reply to CLEAR_ALERTS (R170). -/
def State.clearAlerts (s : State) (tag : Word16) (alerts : BitVec 24) : Reply :=
  if alertSetValid alerts then
    let s1 := s.updateDigest (s.digest.clear tag alerts)
    Reply.ok s1 (beBytes 3 s1.digest.setBits)
  else Reply.code s .range

/-- CLEAR_ALERTS (R170). -/
def execClearAlerts (tag : Word16) (alerts : BitVec 24) (s : State) : Host.Outcome State Fault Refusal :=
  .next (s.carryOut (.clearAlerts tag alerts) fun t => t.clearAlerts tag alerts)

/-- The reply to SET_ALERT_MASK (R171). -/
def State.maskAlerts (s : State) (alerts : BitVec 24) : Reply :=
  if alertSetValid alerts then Reply.code (s.updateDigest (s.digest.mask alerts)) .ok else Reply.code s .range

/-- SET_ALERT_MASK (R171). -/
def execSetAlertMask (alerts : BitVec 24) (s : State) : Host.Outcome State Fault Refusal :=
  .next (s.carryOut (.setAlertMask alerts) fun t => t.maskAlerts alerts)

end Sys2Proof.Machine
end

