-- ==== Sys2Proof/Machine/HoldEvents.lean ====
section
/-! DEFINITION. The meanings of HOLD_TIMER_EXPIRY, OVERRIDE_EXPIRY and HOLD_OVERRIDE (R145, R148). -/

namespace Sys2Proof.Machine

/-- The expiry of the SLOW hold's timer at `e`: renewed where demanded, and otherwise inactive (R145). -/
def HoldUnit.expireSlow (h : HoldUnit) (e quantum : Nat) : HoldUnit :=
  if h.slowDemand then { h with slow := some (e + quantum), renewals := satInc h.renewals }
  else { h with slow := none, slowLine := false }

/-- The expiry of the STOP hold's timer at `e` (R145); a fall that ends the SLOW hold's demand takes the SLOW hold with
it while the override runs (R148). -/
def HoldUnit.expireStop (h : HoldUnit) (e quantum : Nat) : HoldUnit :=
  if h.causes.anyStop then { h with stop := some (e + quantum), renewals := satInc h.renewals }
  else HoldUnit.releaseSlow { h with stop := none, stopLine := false }

/-- The running expiry of a hold. -/
def HoldUnit.expiry (h : HoldUnit) : HoldLine → Option Nat
  | .slow => h.slow
  | .stop => h.stop

/-- The expiry of a hold's timer. -/
def HoldUnit.expire (h : HoldUnit) (e quantum : Nat) : HoldLine → HoldUnit
  | .slow => h.expireSlow e quantum
  | .stop => h.expireStop e quantum

/-- HOLD_TIMER_EXPIRY; an expiry that does not stand is not taken, and the hold unit in a reset takes none (R145,
R151). -/
def execHoldTimerExpiry (hold : HoldLine) (s : State) : Host.Outcome State Fault Refusal :=
  .next (match s.hold.expiry hold with
    | none => s
    | some e =>
      if s.inReset || decide (s.now < e) then s
      else s.announce (s.setHold (s.hold.expire e s.settings.quantum hold)))

/-- OVERRIDE_EXPIRY: the override is no longer running and neither hold changes (R148). -/
def execOverrideExpiry (s : State) : Host.Outcome State Fault Refusal :=
  .next (if stands s.now s.hold.override && !s.inReset then s.setHold { s.hold with override := none } else s)

/-- The override starts, or restarts, and a SLOW hold that nothing demands falls (R148). -/
def State.startOverride (s : State) : State :=
  s.setHold (HoldUnit.releaseSlow { s.hold with override := some (s.now + s.settings.quantum) })

/-- HOLD_OVERRIDE (R148). -/
def execHoldOverride (s : State) : Host.Outcome State Fault Refusal :=
  .next (s.settle (s.carryOut .holdOverride fun t => Reply.code t.startOverride .ok))

end Sys2Proof.Machine
end

