-- ==== Sys2Proof/Machine/Position.lean ====
section
/-! DEFINITION. Counting the encoder: the tracking position, its residual, the direction and the line state
(R1 to R8). -/

namespace Sys2Proof.Machine

/-- P and r after a forward count, and whether an increase was due at the limit (R3). The manual steps P up by 1 while
r is at least N_enc; `k` is how many steps that is. -/
def countUp (n p r : Nat) : Nat × Nat × Bool :=
  let k := (r + 1000) / n
  if p + k ≤ maxPosition then (p + k, (r + 1000) % n, false) else (max p maxPosition, 0, true)

/-- P and r after a reverse count (R4). The manual steps P down by 1 while r is below 0; `k` is how many steps that
is. -/
def countDown (n p r : Nat) : Nat × Nat :=
  if 1000 ≤ r then (p, r - 1000)
  else
    let k := ceilDiv (1000 - r) n
    if k ≤ p then (p - k, r + k * n - 1000) else (0, 0)

/-- The line runs in a direction, and the stop timer starts from the count (R6, R7). -/
def State.moved (s : State) (d : Direction) : State :=
  s.setPosition { s.position with
    direction := d
    line := .running
    stopTimer := some (s.now + s.settings.stopTimeout) }

/-- The position-limit fault becomes present; while it is present the alert is not raised again (R8). -/
def State.positionLimit (s : State) : State :=
  if s.position.fault then s
  else (s.setPosition { s.position with fault := true }).raise .positionLimit

/-- A forward count (R3, R6, R7, R8, R14). -/
def State.forwardCount (s : State) : State :=
  let c := countUp s.settings.nEnc s.position.p s.position.r
  let s1 := (s.setPosition { s.position with p := c.1, r := c.2.1 }).moved .forward
  let s2 := if c.2.2 then s1.positionLimit else s1
  if s.position.p < c.1 then s2.reportAll else s2

/-- A reverse count (R4, R6, R7, R15). -/
def State.reverseCount (s : State) : State :=
  let c := countDown s.settings.nEnc s.position.p s.position.r
  (s.setPosition { s.position with p := c.1, r := c.2 }).moved .reverse

/-- The level pair that follows another in the forward cycle 00, 10, 11, 01, 00 (R2). -/
def nextPair : Bool × Bool → Bool × Bool
  | (false, false) => (true, false)
  | (true, false) => (true, true)
  | (true, true) => (false, true)
  | (false, true) => (false, false)

/-- A change of the level pair, decoded against the reference (R2). -/
def State.decodePair (s : State) (pair : Bool × Bool) : State :=
  let s1 := s.setPosition { s.position with reference := pair }
  if pair = nextPair s.position.reference then s1.forwardCount
  else if s.position.reference = nextPair pair then s1.reverseCount
  else s1

end Sys2Proof.Machine
end

