-- ==== Sys2Proof/Machine/Inputs.lean ====
section
/-! DEFINITION. The meanings of the discrete inputs and of the stop timer: QUADRATURE_CHANGE, STOP_TIMER_EXPIRY,
SPLICE_PULSE and CUT_PULSE (R2, R7, R9, R10). -/

namespace Sys2Proof.Machine

/-- QUADRATURE_CHANGE: the pins take their new levels, and the position unit decodes the change while it takes its inputs
(R2; notes/assumptions/17.md). -/
def execQuadratureChange (encA encB : Bool) (s : State) : Host.Outcome State Fault Refusal :=
  let s1 := s.setEncoder (encA, encB)
  .next (s.settle (if s1.tracking then s1.decodePair (encA, encB) else s1))

/-- The line becomes STOPPED and the timer stops (R7). -/
def State.stopLine (s : State) : State :=
  s.setPosition { s.position with line := .stopped, stopTimer := none }

/-- STOP_TIMER_EXPIRY: an expiry that no longer stands, because a count has restarted the timer, is not taken (R7). -/
def execStopTimerExpiry (s : State) : Host.Outcome State Fault Refusal :=
  .next (if stands s.now s.position.stopTimer then s.stopLine else s)

/-- The splice pulse is accepted: no stamp, or P at least the stamp plus its debounce distance (R9). A debounce already
in force keeps the distance it came into force with (R5; DEDUCED, notes/assumptions/33.md). -/
def PositionUnit.acceptsSplice (u : PositionUnit) : Bool :=
  u.spliceStamp.all fun x => decide (clampPosition (x.position + x.debounce) ≤ u.p)

/-- The splice stamp set by a pulse accepted at P (R9, R5). -/
def State.stampSplice (s : State) : State :=
  s.setPosition { s.position with spliceStamp := some ⟨s.position.p, s.settings.debounce⟩ }

/-- SPLICE_PULSE (R9, R86). -/
def execSplicePulse (s : State) : Host.Outcome State Fault Refusal :=
  .next (s.settle (if s.tracking && s.position.acceptsSplice then s.stampSplice.takeSplice else s))

/-- The cut latch of a shaft after a pulse: stamped with P, or a bounce counted (R10). -/
def PositionUnit.stampCut (u : PositionUnit) (sh : Shaft) : PositionUnit :=
  match u.latch.get sh with
  | none => { u with latch := u.latch.set sh (some u.p) }
  | some _ => { u with bounces := u.bounces.set sh (satInc (u.bounces.get sh)) }

/-- CUT_PULSE (R10). The occupied latch is the cut event handed to the shaft controller, which CUT_TAKEN takes
(DEDUCED, notes/assumptions/11.md). -/
def execCutPulse (sh : Shaft) (s : State) : Host.Outcome State Fault Refusal :=
  .next (if s.tracking then s.setPosition (s.position.stampCut sh) else s)

end Sys2Proof.Machine
end

