-- ==== Sys2Proof/Machine/JobRequests.lean ====
section
/-! DEFINITION. The meanings of SET_JOB, SET_PLAN_STEP, CLEAR_PLAN, SET_GRADE_TABLE and STAGE_PARENT (R20, R41, R76,
R87, R104, R105, R160). -/

namespace Sys2Proof.Machine

/-! ## SET_JOB -/

/-- The per-shaft items of a SET_JOB, where the auto-change field holds one of its values; the other ranges are tested
apart (R105, R182). -/
def shaftJobOf (j : ShaftJobFields) : Option ShaftJob :=
  (switchOf j.auto.toNat).map fun auto =>
    { approach := j.approach.toNat, window := j.window.toNat, overrun := j.overrun.toNat, auto := auto }

/-- The per-shaft items, where every one lies in its range (R105). -/
def validShaftJob (j : ShaftJobFields) : Option ShaftJob :=
  (shaftJobOf j).filter ShaftJob.valid

/-- The web width is the one in force, or lies in its range (R20). -/
def State.webWidthValid (s : State) (web : Nat) : Bool :=
  decide (web = s.settings.webWidth) || within 1000 40000 web

/-- The items of SET_JOB that the reel table holds lie in their ranges (R41). -/
def jobValuesValid (j : JobFields) : Bool :=
  within 5 200 j.thickness.toNat && within 1000 1200 j.packing.toNat && rhoValid j.rhoA.toNat && rhoValid j.rhoB.toNat

/-- The settings with the items of a SET_JOB. -/
def Settings.withJob (st : Settings) (j : JobFields) (a b : ShaftJob) : Settings :=
  { st with
    webWidth := j.webWidth.toNat
    thickness := j.thickness.toNat
    packing := j.packing.toNat
    rho := ⟨j.rhoA.toNat, j.rhoB.toNat⟩
    job := ⟨a, b⟩ }

/-- The tests of a web width that differs from the one in force, and the whole SET_JOB where they pass (R20, R160). -/
def State.takeJob (s : State) (j : JobFields) (a b : ShaftJob) : Reply :=
  if j.webWidth.toNat ≠ s.settings.webWidth ∧ s.lanesBeyond j.webWidth.toNat then Reply.code s .range
  else if j.webWidth.toNat ≠ s.settings.webWidth ∧ s.position.line = .running then Reply.code s .lineMoving
  else Reply.code (s.setSettings (s.settings.withJob j a b)) .ok

/-- The reply to SET_JOB, checked as a whole (R160). -/
def State.setJob (s : State) (j : JobFields) : Reply :=
  if s.store.save.isSome then Reply.code s .busy
  else match validShaftJob j.shaftA, validShaftJob j.shaftB with
    | some a, some b =>
      if s.webWidthValid j.webWidth.toNat && jobValuesValid j then s.takeJob j a b else Reply.code s .range
    | _, _ => Reply.code s .range

/-- SET_JOB (R160). -/
def execSetJob (job : JobFields) (s : State) : Host.Outcome State Fault Refusal :=
  .next (s.settle (s.carryOut (.setJob job) fun t => t.setJob job))

/-! ## Plans -/

/-- The step of a SET_PLAN_STEP, where every field lies in the range of R104; a count of any value is in range, 0 being
FOREVER. -/
def stepOf (f : StepFields) : Option PlanStep :=
  match tableOf f.table.toNat with
  | none => none
  | some t =>
    if within 1000 4000000000 f.target.toNat && within 25000 300000 f.core.toNat
        && within (f.core.toNat + 1) maxDiameter f.limit.toNat && decide (f.taper.toNat ≤ 800)
        && within (f.core.toNat + 1) maxDiameter f.span.toNat then
      some { count := f.count, target := f.target.toNat, core := f.core.toNat, limit := f.limit.toNat, table := t,
             baseTension := f.baseTension.toNat, taper := f.taper.toNat, span := f.span.toNat }
    else none

/-- A plan with a step appended at its end or replaced (R105). -/
def putStep (plan : List PlanStep) (number : Nat) (st : PlanStep) : List PlanStep :=
  if number = plan.length + 1 then plan ++ [st] else plan.set (number - 1) st

/-- The tests of the step number and of the current step, and the edit (R105). -/
def State.editPlan (s : State) (sh : Shaft) (number : Nat) (st : PlanStep) : Reply :=
  let r := s.shaft sh
  if number = 0 ∨ 8 < number ∨ r.plan.length + 1 < number then Reply.code s .range
  else if r.phase ≠ .idle ∧ number ≤ r.step then Reply.code s .state
  else Reply.code (s.setShaft sh { r with plan := putStep r.plan number st }) .ok

/-- The reply to SET_PLAN_STEP (R105). -/
def State.setPlanStep (s : State) (shaft number : Nat) (f : StepFields) : Reply :=
  match shaftOf shaft, stepOf f with
  | some sh, some st => s.editPlan sh number st
  | _, _ => Reply.code s .range

/-- SET_PLAN_STEP (R105). -/
def execSetPlanStep (shaft number : Byte) (step : StepFields) (s : State) : Host.Outcome State Fault Refusal :=
  .next (s.settle (s.carryOut (.setPlanStep shaft number step) fun t =>
    t.setPlanStep shaft.toNat number.toNat step))

/-- The reply to CLEAR_PLAN (R105). -/
def State.clearPlan (s : State) (shaft : Nat) : Reply :=
  match shaftOf shaft with
  | none => Reply.code s .range
  | some sh =>
    if (s.shaft sh).phase = .idle then Reply.code (s.setShaft sh { s.shaft sh with plan := [] }) .ok
    else Reply.code s .state

/-- CLEAR_PLAN (R105). -/
def execClearPlan (shaft : Byte) (s : State) : Host.Outcome State Fault Refusal :=
  .next (s.settle (s.carryOut (.clearPlan shaft) fun t => t.clearPlan shaft.toNat))

/-! ## Grade tables and parents -/

/-- The reply to SET_GRADE_TABLE (R76). -/
def State.setGradeTable (s : State) (index : Nat) (table : GradeTable) : Reply :=
  if s.store.save.isSome then Reply.code s .busy
  else match tableOf index with
    | none => Reply.code s .range
    | some i => Reply.code (s.setSettings { s.settings with tables := s.settings.tables.set i table }) .ok

/-- SET_GRADE_TABLE (R76). -/
def execSetGradeTable (index : Byte) (table : GradeTable) (s : State) : Host.Outcome State Fault Refusal :=
  .next (s.settle (s.carryOut (.setGradeTable index table) fun t => t.setGradeTable index.toNat table))

/-- The staged parent that an id gives; 0 makes it absent (R87). -/
def stagedOf (parent : Nat) : Option Nat :=
  if parent = 0 then none else some parent

/-- STAGE_PARENT (R87). -/
def execStageParent (parent : Word32) (s : State) : Host.Outcome State Fault Refusal :=
  .next (s.settle (s.carryOut (.stageParent parent) fun t =>
    Reply.code (t.setTravel { t.travel with staged := stagedOf parent.toNat }) .ok))

end Sys2Proof.Machine
end

