-- ==== Sys2Proof/Machine/LaneEdits.lean ====
section
/-! DEFINITION. The meanings of the six lane edits (R26 to R33). The whole check of R26 comes first in each. -/

namespace Sys2Proof.Machine

/-- A lane edit on the lane a number names; a number that names none is refused RANGE (R26). -/
def State.onLane (s : State) (lane : Nat) (edit : Lane → Reply) : Reply :=
  match laneOf lane with
  | none => Reply.code s .range
  | some n => edit n

/-- The lane's new geometry, with its place in the map order (R19, R27). -/
def State.placeGeometry (s : State) (n : Lane) (edge width : Nat) : State :=
  s.setMap { s.map with
    lanes := s.map.lanes.set n { s.lane n with edge := edge, width := width }
    order := s.moveLane n edge }

/-- GEOMETRY with its conditions in their order (R27). The web width binds a disabled lane too, as R27 says, although R18
says that disabled lanes are not bound by it: DEDUCED (notes/assumptions/42.md). -/
def State.editGeometry (s : State) (edge width : Nat) (n : Lane) : Reply :=
  if 39900 < edge ∨ width < 100 ∨ 40000 < width ∨ s.settings.webWidth < edge + width then Reply.code s .range
  else if s.position.line = .running then Reply.code s .lineMoving
  else if (s.lane n).current.isSome then Reply.code s .laneActive
  else if (s.lane n).enabled && s.overlapsOther n edge width then Reply.code s .overlap
  else Reply.code (s.placeGeometry n edge width) .ok

/-- SET_LANE GEOMETRY (R27). -/
def execSetLaneGeometry (lane : Byte) (edge width : Word16) (s : State) : Host.Outcome State Fault Refusal :=
  .next (s.settle (s.carryOut (.setLaneGeometry lane edge width) fun t =>
    t.onLane lane.toNat (t.editGeometry edge.toNat width.toNat)))

/-- SHAFT with its conditions (R28). -/
def State.editShaft (s : State) (sh : Shaft) (n : Lane) : Reply :=
  if (s.shaft (s.lane n).shaft).phase = .idle ∧ (s.shaft sh).phase = .idle then
    Reply.code (s.setLane n { s.lane n with shaft := sh, reference := false }) .ok
  else Reply.code s .state

/-- SET_LANE SHAFT (R28). -/
def execSetLaneShaft (lane : Byte) (shaft : Word16) (s : State) : Host.Outcome State Fault Refusal :=
  .next (s.settle (s.carryOut (.setLaneShaft lane shaft) fun t =>
    match shaftOf shaft.toNat with
    | none => Reply.code t .range
    | some sh => t.onLane lane.toNat (t.editShaft sh)))

/-- The lane is enabled, with a late-start reel where its shaft runs (R31, R32). -/
def State.enableLane (s : State) (n : Lane) : State :=
  let sh := (s.lane n).shaft
  let s1 := s.setLane n { s.lane n with enabled := true }
  if (s.shaft sh).phase = .idle then s1
  else s1.openForLane n sh (s.shaft sh).active s.position.p .unreserved
    { ReelFlags.none with lateStart := true, extra := decide ((s.shaft sh).phase = .runout) }

/-- ENABLE with its conditions in their order (R31). -/
def State.editEnable (s : State) (n : Lane) : Reply :=
  if (s.lane n).enabled then Reply.code s .ok
  else if s.settings.webWidth < (s.lane n).edge + (s.lane n).width then Reply.code s .range
  else if s.overlapsOther n (s.lane n).edge (s.lane n).width then Reply.code s .overlap
  else Reply.code (s.enableLane n) .ok

/-- SET_LANE ENABLE (R31). -/
def execSetLaneEnable (lane : Byte) (s : State) : Host.Outcome State Fault Refusal :=
  .next (s.settle (s.carryOut (.setLaneEnable lane) fun t => t.onLane lane.toNat t.editEnable))

/-- The lane's current reel ends at P (R30, R44). -/
def State.endCurrent (s : State) (n : Lane) : State :=
  match (s.lane n).current with
  | none => s
  | some h => s.setReel h ((s.reel h).map fun r => r.endByDisable s.position.p)

/-- The lane is disabled (R30). -/
def State.disableLane (s : State) (n : Lane) : State :=
  (s.endCurrent n).setLane n { s.lane n with
    current := none, enabled := false, reference := false, untracked := false }

/-- DISABLE (R30). -/
def State.editDisable (s : State) (n : Lane) : Reply :=
  if (s.lane n).enabled then Reply.code (s.disableLane n) .ok else Reply.code s .ok

/-- SET_LANE DISABLE (R30). -/
def execSetLaneDisable (lane : Byte) (s : State) : Host.Outcome State Fault Refusal :=
  .next (s.settle (s.carryOut (.setLaneDisable lane) fun t => t.onLane lane.toNat t.editDisable))

/-- The reference flag of a lane set, and that of every other lane of its shaft cleared (R29). -/
def State.setReference (s : State) (n : Lane) : State :=
  let s1 := s.mapLanes fun l => if l.shaft = (s.lane n).shaft then { l with reference := false } else l
  s1.setLane n { s.lane n with reference := true }

/-- REFERENCE with its conditions (R29). -/
def State.editReference (s : State) (on : Bool) (n : Lane) : Reply :=
  if on then
    if (s.lane n).enabled then Reply.code (s.setReference n) .ok else Reply.code s .state
  else Reply.code (s.setLane n { s.lane n with reference := false }) .ok

/-- SET_LANE REFERENCE (R29). -/
def execSetLaneReference (lane : Byte) (on : Word16) (s : State) : Host.Outcome State Fault Refusal :=
  .next (s.settle (s.carryOut (.setLaneReference lane on) fun t =>
    match switchOf on.toNat with
    | none => Reply.code t .range
    | some b => t.onLane lane.toNat (t.editReference b)))

/-- CLEAR_TALLY of the trim tally, or of a lane's untracked tally (R26). -/
def State.clearTally (s : State) (lane : Nat) : Reply :=
  if lane = 0 then Reply.code (s.setMap { s.map with trim := 0 }) .ok
  else s.onLane lane fun n => Reply.code (s.setLane n { s.lane n with tally := 0 }) .ok

/-- SET_LANE CLEAR_TALLY (R26). -/
def execSetLaneClearTally (lane : Byte) (s : State) : Host.Outcome State Fault Refusal :=
  .next (s.settle (s.carryOut (.setLaneClearTally lane) fun t => t.clearTally lane.toNat))

end Sys2Proof.Machine
end

