-- ==== Sys2Proof/Machine/Link.lean ====
section
/-! DEFINITION. The inspection link receiver and the meanings of UART_CHARACTER and GAP_TIMER_EXPIRY (R162 to R165,
R185). -/

namespace Sys2Proof.Machine

/-- The reasons for which a report is refused (R164). -/
inductive Refused where
  | badFrame
  | loading
  | range
  | travelFull
deriving DecidableEq, Repr

/-- The refusal counter of a reason moves by 1 (R164). -/
def Receiver.countRefusal (r : Receiver) : Refused → Receiver
  | .badFrame => { r with badFrame := satInc r.badFrame }
  | .loading => { r with loading := satInc r.loading }
  | .range => { r with range := satInc r.range }
  | .travelFull => { r with travelFull := satInc r.travelFull }

/-- A report refused: counted, with REPORTS_REFUSED (R164). -/
def State.refuseReport (s : State) (why : Refused) : State :=
  (s.setLink (s.link.countRefusal why)).raise .reportsRefused

/-- The receiver in HUNT with its gap timer stopped. -/
def Receiver.hunting (r : Receiver) : Receiver :=
  { r with phase := .hunt, bytes := [], gap := none }

/-- The length of a frame behind its start byte (R162). -/
abbrev frameLength : Nat := 13

/-- The time in which the next character of a frame must come (R162). -/
abbrev gapTime : Nat := 2

/-- The report in the 13 bytes behind the start byte, at the offsets of R185. -/
def reportIn (bytes : List Byte) : Report :=
  { defect := decide (byteAt bytes 1 = 1)
    lag := fieldAt bytes 2 2
    x := fieldAt bytes 4 2
    w := fieldAt bytes 6 2
    cls := (byteAt bytes 8).toNat
    error := word16At bytes 9 }

/-- The checks of R163 on the 13 bytes: length byte, CRC-16 and kind. -/
def reportFrameValid (bytes : List Byte) : Bool :=
  decide (byteAt bytes 0 = 10) && decide ((crc16 (bytes.take 11)).toNat = fieldAt bytes 11 2)
    && (decide (byteAt bytes 1 = 1) || decide (byteAt bytes 1 = 2))

/-- A report handed to the travel list, which accepts it or hands back a reason (R83, R163). -/
def State.handReport (s : State) (r : Report) : State :=
  match s.testReport r with
  | .ok f => s.acceptEntry (s.reportEntry r f)
  | .error .range => s.refuseReport .range
  | .error .travelFull => s.refuseReport .travelFull

/-- A frame taken at its last byte (R163, R164). -/
def State.takeFrame (s : State) (bytes : List Byte) : State :=
  if reportFrameValid bytes then
    if s.store.loading then s.refuseReport .loading else s.handReport (reportIn bytes)
  else s.refuseReport .badFrame

/-- A character taken by the receiver (R162). -/
def State.takeCharacter (s : State) (char : Byte) (framingError : Bool) : State :=
  match s.link.phase with
  | .hunt =>
    if char = 0x7E && !framingError then
      s.setLink { s.link with phase := .receiving, bytes := [], gap := some (s.now + gapTime) }
    else s
  | .receiving =>
    if framingError then (s.setLink s.link.hunting).refuseReport .badFrame
    else if s.link.bytes.length + 1 = frameLength then
      (s.setLink s.link.hunting).takeFrame (s.link.bytes ++ [char])
    else s.setLink { s.link with bytes := s.link.bytes ++ [char], gap := some (s.now + gapTime) }

/-- UART_CHARACTER; the receiver in a reset takes nothing (R162, R165). -/
def execUartCharacter (char : Byte) (framingError : Bool) (s : State) : Host.Outcome State Fault Refusal :=
  .next (if s.inReset then s else s.settle (s.takeCharacter char framingError))

/-- GAP_TIMER_EXPIRY: in RECEIVING the frame is discarded as BAD_FRAME. An expiry that no longer stands, because a
character has restarted or stopped the timer, is not taken (R162). -/
def execGapTimerExpiry (s : State) : Host.Outcome State Fault Refusal :=
  .next (if stands s.now s.link.gap && !s.inReset && decide (s.link.phase = .receiving) then
      (s.setLink s.link.hunting).refuseReport .badFrame
    else s)

end Sys2Proof.Machine
end

