-- ==== Sys2Proof/Machine/Queries.lean ====
section
/-! DEFINITION. The meanings of the queries: QUERY_REEL, FIND_REEL, LIST_REELS, READ_MARKS, QUERY_SHAFT, QUERY_LANE,
MAP_SUMMARY and READ_SETTINGS (R19, R52, R54, R60, R61, R125, R179). -/

namespace Sys2Proof.Machine

/-- The certificate header of the record at a handle; a WINDING record's live footage is read, and the header shows the
record as that reading leaves it (R43, R60). -/
def State.readHeader (s : State) (h : Handle) (r : Reel) : Reply :=
  if r.state = .winding then
    let r1 := r.liveRead s.position.p
    Reply.ok (s.setReel h (some r1)) (r1.header h (r.footageOf s.position.p))
  else Reply.ok s (r.header h r.footage)

/-- The reel that an id names, with its handle (R53). -/
def State.named (s : State) (id : Nat) : Option (Handle × Reel) :=
  (s.reelById id).bind fun h => (s.reel h).map fun r => (h, r)

/-- The reply to QUERY_REEL (R60). The header shows the record as its own live read leaves it (DEDUCED,
notes/assumptions/20.md). -/
def State.queryReel (s : State) (id : Nat) : Reply :=
  match s.named id with
  | none => Reply.code s .unknownReel
  | some (h, r) => s.readHeader h r

/-- QUERY_REEL (R60). -/
def execQueryReel (id : Word32) (s : State) : Host.Outcome State Fault Refusal :=
  .next (s.carryOut (.queryReel id) fun t => t.queryReel id.toNat)

/-- The answer to a position search (R52). -/
def State.foundAt (s : State) (n : Lane) (sh : Shaft) (x : Nat) : Reply :=
  match (s.coveringReel n sh x).bind fun h => (s.reel h).map fun r => (h, r) with
  | none => Reply.code s .unknownReel
  | some (h, r) => Reply.ok s (r.found h x)

/-- The reply to FIND_REEL (R52). -/
def State.findReel (s : State) (lane shaft x : Nat) : Reply :=
  match laneOf lane, shaftOf shaft with
  | some n, some sh => s.foundAt n sh x
  | _, _ => Reply.code s .range

/-- FIND_REEL (R52). -/
def execFindReel (lane shaft : Byte) (position : Word32) (s : State) : Host.Outcome State Fault Refusal :=
  .next (s.carryOut (.findReel lane shaft position) fun t => t.findReel lane.toNat shaft.toNat position.toNat)

/-- The reply to LIST_REELS (R54). -/
def State.listReels (s : State) (selection handle : Nat) : Reply :=
  match selectionOf selection, handleOf handle with
  | some sel, some h => Reply.ok s (s.reelList sel h)
  | _, _ => Reply.code s .range

/-- LIST_REELS (R54). -/
def execListReels (selection handle : Byte) (s : State) : Host.Outcome State Fault Refusal :=
  .next (s.carryOut (.listReels selection handle) fun t => t.listReels selection.toNat handle.toNat)

/-- The reply to READ_MARKS (R61). -/
def State.readMarks (s : State) (id page : Nat) : Reply :=
  if 7 < page then Reply.code s .range
  else match s.named id with
    | none => Reply.code s .unknownReel
    | some (_, r) => Reply.ok s (r.markPage page)

/-- READ_MARKS (R61). -/
def execReadMarks (id : Word32) (page : Byte) (s : State) : Host.Outcome State Fault Refusal :=
  .next (s.carryOut (.readMarks id page) fun t => t.readMarks id.toNat page.toNat)

/-- The reply to QUERY_SHAFT (R125). -/
def State.queryShaft (s : State) (shaft : Nat) : Reply :=
  match shaftOf shaft with
  | none => Reply.code s .range
  | some sh => Reply.ok s (s.shaftBytes sh)

/-- QUERY_SHAFT (R125). -/
def execQueryShaft (shaft : Byte) (s : State) : Host.Outcome State Fault Refusal :=
  .next (s.carryOut (.queryShaft shaft) fun t => t.queryShaft shaft.toNat)

/-- The reply to the request QUERY_LANE: lane number 0 asks for the map summary (R19), by this row too (DESIGN CHOICE,
notes/assumptions/21.md). -/
def State.queryLane (s : State) (lane : Nat) : Reply :=
  if lane = 0 then Reply.ok s s.mapBytes
  else match laneOf lane with
    | none => Reply.code s .range
    | some n => Reply.ok s (s.laneBytes n)

/-- QUERY_LANE (R19). -/
def execQueryLane (lane : Byte) (s : State) : Host.Outcome State Fault Refusal :=
  .next (s.carryOut (.queryLane lane) fun t => t.queryLane lane.toNat)

/-- MAP_SUMMARY: QUERY_LANE with lane number 0 (R19). -/
def execMapSummary (s : State) : Host.Outcome State Fault Refusal :=
  .next (s.carryOut .mapSummary fun t => t.queryLane 0)

/-- READ_SETTINGS (R179). -/
def execReadSettings (s : State) : Host.Outcome State Fault Refusal :=
  .next (s.carryOut .readSettings fun t => Reply.ok t t.settingsBytes)

end Sys2Proof.Machine
end

