-- ==== Sys2Proof/Machine/ReelRequests.lean ====
section
/-! DEFINITION. The meanings of ADD_MARK, OVERRIDE_GRADE, RETIRE, SWEEP and RESET_RUN (R16, R57, R59, R97, R98,
R129). -/

namespace Sys2Proof.Machine

/-! ## Operator marks -/

/-- The greatest distance back of an ADD_MARK (R97). -/
abbrev maxBack : Nat := 100000

/-- What an ADD_MARK fixes when it is taken (R97). -/
def State.markOf (s : State) (sh : Shaft) (lanes : BitVec 24) (back : Nat) : HeldMark :=
  { shaft := sh, arrival := s.position.p - back, lanes := s.namedLanes lanes }

/-- An operator mark taken: attributed at once, or held while the cut latch holds its arrival position (R98). -/
def State.takeMark (s : State) (m : HeldMark) : Reply :=
  if s.held m.shaft m.arrival then { state := s.setPort { s.port with held := some m }, answer := none }
  else s.placeMark m

/-- The reply to ADD_MARK (R97, R98). -/
def State.addMark (s : State) (shaft : Nat) (lanes : BitVec 24) (back : Nat) : Reply :=
  match shaftOf shaft with
  | none => Reply.code s .range
  | some sh =>
    if lanes = 0 ∨ maxBack < back then Reply.code s .range else s.takeMark (s.markOf sh lanes back)

/-- ADD_MARK (R97, R98). -/
def execAddMark (shaft : Byte) (lanes : BitVec 24) (back : Word32) (s : State) : Host.Outcome State Fault Refusal :=
  .next (s.settle (s.carryOut (.addMark shaft lanes back) fun t => t.addMark shaft.toNat lanes back.toNat))

/-! ## Grade override and retirement -/

/-- A record with an override grade; the revision moves where the override differs (R59). -/
def Reel.withOverride (r : Reel) (g : Option Grade) : Reel :=
  if r.override = g then r else { r with override := g }.bump

/-- The reply to OVERRIDE_GRADE (R59). -/
def State.overrideGrade (s : State) (id grade : Nat) : Reply :=
  match gradeOf grade with
  | none => Reply.code s .range
  | some g =>
    match s.named id with
    | none => Reply.code s .unknownReel
    | some (h, r) =>
      if r.state = .doffed then Reply.code (s.setReel h (some (r.withOverride g))) .ok else Reply.code s .state

/-- OVERRIDE_GRADE (R59). -/
def execOverrideGrade (id : Word32) (grade : Byte) (s : State) : Host.Outcome State Fault Refusal :=
  .next (s.settle (s.carryOut (.overrideGrade id grade) fun t => t.overrideGrade id.toNat grade.toNat))

/-- A record freed: its marks go back to the pool and the free count rises, with its reports (R55, R57, R74). -/
def State.freeReel (s : State) (h : Handle) (r : Reel) : State :=
  let s1 := (s.setReel h none).setFreeMarks (s.freeMarks + r.chain.length)
  (s1.setTable { s1.table with free := s1.table.free + 1 }).reportFreed

/-- The reply to RETIRE (R57). -/
def State.retire (s : State) (id : Nat) (revision : Word16) : Reply :=
  match s.named id with
  | none => Reply.code s .unknownReel
  | some (h, r) =>
    if r.state ≠ .doffed then Reply.code s .state
    else if r.revision ≠ revision then Reply.code s .changed
    else Reply.code (s.freeReel h r) .ok

/-- RETIRE (R57). -/
def execRetire (id : Word32) (revision : Word16) (s : State) : Host.Outcome State Fault Refusal :=
  .next (s.settle (s.carryOut (.retire id revision) fun t => t.retire id.toNat revision))

/-! ## Sweep and run -/

/-- SWEEP (R129). -/
def execSweep (s : State) : Host.Outcome State Fault Refusal :=
  .next (s.settle (s.carryOut .sweep fun t => Reply.code t.trigger .ok))

/-- A record that RESET_RUN marks: DOFFING or DOFFED (R16). -/
def Reel.leaveRun (r : Reel) : Reel :=
  if r.state = .doffing ∨ r.state = .doffed then r.withFlags { r.flags with previousRun := true } else r

/-- The position unit of a new run: P and r at 0, the fault clear, the splice stamp absent, every watch disarmed
(R16). -/
def PositionUnit.newRun (u : PositionUnit) : PositionUnit :=
  { u with p := 0, r := 0, fault := false, spliceStamp := none, watches := .initial }

/-- A run ends (R16, R128). Arrivals not yet taken stay to be taken (notes/assumptions/26.md). -/
def State.endRun (s : State) : State :=
  let s1 := s.setPosition s.position.newRun
  (s1.armSweep s1.settings.sweepInterval).mapReels Reel.leaveRun

/-- Both shafts are IDLE and the travel list is empty (R16, R99, R177). -/
def State.atRest (s : State) : Bool :=
  decide (s.shafts.a.phase = .idle) && decide (s.shafts.b.phase = .idle) && s.travel.isEmpty

/-- RESET_RUN (R16). -/
def execResetRun (s : State) : Host.Outcome State Fault Refusal :=
  .next (s.settle (s.carryOut .resetRun fun t =>
    if t.atRest then Reply.code t.endRun .ok else Reply.code t .state))

end Sys2Proof.Machine
end

