-- ==== Sys2Proof/Machine/Resets.lean ====
section
/-! DEFINITION. Power-on, the two kinds of warm reset, the rebuild at the end of a preserving reset, the settings load
and the completion of a save (R139, R150, R151, R159, R165, R172, R175 to R178, R180, R181). -/

namespace Sys2Proof.Machine

/-! ## Power-on values -/

/-- Every block at its power-on values. The EEPROM, the encoder pins, the timebase, the counter of free values and the
queue are no blocks of the part's own and stay (R175, R180; DEDUCED, notes/assumptions/14.md). -/
def State.powerUp (s : State) (kind : ResetKind) (reset : ResetActivity) (loading : Bool) : State :=
  { State.reset with
    store := { SettingsStore.initial with
      lastReset := kind
      reset := reset
      loading := loading
      eeprom := s.store.eeprom }
    encoder := s.encoder
    now := s.now
    freeIndex := s.freeIndex
    pending := s.pending }

/-- A reset abandons a save in flight; the EEPROM holds the image as far as the writing went, which the manual does not
say (R178; the free value of notes/assumptions/8.md). -/
def State.abandonSave (s : State) : State :=
  match s.store.save with
  | none => s
  | some image =>
    (s.setStore { s.store with
      save := none
      eeprom := writePart s.store.eeprom image (Config.saveProgress s.freeIndex) }).setFreeIndex (s.freeIndex + 1)

/-- Power is applied. The settings load begins, or waits for the end of the reset where nRST is low (R175, R180;
DESIGN CHOICE, notes/assumptions/4.md). -/
def State.powerOn (s : State) : State :=
  if s.inReset then s.abandonSave.powerUp .powerOn .clearing false
  else s.abandonSave.powerUp .powerOn .none true

/-! ## Taking a warm reset -/

/-- The settings store when a preserving reset is taken: the flag is cleared and the kind recorded (R180). -/
def SettingsStore.preserving (t : SettingsStore) : SettingsStore :=
  { t with preserve := false, lastReset := .preserved, reset := .preserving, loading := false }

/-- A preserving reset is taken: the port's work is discarded, the hold unit holds no cause and ATTN is low; the lines
keep their levels and the tracking blocks their state (R98, R151, R168, R180, R181; notes/assumptions/15.md). -/
def State.takePreserving (s : State) : State :=
  let s1 := s.setStore s.store.preserving
  let s2 := (s1.setPort .initial).setHold { s1.hold with causes := .empty }
  s2.updateDigest s2.digest

/-- A warm reset is taken, of the kind the preserve flag gives (R180). -/
def State.takeReset (s : State) : State :=
  if s.store.preserve then s.abandonSave.takePreserving else s.abandonSave.powerUp .warm .clearing false

/-! ## The end of a preserving reset -/

/-- The cause set rebuilt from the kept state; a count between its watermarks leaves its cause absent (R151). -/
def State.keptCauses (s : State) : Causes :=
  s.testMarks s.freeMarks (s.testTravel s.travel.free (s.feeds .empty))

/-- The hold unit rebuilds its causes and holds, and raises HOLD_CHANGED where the rebuilt level is not NONE (R151). -/
def State.rebuildHolds (s : State) : State :=
  let h := { HoldUnit.initial with
    causes := s.keptCauses
    lastTravel := s.travel.free
    lastMarks := s.freeMarks }
  let s1 := s.setHold (h.follow (s.now + s.settings.quantum))
  s1.raiseIf (decide (s1.hold.level ≠ .none)) .holdChanged

/-- The sweep engine after a preserving reset: an abandoned closing entry stands at the head of the list again, no sweep
is in flight and one is owed (R127, R139). That a handle already listed is not listed twice is DEDUCED
(notes/assumptions/15.md). -/
def SweepEngine.renewed (e : SweepEngine) : SweepEngine :=
  { activity := .idle
    sweep := none
    owed := true
    closing := match e.activity with
      | .closing x =>
        if e.closing.any (fun y => decide (y.handle = x.handle)) then e.closing else ⟨x.handle, x.id⟩ :: e.closing
      | _ => e.closing }

/-- The port, the receiver, the digest unit and the hold unit are reset, in this order (R181). -/
def State.renewUnits (s : State) : State :=
  let s1 := s.setStore { s.store with reset := .none }
  (((s1.setPort .initial).setLink .initial).setDigest .initial).rebuildHolds

/-- The engine is reset and chooses its work (R139, R181). -/
def State.renewEngine (s : State) : State :=
  s.settle ((s.setEngine s.engine.renewed).chooseWork)

/-- The end of a reset: a preserving one renews five blocks, and a clearing one begins the settings load (R175, R181). A
rising edge of nRST outside a reset ends none. -/
def State.endReset (s : State) : State :=
  match s.store.reset with
  | .none => s
  | .clearing => s.setStore { s.store with reset := .none, loading := true }
  | .preserving => s.renewUnits.renewEngine

/-! ## The settings load -/

/-- The hold unit applies its travel watermarks to the count it holds (R141). -/
def State.applyTravelMarks (s : State) : State :=
  s.takeCauses (s.testTravel s.hold.lastTravel s.hold.causes)

/-- The hold unit applies its mark watermarks to the count it holds (R142). -/
def State.applyMarkMarks (s : State) : State :=
  s.takeCauses (s.testMarks s.hold.lastMarks s.hold.causes)

/-- The settings after a load: those of an accepted image, or the ones in force (R175, R176). -/
def State.putLoaded (s : State) (image : Option Settings) : State :=
  s.setStore { s.store with
    settings := image.getD s.settings
    loading := false
    defaulted := image.isNone }

/-- The position unit samples its first reference, with r zeroed by a change of N_enc (R1, R2). -/
def State.firstReference (s : State) (oldN : Nat) : State :=
  s.setPosition { s.position with
    reference := s.encoder
    r := if s.settings.nEnc = oldN then s.position.r else 0 }

/-- The completion of the settings load (R175). -/
def State.completeLoad (s : State) (image : Option Settings) : State :=
  let s1 := (s.putLoaded image).raiseIf image.isNone .settingsDefaulted
  let s2 := s1.firstReference s.settings.nEnc
  let s3 := s2.armSweep (s2.position.p + s2.settings.sweepInterval)
  s.announce s3.applyTravelMarks.applyMarkMarks

/-! ## Saves -/

/-- The completion of a save whose image was `image` (R176, R178). -/
def SettingsStore.saved (t : SettingsStore) (image : List Byte) : SaveOutcome → SettingsStore
  | .done =>
    { t with save := none, lastSave := .done, defaulted := false, eeprom := writeImage t.eeprom image }
  | .failed left =>
    { t with save := none, lastSave := .failed, eeprom := writeLeft t.eeprom left }

end Sys2Proof.Machine
end

