-- ==== Sys2Proof/Machine/SettingsRequests.lean ====
section
/-! DEFINITION. The meanings of SET_SETTINGS for each item, SAVE_SETTINGS, PRESERVE, CANCEL_PRESERVE and RESET_PART (R177,
R178, R180). -/

namespace Sys2Proof.Machine

/-! ## SET_SETTINGS -/

/-- The tests of R177 that every item has, and then the item's own change: BUSY, RANGE, and OK for the value in
force. -/
def State.setItem (s : State) (valid same : Bool) (change : Reply) : Reply :=
  if s.store.save.isSome then Reply.code s .busy
  else if !valid then Reply.code s .range
  else if same then Reply.code s .ok
  else change

/-- The further tests of N_enc and the four distances: STATE and LINE_MOVING (R177). -/
def State.setAtRest (s : State) (after : State) : Reply :=
  if !s.atRest then Reply.code s .state
  else if s.position.line = .running then Reply.code s .lineMoving
  else Reply.code after .ok

/-- A change of N_enc sets r to 0 (R1). -/
def State.changeNEnc (s : State) (n : Nat) : State :=
  (s.setSettings { s.settings with nEnc := n }).setPosition { s.position with r := 0 }

/-- SET_SETTINGS of N_enc (R177). -/
def execSetSettingsNEnc (value : Word32) (s : State) : Host.Outcome State Fault Refusal :=
  .next (s.settle (s.carryOut (.setSettingsNEnc value) fun t =>
    t.setItem (within 200 200000 value.toNat) (decide (value.toNat = t.settings.nEnc))
      (t.setAtRest (t.changeNEnc value.toNat))))

/-- SET_SETTINGS of the stop timeout (R177). -/
def execSetSettingsStopTimeout (value : Word32) (s : State) : Host.Outcome State Fault Refusal :=
  .next (s.settle (s.carryOut (.setSettingsStopTimeout value) fun t =>
    t.setItem (within 50 5000 value.toNat) (decide (value.toNat = t.settings.stopTimeout))
      (Reply.code (t.setSettings { t.settings with stopTimeout := value.toNat }) .ok)))

/-- SET_SETTINGS of the splice debounce distance (R177). -/
def execSetSettingsSpliceDebounce (value : Word32) (s : State) : Host.Outcome State Fault Refusal :=
  .next (s.settle (s.carryOut (.setSettingsSpliceDebounce value) fun t =>
    t.setItem (distanceValid value.toNat) (decide (value.toNat = t.settings.debounce))
      (Reply.code (t.setSettings { t.settings with debounce := value.toNat }) .ok)))

/-- SET_SETTINGS of D_ik (R177). -/
def execSetSettingsDIk (value : Word32) (s : State) : Host.Outcome State Fault Refusal :=
  .next (s.settle (s.carryOut (.setSettingsDIk value) fun t =>
    t.setItem (distanceValid value.toNat) (decide (value.toNat = t.settings.dIk))
      (t.setAtRest (t.setSettings { t.settings with dIk := value.toNat }))))

/-- SET_SETTINGS of D_sk (R177). -/
def execSetSettingsDSk (value : Word32) (s : State) : Host.Outcome State Fault Refusal :=
  .next (s.settle (s.carryOut (.setSettingsDSk value) fun t =>
    t.setItem (distanceValid value.toNat) (decide (value.toNat = t.settings.dSk))
      (t.setAtRest (t.setSettings { t.settings with dSk := value.toNat }))))

/-- SET_SETTINGS of D_kw of a shaft (R177). -/
def execSetSettingsDKw (sh : Shaft) (value : Word32) (s : State) : Host.Outcome State Fault Refusal :=
  .next (s.settle (s.carryOut (.setSettingsDKw sh value) fun t =>
    t.setItem (distanceValid value.toNat) (decide (value.toNat = t.settings.dKw.get sh))
      (t.setAtRest (t.setSettings { t.settings with dKw := t.settings.dKw.set sh value.toNat }))))

/-- SET_SETTINGS of the hold quantum (R147, R177). -/
def execSetSettingsHoldQuantum (value : Word32) (s : State) : Host.Outcome State Fault Refusal :=
  .next (s.settle (s.carryOut (.setSettingsHoldQuantum value) fun t =>
    t.setItem (within 100 60000 value.toNat) (decide (value.toNat = t.settings.quantum))
      (Reply.code (t.setSettings { t.settings with quantum := value.toNat }) .ok)))

/-- A change of the sweep interval re-arms the sweep watch (R128). -/
def State.changeInterval (s : State) (interval : Nat) : State :=
  (s.setSettings { s.settings with sweepInterval := interval }).armSweep (s.position.p + interval)

/-- SET_SETTINGS of the sweep interval (R128, R177). -/
def execSetSettingsSweepInterval (value : Word32) (s : State) : Host.Outcome State Fault Refusal :=
  .next (s.settle (s.carryOut (.setSettingsSweepInterval value) fun t =>
    t.setItem (sweepIntervalValid value.toNat) (decide (value.toNat = t.settings.sweepInterval))
      (Reply.code (t.changeInterval value.toNat) .ok)))

/-- SET_SETTINGS of the reel id counter (R39, R177). -/
def execSetSettingsReelIdCounter (value : Word32) (s : State) : Host.Outcome State Fault Refusal :=
  .next (s.settle (s.carryOut (.setSettingsReelIdCounter value) fun t =>
    t.setItem (within 1 maxPosition value.toNat) (decide (value.toNat = t.settings.reelIdCounter))
      (Reply.code (t.setSettings { t.settings with reelIdCounter := value.toNat }) .ok)))

/-- SET_SETTINGS of the travel watermarks, which re-applies the hold tests (R141, R177). -/
def execSetSettingsTravelWatermarks (lower upper : Word32) (s : State) : Host.Outcome State Fault Refusal :=
  .next (s.settle (s.carryOut (.setSettingsTravelWatermarks lower upper) fun t =>
    t.setItem (travelMarksValid lower.toNat upper.toNat)
      (decide (lower.toNat = t.settings.travelLower) && decide (upper.toNat = t.settings.travelUpper))
      (Reply.code (State.applyTravelMarks (t.setSettings
        { t.settings with travelLower := lower.toNat, travelUpper := upper.toNat })) .ok)))

/-- SET_SETTINGS of the mark watermarks, which re-applies the hold test (R142, R177). -/
def execSetSettingsMarkWatermarks (lower upper : Word32) (s : State) : Host.Outcome State Fault Refusal :=
  .next (s.settle (s.carryOut (.setSettingsMarkWatermarks lower upper) fun t =>
    t.setItem (markMarksValid lower.toNat upper.toNat)
      (decide (lower.toNat = t.settings.markLower) && decide (upper.toNat = t.settings.markUpper))
      (Reply.code (State.applyMarkMarks (t.setSettings
        { t.settings with markLower := lower.toNat, markUpper := upper.toNat })) .ok)))

/-! ## Saving and resetting -/

/-- SAVE_SETTINGS: the image is composed from the settings in force (R178). -/
def execSaveSettings (s : State) : Host.Outcome State Fault Refusal :=
  .next (s.settle (s.carryOut .saveSettings fun t =>
    if t.store.save.isSome then Reply.code t .busy
    else Reply.code (t.setStore { t.store with save := some t.settings.image }) .ok))

/-- PRESERVE (R180). -/
def execPreserve (s : State) : Host.Outcome State Fault Refusal :=
  .next (s.settle (s.carryOut .preserve fun t =>
    Reply.code (t.setStore { t.store with preserve := true }) .ok))

/-- CANCEL_PRESERVE (R180). -/
def execCancelPreserve (s : State) : Host.Outcome State Fault Refusal :=
  .next (s.settle (s.carryOut .cancelPreserve fun t =>
    Reply.code (t.setStore { t.store with preserve := false }) .ok))

/-- RESET_PART: the reset is taken at the request's completion and ends within that event; it discards the answer
(R159, R180). -/
def execResetPart (s : State) : Host.Outcome State Fault Refusal :=
  .next (s.carryOut .resetPart fun t => { state := t.takeReset.endReset, answer := none })

end Sys2Proof.Machine
end

