-- ==== Sys2Proof/Machine/ShaftRequests.lean ====
section
/-! DEFINITION. The meanings of START_SHAFT, STOP_SHAFT, CHANGE, CANCEL_CHANGE and UNLOADED (R106, R107, R113, R117,
R124). -/

namespace Sys2Proof.Machine

/-- A request on the shaft a code names; a code that names none is refused RANGE. -/
def State.onShaft (s : State) (shaft : Nat) (act : Shaft → Reply) : Reply :=
  match shaftOf shaft with
  | none => Reply.code s .range
  | some sh => act sh

/-- The conditions of START_SHAFT in their order, and the start (R106). -/
def State.startShaft (s : State) (sh : Shaft) : Reply :=
  let r := s.shaft sh
  match r.plan with
  | [] => Reply.code s .state
  | st :: _ =>
    if r.phase ≠ .idle ∨ (s.position.latch.get sh).isSome then Reply.code s .state
    else if r.spindle1 ≠ .empty ∧ r.spindle2 ≠ .empty then Reply.code s .notUnloaded
    else if s.unreserved < (s.enabledLanes sh).length then Reply.code s .noRecords
    else Reply.code (s.start sh st) .ok

/-- START_SHAFT (R106). -/
def execStartShaft (shaft : Byte) (s : State) : Host.Outcome State Fault Refusal :=
  .next (s.settle (s.carryOut (.startShaft shaft) fun t => t.onShaft shaft.toNat t.startShaft))

/-- The conditions of STOP_SHAFT in their order, and the stop (R107). -/
def State.stopShaft (s : State) (sh : Shaft) : Reply :=
  if (s.shaft sh).phase = .idle ∨ (s.position.latch.get sh).isSome then Reply.code s .state
  else if s.position.line = .running then Reply.code s .lineMoving
  else Reply.code (s.halt sh) .ok

/-- STOP_SHAFT (R107). -/
def execStopShaft (shaft : Byte) (s : State) : Host.Outcome State Fault Refusal :=
  .next (s.settle (s.carryOut (.stopShaft shaft) fun t => t.onShaft shaft.toNat t.stopShaft))

/-- A CHANGE refused NO_RECORDS; while the change-due reason stands, the shaft presents RECORDS (R113, R116). -/
def State.refuseRecords (s : State) (sh : Shaft) : Reply :=
  if (s.shaft sh).reason ≠ .none then Reply.code (s.setShaft sh { s.shaft sh with records := true }) .noRecords
  else Reply.code s .noRecords

/-- Checks 4 to 6 of R113 and the entry (R113, R114). -/
def State.requestChange (s : State) (forced : Bool) (sh : Shaft) : Reply :=
  let r := s.shaft sh
  if !r.windowOpen && !forced && !r.firstFree then Reply.code s .early
  else if r.spindle r.active.other ≠ .empty then Reply.code s .notUnloaded
  else match s.enterPending sh forced with
    | none => s.refuseRecords sh
    | some s1 => Reply.code s1 .ok

/-- Checks 2 and 3 of R113, and what follows them in WINDING. -/
def State.changeShaft (s : State) (forced : Bool) (sh : Shaft) : Reply :=
  match (s.shaft sh).phase with
  | .changePending => Reply.code s .ok
  | .idle => Reply.code s .state
  | .runout => Reply.code s .state
  | .winding => s.requestChange forced sh

/-- CHANGE (R113). -/
def execChange (shaft force : Byte) (s : State) : Host.Outcome State Fault Refusal :=
  .next (s.settle (s.carryOut (.change shaft force) fun t =>
    match switchOf force.toNat with
    | none => Reply.code t .range
    | some forced => t.onShaft shaft.toNat (t.changeShaft forced)))

/-- The change withdrawn (R117). The change-due reason is kept, as R111 and R117 say, against R134's remark of a reason
that CANCEL_CHANGE clears (DEDUCED, notes/assumptions/36.md). -/
def State.withdrawChange (s : State) (sh : Shaft) : State :=
  let s1 := s.releaseReserved sh
  s1.setShaft sh { ((s1.shaft sh).toPhase .winding).clearRetry with short := false }

/-- The condition of CANCEL_CHANGE and its effect (R117). -/
def State.cancelChange (s : State) (sh : Shaft) : Reply :=
  if (s.shaft sh).phase = .changePending then Reply.code (s.withdrawChange sh) .ok else Reply.code s .state

/-- CANCEL_CHANGE (R117). -/
def execCancelChange (shaft : Byte) (s : State) : Host.Outcome State Fault Refusal :=
  .next (s.settle (s.carryOut (.cancelChange shaft) fun t => t.onShaft shaft.toNat t.cancelChange))

/-- The condition of UNLOADED and its effect (R124). -/
def State.unloadSpindle (s : State) (sp : Spindle) (sh : Shaft) : Reply :=
  if (s.shaft sh).spindle sp = .full then Reply.code (s.unload sh sp) .ok else Reply.code s .state

/-- UNLOADED (R124). -/
def execUnloaded (shaft spindle : Byte) (s : State) : Host.Outcome State Fault Refusal :=
  .next (s.settle (s.carryOut (.unloaded shaft spindle) fun t =>
    match spindleOf spindle.toNat with
    | none => Reply.code t .range
    | some sp => t.onShaft shaft.toNat (t.unloadSpindle sp)))

end Sys2Proof.Machine
end

