-- ==== Sys2Proof/Machine/Starts.lean ====
section
/-! DEFINITION. The meanings of POWER_ON, WARM_RESET, RESET_END, SETTINGS_LOAD_COMPLETE and SAVE_COMPLETE. -/

namespace Sys2Proof.Machine

/-- POWER_ON (R175). -/
def execPowerOn (s : State) : Host.Outcome State Fault Refusal :=
  .next s.powerOn

/-- WARM_RESET: a falling edge of nRST; one during a reset is part of that reset (R180). -/
def execWarmReset (s : State) : Host.Outcome State Fault Refusal :=
  .next (if s.inReset then s else s.takeReset)

/-- RESET_END: the rising edge of nRST (R180, R181); outside a reset it ends none (DESIGN CHOICE,
notes/assumptions/37.md). -/
def execResetEnd (s : State) : Host.Outcome State Fault Refusal :=
  .next s.endReset

/-- SETTINGS_LOAD_COMPLETE (R175); with no load in flight there is none to complete (DESIGN CHOICE,
notes/assumptions/37.md). -/
def execSettingsLoadComplete (acknowledged : Bool) (s : State) : Host.Outcome State Fault Refusal :=
  .next (if s.store.loading then s.completeLoad (loadImage acknowledged s.store.eeprom) else s)

/-- SAVE_COMPLETE (R178); with no save in flight there is none to complete (DESIGN CHOICE, notes/assumptions/37.md). -/
def execSaveComplete (outcome : SaveOutcome) (s : State) : Host.Outcome State Fault Refusal :=
  .next (match s.store.save with
    | none => s
    | some image => s.setStore (s.store.saved image outcome))

end Sys2Proof.Machine
end

