-- ==== Sys2Proof/Machine/Transactions.lean ====
section
/-! DEFINITION. The meanings of the transactions of the line controller port (R152 to R159). -/

namespace Sys2Proof.Machine

/-- REQUEST_TRANSACTION: the frame collected until nCS rose (R152, R153, R154, R156, R158). The port in a reset takes no
transaction (R159). -/
def execRequestTransaction (frame : List Byte) (s : State) : Host.Outcome State Fault Refusal :=
  .next (if s.inReset then s else (s.startTransaction .request).endRequest frame)

/-- IGNORED_TRANSACTION: its bytes are discarded and the port's state is unchanged (R152; notes/assumptions/18.md). -/
def execIgnoredTransaction (s : State) : Host.Outcome State Fault Refusal :=
  .next s

/-- ANSWER_START: the answer frame is composed (R152, R157). The port in a reset takes no transaction (R159). -/
def execAnswerStart (s : State) : Host.Outcome State Fault Refusal :=
  .next (s.startTransaction .answer)

/-- ANSWER_END: a frame shifted out whole consumes the notice or the READY answer (R157). With no answer transaction in
progress there is none to end (DEDUCED, notes/assumptions/18.md). -/
def execAnswerEnd (clocked : Nat) (s : State) : Host.Outcome State Fault Refusal :=
  .next (s.setPort (s.port.endAnswer clocked))

end Sys2Proof.Machine
end

