-- ==== Sys2Proof/Machine/Dispatch.lean ====
section
/-! DEFINITION. The dispatch: one arm for each command, in the order of spec/opcode_table.json. -/

namespace Sys2Proof.Machine

/-- What a command does to everything but the queue. -/
def exec (i : Instr) (s : State) : Host.Outcome State Fault Refusal :=
  match i with
  | .powerOn => Sys2Proof.Machine.execPowerOn s
  | .warmReset => Sys2Proof.Machine.execWarmReset s
  | .resetEnd => Sys2Proof.Machine.execResetEnd s
  | .settingsLoadComplete acknowledged => Sys2Proof.Machine.execSettingsLoadComplete acknowledged s
  | .quadratureChange encA encB => Sys2Proof.Machine.execQuadratureChange encA encB s
  | .stopTimerExpiry => Sys2Proof.Machine.execStopTimerExpiry s
  | .splicePulse => Sys2Proof.Machine.execSplicePulse s
  | .cutPulse shaft => Sys2Proof.Machine.execCutPulse shaft s
  | .cutTaken shaft => Sys2Proof.Machine.execCutTaken shaft s
  | .knifeWatchArrival => Sys2Proof.Machine.execKnifeWatchArrival s
  | .nipWatchArrival shaft => Sys2Proof.Machine.execNipWatchArrival shaft s
  | .thresholdArrival shaft kind => Sys2Proof.Machine.execThresholdArrival shaft kind s
  | .automaticRetry shaft => Sys2Proof.Machine.execAutomaticRetry shaft s
  | .sweepWatchArrival => Sys2Proof.Machine.execSweepWatchArrival s
  | .visitComplete => Sys2Proof.Machine.execVisitComplete s
  | .closingComplete => Sys2Proof.Machine.execClosingComplete s
  | .holdTimerExpiry hold => Sys2Proof.Machine.execHoldTimerExpiry hold s
  | .overrideExpiry => Sys2Proof.Machine.execOverrideExpiry s
  | .uartCharacter char framingError => Sys2Proof.Machine.execUartCharacter char framingError s
  | .gapTimerExpiry => Sys2Proof.Machine.execGapTimerExpiry s
  | .requestTransaction frame => Sys2Proof.Machine.execRequestTransaction frame s
  | .ignoredTransaction => Sys2Proof.Machine.execIgnoredTransaction s
  | .answerStart => Sys2Proof.Machine.execAnswerStart s
  | .answerEnd clocked => Sys2Proof.Machine.execAnswerEnd clocked s
  | .readDigest => Sys2Proof.Machine.execReadDigest s
  | .ackDigest tag => Sys2Proof.Machine.execAckDigest tag s
  | .clearAlerts tag alerts => Sys2Proof.Machine.execClearAlerts tag alerts s
  | .setAlertMask alerts => Sys2Proof.Machine.execSetAlertMask alerts s
  | .queryReel id => Sys2Proof.Machine.execQueryReel id s
  | .findReel lane shaft position => Sys2Proof.Machine.execFindReel lane shaft position s
  | .listReels selection handle => Sys2Proof.Machine.execListReels selection handle s
  | .readMarks id page => Sys2Proof.Machine.execReadMarks id page s
  | .queryShaft shaft => Sys2Proof.Machine.execQueryShaft shaft s
  | .queryLane lane => Sys2Proof.Machine.execQueryLane lane s
  | .mapSummary => Sys2Proof.Machine.execMapSummary s
  | .readSettings => Sys2Proof.Machine.execReadSettings s
  | .setLaneGeometry lane edge width => Sys2Proof.Machine.execSetLaneGeometry lane edge width s
  | .setLaneShaft lane shaft => Sys2Proof.Machine.execSetLaneShaft lane shaft s
  | .setLaneEnable lane => Sys2Proof.Machine.execSetLaneEnable lane s
  | .setLaneDisable lane => Sys2Proof.Machine.execSetLaneDisable lane s
  | .setLaneReference lane on => Sys2Proof.Machine.execSetLaneReference lane on s
  | .setLaneClearTally lane => Sys2Proof.Machine.execSetLaneClearTally lane s
  | .setJob job => Sys2Proof.Machine.execSetJob job s
  | .setPlanStep shaft number step => Sys2Proof.Machine.execSetPlanStep shaft number step s
  | .clearPlan shaft => Sys2Proof.Machine.execClearPlan shaft s
  | .setGradeTable index table => Sys2Proof.Machine.execSetGradeTable index table s
  | .stageParent parent => Sys2Proof.Machine.execStageParent parent s
  | .startShaft shaft => Sys2Proof.Machine.execStartShaft shaft s
  | .stopShaft shaft => Sys2Proof.Machine.execStopShaft shaft s
  | .change shaft force => Sys2Proof.Machine.execChange shaft force s
  | .cancelChange shaft => Sys2Proof.Machine.execCancelChange shaft s
  | .unloaded shaft spindle => Sys2Proof.Machine.execUnloaded shaft spindle s
  | .addMark shaft lanes back => Sys2Proof.Machine.execAddMark shaft lanes back s
  | .overrideGrade id grade => Sys2Proof.Machine.execOverrideGrade id grade s
  | .retire id revision => Sys2Proof.Machine.execRetire id revision s
  | .sweep => Sys2Proof.Machine.execSweep s
  | .holdOverride => Sys2Proof.Machine.execHoldOverride s
  | .resetRun => Sys2Proof.Machine.execResetRun s
  | .setSettingsNEnc value => Sys2Proof.Machine.execSetSettingsNEnc value s
  | .setSettingsStopTimeout value => Sys2Proof.Machine.execSetSettingsStopTimeout value s
  | .setSettingsSpliceDebounce value => Sys2Proof.Machine.execSetSettingsSpliceDebounce value s
  | .setSettingsDIk value => Sys2Proof.Machine.execSetSettingsDIk value s
  | .setSettingsDSk value => Sys2Proof.Machine.execSetSettingsDSk value s
  | .setSettingsDKw shaft value => Sys2Proof.Machine.execSetSettingsDKw shaft value s
  | .setSettingsHoldQuantum value => Sys2Proof.Machine.execSetSettingsHoldQuantum value s
  | .setSettingsSweepInterval value => Sys2Proof.Machine.execSetSettingsSweepInterval value s
  | .setSettingsReelIdCounter value => Sys2Proof.Machine.execSetSettingsReelIdCounter value s
  | .setSettingsTravelWatermarks lower upper => Sys2Proof.Machine.execSetSettingsTravelWatermarks lower upper s
  | .setSettingsMarkWatermarks lower upper => Sys2Proof.Machine.execSetSettingsMarkWatermarks lower upper s
  | .saveSettings => Sys2Proof.Machine.execSaveSettings s
  | .saveComplete outcome => Sys2Proof.Machine.execSaveComplete outcome s
  | .preserve => Sys2Proof.Machine.execPreserve s
  | .cancelPreserve => Sys2Proof.Machine.execCancelPreserve s
  | .resetPart => Sys2Proof.Machine.execResetPart s

end Sys2Proof.Machine
end

