-- ==== Sys2Proof/Machine/Step.lean ====
section
/-! DEFINITION. One step: the command at the queue's front is carried out, and on an empty queue one tick of the 1 ms
timebase passes. -/

namespace Sys2Proof.Machine

/-! ## The tick (DESIGN CHOICE, notes/assumptions/2.md) -/

/-- The command of a timer that has reached its expiry at `now`. -/
def dueAt (now : Nat) (timer : Option Nat) (c : Instr) : List Instr :=
  if stands now timer then [c] else []

/-- The expiry events that stand at `now`, in an order that is the model's (notes/assumptions/32.md). The receiver and
the hold unit take none during a reset (R151, R165). -/
def State.dueEvents (s : State) (now : Nat) : List Instr :=
  dueAt now s.position.stopTimer .stopTimerExpiry ++
    if s.inReset then []
    else
      dueAt now s.link.gap .gapTimerExpiry ++ dueAt now s.hold.slow (.holdTimerExpiry .slow)
        ++ dueAt now s.hold.stop (.holdTimerExpiry .stop) ++ dueAt now s.hold.override .overrideExpiry

/-- One tick: the timebase moves by 1 ms, and the expiries it reaches are queued as the events they are. -/
def State.tick (s : State) : State :=
  (s.setNow (s.now + 1)).setPending (s.dueEvents (s.now + 1))

/-! ## The step -/

/-- One step of the part. -/
def step (s : State) : Host.Outcome State Fault Refusal :=
  match s.pending with
  | [] => .next s.tick
  | c :: rest => exec c (s.setPending rest)

/-- The state with the command that a word spells put at the front of its queue; no word spells one
(notes/assumptions/31.md). -/
def State.withFetchWord (s : State) (nbits w : Nat) : State :=
  match decodeTableWord nbits w with
  | none => s
  | some c => s.setPending (c :: s.pending)

end Sys2Proof.Machine
end

