-- ==== Sys2Proof/Safety.lean ====
section
/-! DEFINITION. What a sound state of the part is: the laws that the manual states of every moment, and the words in which
statements about commands are written. -/

namespace Sys2Proof.Machine

/-- Every step keeps a law. -/
def StepKeeps (law : State → Prop) : Prop :=
  ∀ s s', law s → step s = .next s' → law s'

/-! ## The laws of the pools -/

/-- Twice the approach entries, plus the nip entries of both shafts, plus the free slots, is 256 (R79). -/
def SlotLaw (s : State) : Prop :=
  2 * s.travel.approach.length + s.travel.nip.a.length + s.travel.nip.b.length + s.travel.free = 256

/-- The marks chained to a record. -/
def chainLength (r : Option Reel) : Nat :=
  (r.map fun q => q.chain.length).getD 0

/-- The marks chained to all records. -/
def State.chainedMarks (s : State) : Nat :=
  (allHandles.map fun h => chainLength (s.reel h)).sum

/-- Chained marks and free entries make 2,048, and no reel chains more than 64 (R62). -/
def MarkLaw (s : State) : Prop :=
  s.chainedMarks + s.freeMarks = 2048 ∧ ∀ h, ∀ r ∈ s.reel h, r.chain.length ≤ 64

/-- The number of FREE records. -/
def State.freeRecords (s : State) : Nat :=
  (allHandles.filter fun h => (s.reel h).isNone).length

/-- The free count is the number of FREE records, and the reserved counts never exceed it (R55). -/
def RecordLaw (s : State) : Prop :=
  s.table.free = s.freeRecords ∧ s.table.reserved.a + s.table.reserved.b ≤ s.table.free

/-- While no reset is in progress, the counts the hold unit holds are the free counts of the travel list and of the mark
pool (R141, R142). The model keeps them twice (notes/assumptions/27.md). -/
def HeldCounts (s : State) : Prop :=
  s.inReset = false → s.hold.lastTravel = s.travel.free ∧ s.hold.lastMarks = s.freeMarks

/-- The closing list holds at most one entry for each handle (R127). -/
def ClosingLaw (s : State) : Prop :=
  s.engine.closing.Pairwise fun d e => d.handle ≠ e.handle

/-! ## Order -/

/-- The approach stage and the nip stages stand in ascending order of position (R80, R81). -/
def StageLaw (s : State) : Prop :=
  s.travel.approach.Pairwise (fun d e => d.knife ≤ e.knife) ∧
    s.travel.nip.a.Pairwise (fun d e => d.arrival ≤ e.arrival) ∧
    s.travel.nip.b.Pairwise (fun d e => d.arrival ≤ e.arrival)

/-- Every chain stands in ascending order of arrival position and every parent list in ascending order of footage
(R50, R65). -/
def ChainLaw (s : State) : Prop :=
  ∀ h, ∀ r ∈ s.reel h, r.chain.Pairwise (fun m n => m.arrival ≤ n.arrival) ∧
    r.parents.Pairwise (fun d e => d.footage ≤ e.footage)

/-- The map order holds every lane once, by left edge and then by lane number (R19). -/
def OrderLaw (s : State) : Prop :=
  s.map.order.Perm (List.finRange 24) ∧
    s.map.order.Pairwise fun m n =>
      (s.lane m).edge < (s.lane n).edge ∨ ((s.lane m).edge = (s.lane n).edge ∧ m < n)

/-! ## Position, watches and settings -/

/-- P and r lie in their ranges (R1), and every item in force in its own (R173). -/
def PositionLaw (s : State) : Prop :=
  s.position.p ≤ maxPosition ∧ s.position.r < s.settings.nEnc ∧ s.settings.valid = true

/-- An armed watch lies beyond P (R13). -/
def WatchLaw (s : State) : Prop :=
  ∀ w, ∀ x ∈ s.watch w, s.position.p < x

/-- Each watch of the travel list stands at the first entry of its stage, or is disarmed with its arrival waiting, or, at
the nip, with the entry held by the cut latch; the watch of an empty stage is disarmed (R12, R82; that arrivals wait in a
list is notes/assumptions/6.md). -/
def StageWatchLaw (s : State) : Prop :=
  (match s.travel.approach with
    | [] => s.watch .knife = none
    | e :: _ => s.watch .knife = some e.knife ∨
        s.watch .knife = none ∧ ∃ a ∈ s.position.arrivals, a.watch = .knife) ∧
  ∀ sh, match s.travel.nip.get sh with
    | [] => s.watch (.nip sh) = none
    | e :: _ => s.watch (.nip sh) = some e.arrival ∨
        s.watch (.nip sh) = none ∧ (s.held sh e.arrival = true ∨ ∃ a ∈ s.position.arrivals, a.watch = .nip sh)

/-- A plan holds at most 8 steps. The current step of a shaft that is not IDLE lies in the plan, and that of an IDLE
shaft is 0 (R101, R104). -/
def PlanLaw (s : State) : Prop :=
  ∀ sh, (s.shaft sh).plan.length ≤ 8 ∧ ((s.shaft sh).phase = .idle → (s.shaft sh).step = 0) ∧
    ((s.shaft sh).phase ≠ .idle → 1 ≤ (s.shaft sh).step ∧ (s.shaft sh).step ≤ (s.shaft sh).plan.length)

/-! ## Outputs -/

/-- CUTREQ is high in CHANGE_PENDING and low in every other phase (R103). -/
def CutRequestLaw (s : State) : Prop :=
  ∀ sh, (s.shaft sh).cutReq = decide ((s.shaft sh).phase = .changePending)

/-- The lines show the holds, STOP never without SLOW, and every cause at least its level (R144, R146). -/
def LineLaw (s : State) : Prop :=
  s.hold.slowLine = s.hold.slow.isSome ∧ s.hold.stopLine = s.hold.stop.isSome ∧
    (s.hold.stopLine = true → s.hold.slowLine = true) ∧
    (s.hold.causes.anyStop = true → s.hold.stopLine = true) ∧
    (s.hold.causes.any = true → s.hold.slowLine = true)

/-- Outside a reset every hold cause stands as its feeding block's condition stands: UNTRACKED by the lanes,
POSITION_LIMIT by the fault, the four shaft causes by the shaft's record, and the three causes of the counts as their
watermarks say, where a count between the watermarks leaves a cause as it was (R116, R140 to R143). -/
def CauseLaw (s : State) : Prop :=
  s.inReset = false →
    let c := s.hold.causes
    let st := s.settings
    (c.untracked = true ↔ ∃ n, (s.lane n).enabled = true ∧ (s.lane n).untracked = true) ∧
      c.positionLimit = s.position.fault ∧
      (∀ sh, let r := s.shaft sh
        (c.notUnloaded.get sh = true ↔ r.reason ≠ .none ∧ r.spindle r.active.other = .full) ∧
        c.records.get sh = r.records ∧
        (c.overrun.get sh = true ↔ ∃ th ∈ r.thresholds, th.overrun.fired = true) ∧
        (c.planEnd.get sh = true ↔ r.phase = .runout)) ∧
      (s.hold.lastTravel ≤ st.travelLower → c.travelLow = true) ∧
      (st.travelLower < s.hold.lastTravel → st.travelUpper ≤ s.hold.lastTravel → c.travelLow = false) ∧
      (s.hold.lastTravel < 2 → c.travelEmpty = true) ∧
      (2 ≤ s.hold.lastTravel → st.travelLower ≤ s.hold.lastTravel → c.travelEmpty = false) ∧
      (s.hold.lastMarks ≤ st.markLower → c.marksLow = true) ∧
      (st.markLower < s.hold.lastMarks → st.markUpper ≤ s.hold.lastMarks → c.marksLow = false)

/-- A cause of level STOP is present (R140). -/
def Causes.demandsStop (c : Causes) : Prop :=
  c.travelEmpty = true ∨ c.positionLimit = true ∨
    ∃ sh, c.notUnloaded.get sh = true ∨ c.records.get sh = true ∨ c.overrun.get sh = true ∨ c.planEnd.get sh = true

/-- The SLOW hold is demanded: a cause of either level is present, or the STOP hold is active (R140, R144). -/
def HoldUnit.demandsSlow (h : HoldUnit) : Prop :=
  h.causes.travelLow = true ∨ h.causes.marksLow = true ∨ h.causes.untracked = true ∨ h.causes.demandsStop ∨
    h.stop.isSome = true

/-- Outside a reset, an active SLOW hold is demanded while the override runs (R148). -/
def OverrideLaw (s : State) : Prop :=
  s.inReset = false → s.hold.override.isSome = true → s.hold.slow.isSome = true → s.hold.demandsSlow

/-! ## Resets and the load -/

/-- Every block but the ports, the digest unit and the store at its power-on values, with the built-in defaults. -/
def State.blank (s : State) : Prop :=
  s.position = .initial ∧ s.map = .initial ∧ s.table = .initial ∧ s.freeMarks = 2048 ∧ s.travel = .initial ∧
    s.shafts = ⟨.initial, .initial⟩ ∧ s.engine = .initial ∧ s.hold = .initial ∧ s.settings = .default ∧
    s.store.save = none

/-- From the taking of a power-on or of a non-preserving reset until the load completes, the part stands at its
power-on values; in the reset itself, the ports and the digest unit as well. A load is in flight outside resets only
(R2, R150, R158, R175, R180). -/
def BlankLaw (s : State) : Prop :=
  (s.store.loading = true ∨ s.store.reset = .clearing → s.blank) ∧
    (s.store.reset = .clearing → s.port = .initial ∧ s.link = .initial ∧ s.digest = .initial) ∧
    (s.store.loading = true → s.store.reset = .none)

/-- ATTN is low during any reset, and otherwise high exactly while an unmasked alert is set and the change tag differs
from the acked tag (R168). -/
def AttnLaw (s : State) : Prop :=
  BlankLaw s ∧ (s.digest.attn = true ↔
    s.inReset = false ∧ (∃ c ∈ s.digest.alerts.toList, c.isSet = true ∧ c.masked = false) ∧
      s.digest.changeTag ≠ s.digest.ackedTag)

/-- The EEPROM keeps its canonical form, and an image being written fits it (R174). -/
def EepromLaw (s : State) : Prop :=
  Memory.wf s.store.eeprom ∧ ∀ image ∈ s.store.save, image.length ≤ Config.eepromSize

/-! ## Lanes -/

/-- What R18 says of the lane records, but for the current reel. -/
def LaneLaw (s : State) : Prop :=
  BlankLaw s ∧
    (∀ n, (s.lane n).edge ≤ 39900 ∧ 100 ≤ (s.lane n).width ∧ (s.lane n).width ≤ 40000) ∧
    (∀ m n, m ≠ n → (s.lane m).enabled = true → (s.lane n).enabled = true →
      (s.lane m).edge + (s.lane m).width ≤ (s.lane n).edge ∨ (s.lane n).edge + (s.lane n).width ≤ (s.lane m).edge) ∧
    (∀ n, (s.lane n).enabled = true → (s.lane n).edge + (s.lane n).width ≤ s.settings.webWidth) ∧
    (∀ n, (s.lane n).reference = true → (s.lane n).enabled = true) ∧
    (∀ m n, (s.lane m).reference = true → (s.lane n).reference = true → (s.lane m).shaft = (s.lane n).shaft → m = n) ∧
    (∀ n, (s.lane n).untracked = true → (s.lane n).enabled = true ∧ (s.lane n).current = none)

/-! ## Reels -/

/-- A record of the shaft that is WINDING or ENDED. -/
def Reel.isWound (r : Reel) : Prop :=
  r.state = .winding ∨ r.state = .ended

/-- A lane's current reel is the lane's WINDING reel, and every WINDING reel is the current reel of its lane, which is
enabled and on its shaft (R18, R35, R37). -/
def CurrentLaw (s : State) : Prop :=
  (∀ n, ∀ h ∈ (s.lane n).current, ∃ r, s.reel h = some r ∧ r.state = .winding ∧ r.lane = n) ∧
    ∀ h, ∀ r ∈ s.reel h, r.state = .winding →
      (s.lane r.lane).current = some h ∧ (s.lane r.lane).enabled = true ∧ (s.lane r.lane).shaft = r.shaft

/-- A record's WINDING or ENDED reel stands on the active spindle of a shaft that is not IDLE (R102, R103); an end is
absent exactly while WINDING and never below the start (R36, R37). -/
def WoundLaw (s : State) : Prop :=
  ∀ h, ∀ r ∈ s.reel h,
    (r.isWound → (s.shaft r.shaft).phase ≠ .idle ∧ r.spindle = (s.shaft r.shaft).active) ∧
      (r.stopAt = none ↔ r.state = .winding) ∧ ∀ e ∈ r.stopAt, r.start ≤ e

/-- Two reels of one lane and shaft, neither of a previous run, have ranges that do not meet (R42). -/
def RangeLaw (s : State) : Prop :=
  ∀ g h, g ≠ h → ∀ q ∈ s.reel g, ∀ r ∈ s.reel h,
    q.lane = r.lane → q.shaft = r.shaft → q.flags.previousRun = false → r.flags.previousRun = false →
      (∃ e ∈ q.stopAt, e ≤ r.start) ∨ ∃ e ∈ r.stopAt, e ≤ q.start

/-- The laws of the reels together, which a step keeps only together. -/
def TrackingLaw (s : State) : Prop :=
  CurrentLaw s ∧ WoundLaw s ∧ RangeLaw s

/-- The ids of the records that are not FREE are distinct and never 0, and the id counter lies in its range (R39). -/
def IdLaw (s : State) : Prop :=
  (1 ≤ s.settings.reelIdCounter ∧ s.settings.reelIdCounter ≤ maxPosition) ∧
    (∀ h, ∀ r ∈ s.reel h, 1 ≤ r.id ∧ r.id ≤ maxPosition) ∧
    ∀ g h, g ≠ h → ∀ q ∈ s.reel g, ∀ r ∈ s.reel h, q.id ≠ r.id

/-- The state of every spindle follows from the records on it (R102). -/
def SpindleLaw (s : State) : Prop :=
  ∀ sh sp, (s.shaft sh).spindle sp = s.spindleStateOf sh sp

/-! ## Words for statements about requests -/

/-- The port takes a request (R154): no reset, no settings load, and the buffer EMPTY or READY. -/
def State.takesRequests (s : State) : Prop :=
  s.inReset = false ∧ s.store.loading = false ∧ s.port.buffer ≠ .working

/-- The port after a request it took has completed (R154, R155). -/
def Port.answered (p : Port) (request : Byte) (code : AnswerCode) (payload : List Byte) : Port :=
  { transaction := .none
    buffer := .ready { code := code, request := request, payload := payload, lost := p.buffer.isReady }
    lost := false
    inWork := none
    notice := p.notice
    held := none }

/-- The fields of a payload, each given by its offset, its length and its number, stand at their places; a number too
great for its field stands there without its upper bytes. -/
def Shows (bytes : List Byte) (fields : List (Nat × Nat × Nat)) : Prop :=
  ∀ f ∈ fields, fieldAt bytes f.1 f.2.1 = f.2.2 % 256 ^ f.2.1

/-- A watch stands at X, or its arrival is handed over where P has reached X (R13; notes/assumptions/6.md). -/
def State.armedAt (s : State) (w : Watch) (x : Nat) : Prop :=
  if s.position.p < x then s.watch w = some x
  else s.watch w = none ∧ ⟨w, x, s.position.p⟩ ∈ s.position.arrivals

/-- The knife watch as an event that changes the approach stage leaves it (R82). -/
def State.knifeWatchSet (s : State) : Prop :=
  match s.travel.approach with
  | [] => s.watch .knife = none
  | e :: _ => s.armedAt .knife e.knife

/-- A shaft's nip watch as an event that changes its nip stage or its latch leaves it (R82, R93). -/
def State.nipWatchSet (s : State) (sh : Shaft) : Prop :=
  match s.travel.nip.get sh with
  | [] => s.watch (.nip sh) = none
  | e :: _ => if s.held sh e.arrival then s.watch (.nip sh) = none else s.armedAt (.nip sh) e.arrival

/-- What a step from `s` to `t` in which a taken cut is reported does at the nip of the shaft (R91, R93, R118, R123): the
entries that P has reached leave the stage, their slots are free again, and the splices among them give the shaft its
current parent. Where the stage holds one entry of one lane, it lands on the reel that then covers its arrival position, or
raises the lane's untracked tally, stated where no operator mark is attributed with it. -/
def State.releasesNip (s t : State) (sh : Shaft) : Prop :=
  let reached (e : NipEntry) : Bool := decide (e.arrival ≤ s.position.p)
  let stage := s.travel.nip.get sh
  t.travel = { s.travel with
    nip := s.travel.nip.set sh (stage.dropWhile reached)
    free := s.travel.free + (stage.takeWhile reached).length
    current := s.travel.current.set sh ((stage.takeWhile reached).foldl
      (fun parent e => match e.finding with
        | .splice next => next
        | _ => parent) (s.travel.current.get sh))
    tooLate := t.travel.tooLate } ∧
  t.nipWatchSet sh ∧
  ∀ e l, stage = [e] → e.lanes = [l] → e.arrival ≤ s.position.p → (∀ m ∈ s.port.held, m.shaft ≠ sh) →
    (∀ h, t.coveringReel l.lane sh e.arrival = some h → ∃ q, t.reel h = some q ∧
      q.tallies = (((s.reel h).map Reel.tallies).getD ⟨0, 0, 0, 0, 0, 0, 0⟩).count e.finding) ∧
    (t.coveringReel l.lane sh e.arrival = none → (t.lane l.lane).tally = satInc (s.lane l.lane).tally)

/-- HOLD_CHANGED stands raised with the newest tag (R146, R167). -/
def State.holdChanged (s : State) : Prop :=
  (s.digest.alerts[Alert.index .holdChanged]).isSet = true ∧
    (s.digest.alerts[Alert.index .holdChanged]).tag = s.digest.changeTag

/-- What a command that is taken in `s` and leads to `t`, both outside a reset, does to the holds (R144 to R149). An
inactive hold that is demanded becomes active, with its expiry one quantum on, and counts one entry. An active one stays as
it is, but at its own expiry, and but for the SLOW hold that is no longer demanded while the override runs. Only an expiry
counts a renewal. HOLD_CHANGED is raised where the level has changed, as the last alert of the event
(notes/assumptions/12.md), which is the whole command (notes/assumptions/44.md), and nowhere else. -/
def State.holdsFollow (s t : State) (c : Instr) : Prop :=
  let h := s.hold
  let k := t.hold
  let expiry := s.now + t.settings.quantum
  (h.stop = none →
    (k.causes.demandsStop → k.stop = some expiry ∧ k.stopEntries = satInc h.stopEntries) ∧
    (¬ k.causes.demandsStop → k.stop = none ∧ k.stopEntries = h.stopEntries)) ∧
  (h.stop.isSome = true → k.stopEntries = h.stopEntries ∧ (c ≠ .holdTimerExpiry .stop → k.stop = h.stop)) ∧
  (h.slow = none →
    (k.demandsSlow → k.slow = some expiry ∧ k.slowEntries = satInc h.slowEntries) ∧
    (¬ k.demandsSlow → k.slow = none ∧ k.slowEntries = h.slowEntries)) ∧
  (h.slow.isSome = true → k.slowEntries = h.slowEntries ∧ (c ≠ .holdTimerExpiry .slow →
    (k.demandsSlow ∨ k.override = none → k.slow = h.slow) ∧
    (¬ k.demandsSlow → k.override.isSome = true → k.slow = none))) ∧
  ((∀ l, c ≠ .holdTimerExpiry l) → k.renewals = h.renewals) ∧
  (c ≠ .holdOverride → c ≠ .overrideExpiry → k.override = h.override) ∧
  (h.level ≠ k.level → t.holdChanged) ∧
  (h.level = k.level →
    (t.digest.alerts[Alert.index .holdChanged]).tag = (s.digest.alerts[Alert.index .holdChanged]).tag ∧
    ((∀ tag alerts, c ≠ .clearAlerts tag alerts) →
      (t.digest.alerts[Alert.index .holdChanged]).isSet = (s.digest.alerts[Alert.index .holdChanged]).isSet))

/-- The handle of a closing entry is FREE or holds another reel (R132). -/
def State.stale (s : State) (e : ClosingEntry) : Prop :=
  ∀ r ∈ s.reel e.handle, r.id ≠ e.id

/-- The closing entries of a shaft's WINDING and ENDED records, in ascending handle order (R45, R46, R127). -/
def State.woundEntries (s : State) (sh : Shaft) : List ClosingEntry :=
  allHandles.filterMap fun h => (s.reel h).bind fun r =>
    if r.shaft = sh ∧ (r.state = .winding ∨ r.state = .ended) then some ⟨h, r.id⟩ else none

/-- What a step from `s` to `t` that closes the shaft's records does to the engine (R127, R130, R132): their entries
stand behind those waiting, an older entry of the same handle is gone, and an idle engine outside a reset takes the oldest
entry whose handle still holds the reel. -/
def State.queuesWound (s t : State) (sh : Shaft) : Prop :=
  let new := s.woundEntries sh
  let list := s.engine.closing.filter (fun o => new.all fun e => decide (o.handle ≠ e.handle)) ++ new
  if new = [] ∨ s.engine.activity ≠ .idle ∨ s.inReset then t.engine = { s.engine with closing := list }
  else ∀ old e later, list = old ++ e :: later → (∀ o ∈ old, s.stale o) → ¬ s.stale e →
    ∃ q, t.reel e.handle = some q ∧ t.engine = { s.engine with
      activity := .closing (q.readings e.handle q.footage)
      closing := later }

/-- A record as an opening writes it, with the id, the start and the flags that R39, R42 and the opening's own rule give
(R41). -/
def State.openedReel (s : State) (id start : Nat) (n : Lane) (sh : Shaft) (sp : Spindle) (st : PlanStep) (step : Nat)
    (ordinal : Word16) (flags : ReelFlags) : Reel :=
  { id := id
    state := .winding
    lane := n
    shaft := sh
    spindle := sp
    start := start
    stopAt := none
    rho := s.settings.rho.get sh
    thickness := s.settings.thickness
    packing := s.settings.packing
    core := st.core
    limit := st.limit
    table := st.table
    step := step
    ordinal := ordinal
    footage := 0
    diameter := st.core
    parents := [⟨s.travel.current.get sh, 0⟩]
    tallies := ⟨0, 0, 0, 0, 0, 0, 0⟩
    computed := .a
    override := none
    chain := []
    dropped := 0
    revision := 0
    flags := flags }

/-- What a step from `s` to `t` in which a taken cut is reported leaves of a held operator mark (R98): the request is
answered with the reels that cover the mark's position then, each of them has one flag more, and a lane without one has
its untracked tally raised. The lanes are distinct, and no entry of the nip stage is an operator mark, as the travel
list never holds one (R73, R97). -/
def HeldMark.attributed (m : HeldMark) (s t : State) : Prop :=
  let covering (l : LaneHit) := t.coveringReel l.lane m.shaft m.arrival
  let id (l : LaneHit) := (((covering l).bind t.reel).map Reel.id).getD 0
  t.port = { s.port with
    buffer := .ready { code := if m.lanes.any fun l => decide (id l ≠ 0) then .ok else .tooLate
                       request := 0x35
                       payload := markAnswer (m.lanes.map id)
                       lost := s.port.lost }
    lost := false
    inWork := none
    held := none } ∧
  ((m.lanes.map LaneHit.lane).Nodup → (∀ e ∈ s.travel.nip.get m.shaft, e.finding ≠ .flag) → ∀ l ∈ m.lanes,
    (∀ h, covering l = some h → ∃ q, t.reel h = some q ∧
      q.tallies.flag = satInc (((s.reel h).map fun r => r.tallies.flag).getD 0)) ∧
    (covering l = none → satInc (s.lane l.lane).tally ≤ (t.lane l.lane).tally))

/-- The shaft field names no shaft (R182). -/
def badShaft (b : Byte) : Bool := b != 1 && b != 2

/-- The lane field names no lane (R18). -/
def badLane (b : Byte) : Bool := b == 0 || decide (24 < b.toNat)

/-- A number lies outside a range. -/
def outside (lo hi n : Nat) : Bool := decide (n < lo) || decide (hi < n)

/-- The per-shaft items of a SET_JOB lie outside their ranges (R105, R182). -/
def badShaftJob (j : ShaftJobFields) : Bool :=
  outside 500 999 j.approach.toNat || !([0, 500, 750, 900].contains j.window.toNat) || outside 0 1000000 j.overrun.toNat
    || outside 0 1 j.auto.toNat

/-- A field of a step record lies outside its range (R104). -/
def badStep (f : StepFields) : Bool :=
  outside 1000 4000000000 f.target.toNat || outside 25000 300000 f.core.toNat
    || outside (f.core.toNat + 1) 1500000 f.limit.toNat || outside 0 7 f.table.toNat || outside 0 800 f.taper.toNat
    || outside (f.core.toNat + 1) 1500000 f.span.toNat

/-- The request holds a value that its own rule refuses RANGE whatever the state of the part (R26, R27, R41, R52, R54,
R59, R61, R76, R97, R104 to R107, R113, R117, R124, R125, R170, R171, R177, R182). -/
def outOfRange : Instr → Bool
  | .clearAlerts _ alerts => decide (2 ^ 20 ≤ alerts.toNat)
  | .setAlertMask alerts => decide (2 ^ 20 ≤ alerts.toNat)
  | .findReel lane shaft _ => badLane lane || badShaft shaft
  | .listReels selection handle => outside 0 4 selection.toNat || outside 0 95 handle.toNat
  | .readMarks _ page => outside 0 7 page.toNat
  | .queryShaft shaft => badShaft shaft
  | .queryLane lane => badLane lane && lane != 0
  | .setLaneGeometry lane edge width => badLane lane || outside 0 39900 edge.toNat || outside 100 40000 width.toNat
  | .setLaneShaft lane shaft => badLane lane || (shaft != 1 && shaft != 2)
  | .setLaneEnable lane => badLane lane
  | .setLaneDisable lane => badLane lane
  | .setLaneReference lane on => badLane lane || outside 0 1 on.toNat
  | .setLaneClearTally lane => badLane lane && lane != 0
  | .setJob job =>
    badShaftJob job.shaftA || badShaftJob job.shaftB || outside 5 200 job.thickness.toNat
      || outside 1000 1200 job.packing.toNat || outside 950000 1050000 job.rhoA.toNat
      || outside 950000 1050000 job.rhoB.toNat
  | .setPlanStep shaft number step => badShaft shaft || outside 1 8 number.toNat || badStep step
  | .clearPlan shaft => badShaft shaft
  | .setGradeTable index _ => outside 0 7 index.toNat
  | .startShaft shaft => badShaft shaft
  | .stopShaft shaft => badShaft shaft
  | .change shaft force => badShaft shaft || outside 0 1 force.toNat
  | .cancelChange shaft => badShaft shaft
  | .unloaded shaft spindle => badShaft shaft || outside 1 2 spindle.toNat
  | .addMark shaft lanes back => badShaft shaft || lanes == 0 || outside 0 100000 back.toNat
  | .overrideGrade _ grade => outside 0 3 grade.toNat
  | .setSettingsNEnc value => outside 200 200000 value.toNat
  | .setSettingsStopTimeout value => outside 50 5000 value.toNat
  | .setSettingsSpliceDebounce value => outside 0 100000 value.toNat
  | .setSettingsDIk value => outside 0 100000 value.toNat
  | .setSettingsDSk value => outside 0 100000 value.toNat
  | .setSettingsDKw _ value => outside 0 100000 value.toNat
  | .setSettingsHoldQuantum value => outside 100 60000 value.toNat
  | .setSettingsSweepInterval value => outside 100 100000 value.toNat && value != 0
  | .setSettingsReelIdCounter value => value == 0
  | .setSettingsTravelWatermarks lower upper =>
    outside 2 255 lower.toNat || outside (lower.toNat + 1) 256 upper.toNat
  | .setSettingsMarkWatermarks lower upper =>
    outside 0 2047 lower.toNat || outside (lower.toNat + 1) 2048 upper.toNat
  | _ => false

/-- The frame of a request behind its start byte (R153). -/
def requestFrame (q : Request) : List Byte :=
  let bytes := byteOf (1 + q.payload.length) :: q.code :: q.payload
  bytes ++ bytes16 (crc16 bytes)

end Sys2Proof.Machine
end

