-- ==== Sys2Proof/WellFormed.lean ====
section
/-! DEFINITION. Well-formed commands: those a row of the table and the part's surroundings can really bring.

Values of a request's fields are not checked here: a frame can carry any value of a field, and the request's own rule
refuses the ones out of range (R153). -/

namespace Sys2Proof

/-- QUERY_LANE with lane number 0 is the row MAP_SUMMARY (R19), so the row QUERY_LANE has another lane number. A failed
save leaves no more bytes than the EEPROM holds for the image (R174). Every other command is well formed. -/
def Instr.wf : Instr → Bool
  | .queryLane lane => lane != 0
  | .saveComplete (.failed left) => decide (left.length ≤ Config.eepromSize)
  | _ => true

end Sys2Proof
end

