-- ==== Sys2Proof/Certificates/Slice0/Obligations.lean ====
section
/-! DEFINITION. The statements for the provers, one `Prop` each. -/

open Sys2Proof Sys2Proof.Machine

/-! ## The step and the queue -/

/-- With the command c at the front of the queue, one step is exec of c on the state whose queue is the rest. -/
def Obligations.StepTakesTheFront : Prop :=
  ∀ (c : Instr) (rest : List Instr) (s : State),
    s.pending = c :: rest → step s = exec c { s with pending := rest }

/-- With an empty queue a step moves the timebase by 1 ms and queues the expiries that stand then: of the stop
timer always, and outside a reset of the gap timer, both holds and the override. Nothing else changes. The
tick is the model's choice, notes/assumptions/2.md. -/
def Obligations.EmptyQueueTicks : Prop :=
  ∀ s : State, s.pending = [] →
    ∃ t, step s = .next t ∧ t = { s with now := s.now + 1, pending := t.pending } ∧
      (.stopTimerExpiry ∈ t.pending ↔ ∃ e ∈ s.position.stopTimer, e ≤ s.now + 1) ∧
      (.gapTimerExpiry ∈ t.pending ↔ s.inReset = false ∧ ∃ e ∈ s.link.gap, e ≤ s.now + 1) ∧
      (.holdTimerExpiry .slow ∈ t.pending ↔ s.inReset = false ∧ ∃ e ∈ s.hold.slow, e ≤ s.now + 1) ∧
      (.holdTimerExpiry .stop ∈ t.pending ↔ s.inReset = false ∧ ∃ e ∈ s.hold.stop, e ≤ s.now + 1) ∧
      (.overrideExpiry ∈ t.pending ↔ s.inReset = false ∧ ∃ e ∈ s.hold.override, e ≤ s.now + 1) ∧
      t.pending ⊆ [.stopTimerExpiry, .gapTimerExpiry, .holdTimerExpiry .slow, .holdTimerExpiry .stop, .overrideExpiry]

/-- Every command, with any operands and in any state, is carried out to a next state. It leaves the queue of
waiting commands as it is, and the timebase does not go back. The queue is the model's own
(notes/assumptions/10.md), that only the tick moves the timebase is its choice (2.md), and that no command
stops the part is its reading (28.md). -/
def Obligations.EveryCommandCompletes : Prop :=
  ∀ (c : Instr) (s : State), ∃ t, exec c s = .next t ∧ t.pending = s.pending ∧ s.now ≤ t.now

/-- In the state after power-on the state of Chapters 1 to 11 holds the values its rules give, the settings in
force are the built-in defaults and the settings load is in flight. The count of raised retries in a shaft
record is a field of the model, and its 0 is the model's choice, notes/assumptions/9.md. -/
def Obligations.PowerOnValues : Prop :=
  let s := State.reset
  (s.position.p = 0 ∧ s.position.r = 0 ∧ s.position.direction = .forward ∧ s.position.line = .stopped ∧
    s.position.stopTimer = none ∧ s.position.fault = false ∧ s.position.spliceStamp = none ∧
    s.position.latch = ⟨none, none⟩ ∧ s.position.bounces = ⟨0, 0⟩ ∧ ∀ w, s.watch w = none) ∧
  ((∀ n, s.lane n = ⟨false, 0, 100, .a, false, none, 0, false⟩) ∧ s.map.order = List.finRange 24 ∧ s.map.trim = 0) ∧
  ((∀ h, s.reel h = none) ∧ s.table.free = 96 ∧ s.table.reserved = ⟨0, 0⟩ ∧ s.freeMarks = 2048) ∧
  s.travel = ⟨256, [], ⟨[], []⟩, none, ⟨0, 0⟩, 0, 0⟩ ∧
  (∀ sh, s.shaft sh = ⟨.idle, .one, .empty, .empty, [], 0, 0, false, none, .none, false, false, 0, false, 0, 0, false⟩) ∧
  (s.engine.activity = .idle ∧ s.engine.sweep = none ∧ s.engine.owed = false ∧ s.engine.closing = []) ∧
  (s.hold.causes.any = false ∧ s.hold.lastTravel = 256 ∧ s.hold.lastMarks = 2048 ∧ s.hold.slow = none ∧
    s.hold.stop = none ∧ s.hold.override = none ∧ s.hold.slowEntries = 0 ∧ s.hold.stopEntries = 0 ∧
    s.hold.renewals = 0 ∧ s.hold.slowLine = false ∧ s.hold.stopLine = false) ∧
  (s.port.buffer = .empty ∧ s.port.lost = false ∧ s.port.inWork = none ∧ s.port.notice = none ∧
    s.port.transaction = .none ∧ s.port.held = none) ∧
  (s.link.phase = .hunt ∧ s.link.bytes = [] ∧ s.link.gap = none ∧ s.link.badFrame = 0 ∧ s.link.range = 0 ∧
    s.link.travelFull = 0 ∧ s.link.loading = 0) ∧
  (s.digest.changeTag = 0 ∧ s.digest.ackedTag = 0 ∧ (∀ c ∈ s.digest.alerts.toList, c = ⟨false, 0, false⟩) ∧
    s.digest.attn = false) ∧
  (s.store.loading = true ∧ s.store.save = none ∧ s.store.lastSave = .none ∧ s.store.defaulted = false ∧
    s.store.preserve = false ∧ s.store.lastReset = .powerOn) ∧
  (s.settings.nEnc = 10000 ∧ s.settings.stopTimeout = 300 ∧ s.settings.debounce = 1500 ∧ s.settings.dIk = 10000 ∧
    s.settings.dSk = 2000 ∧ s.settings.dKw = ⟨5000, 5000⟩ ∧ s.settings.travelLower = 64 ∧
    s.settings.travelUpper = 96 ∧ s.settings.markLower = 128 ∧ s.settings.markUpper = 256 ∧
    s.settings.quantum = 2000 ∧ s.settings.sweepInterval = 5000 ∧ s.settings.reelIdCounter = 1 ∧
    s.settings.webWidth = 40000 ∧ s.settings.thickness = 20 ∧ s.settings.packing = 1000 ∧
    s.settings.rho = ⟨1000000, 1000000⟩ ∧ (∀ sh, s.settings.job.get sh = ⟨950, 750, 50000, false⟩) ∧
    ∀ g ∈ s.settings.tables.toList, g = ⟨⟨0, 0, 0, 0, 0, 0⟩, ⟨5, 2, 0, 0, 3, 1⟩⟩)

/-- The laws that the invariants below say every step keeps all hold in the state after power-on. -/
def Obligations.LawsHoldAfterReset : Prop :=
  (SlotLaw State.reset ∧ StageLaw State.reset) ∧ (MarkLaw State.reset ∧ ChainLaw State.reset) ∧
    (RecordLaw State.reset ∧ SpindleLaw State.reset) ∧ (OrderLaw State.reset ∧ LaneLaw State.reset) ∧
    (PositionLaw State.reset ∧ WatchLaw State.reset ∧ StageWatchLaw State.reset) ∧ (CutRequestLaw State.reset ∧ LineLaw State.reset) ∧
    AttnLaw State.reset ∧ EepromLaw State.reset ∧ TrackingLaw State.reset ∧ IdLaw State.reset ∧
    (PlanLaw State.reset ∧ BlankLaw State.reset ∧ HeldCounts State.reset ∧ CauseLaw State.reset ∧
      OverrideLaw State.reset ∧ ClosingLaw State.reset)

/-! ## Laws that every step keeps -/

/-- Twice the approach entries, the nip entries of both shafts and the free slots always make 256, and the
approach stage and both nip stages stay in ascending order of position. -/
def Obligations.TravelListStaysSound : Prop :=
  StepKeeps fun s => SlotLaw s ∧ StageLaw s

/-- The marks chained to all reels and the free mark entries always make 2,048, no reel chains more than 64, every
chain stays in order of arrival position and every parent list in order of footage. -/
def Obligations.MarksStayAccounted : Prop :=
  StepKeeps fun s => MarkLaw s ∧ ChainLaw s

/-- The free count is always the number of FREE records, and the two reserved counts together never exceed it. The
closing list never holds two entries for one handle. -/
def Obligations.RecordsStayAccounted : Prop :=
  StepKeeps RecordLaw ∧ StepKeeps ClosingLaw

/-- In states that meet the laws of the reels, a spindle is EMPTY exactly while no record is on it, ACTIVE while
it is the active spindle of a shaft that is not IDLE and holds a record, and FULL otherwise. A plan never
holds more than 8 steps, and the current step lies in it, or is 0 while the shaft is IDLE. -/
def Obligations.SpindlesFollowTheirRecords : Prop :=
  (StepKeeps fun s => SpindleLaw s ∧ TrackingLaw s) ∧ StepKeeps PlanLaw

/-- Enabled lanes never overlap and lie within the web width, fields stay in their ranges, a reference flag stands
on an enabled lane and once for each shaft, UNTRACKED stands on an enabled lane without a current reel, and
the map order holds every lane once by left edge and lane number. -/
def Obligations.LanesStayApart : Prop :=
  StepKeeps fun s => LaneLaw s ∧ OrderLaw s

/-- P never exceeds 4,294,967,295, the residual lies below N_enc, and every setting in force lies in its range. -/
def Obligations.PositionStaysInRange : Prop :=
  StepKeeps PositionLaw

/-- An armed watch always lies beyond the current P. The knife watch stands at the first entry of the approach
stage, or is disarmed with its arrival waiting, and is disarmed while the stage is empty. A nip watch stands
at the first entry of its stage, or is disarmed with its arrival waiting or the entry held by the cut latch,
and is disarmed while the stage is empty. That arrivals wait in a list is the model's choice,
notes/assumptions/6.md. -/
def Obligations.ArmedWatchesLieAhead : Prop :=
  StepKeeps WatchLaw ∧ StepKeeps StageWatchLaw

/-- CUTREQ of a shaft is high exactly in CHANGE_PENDING. SLOW and STOP are high exactly while their hold is
active, STOP never without SLOW, and while a cause is present the lines show at least its level. Outside a
reset, the counts that the hold unit holds are the free travel slots and the free mark entries, which the
model keeps twice (notes/assumptions/27.md), UNTRACKED, POSITION_LIMIT and the four causes of each shaft are
present exactly while what feeds them holds, TRAVEL_LOW, TRAVEL_EMPTY and MARKS_LOW stand as their watermarks
say, and an active SLOW hold is demanded while the override runs. That the hold unit takes its reports at the
end of an event is the model's reading, notes/assumptions/12.md. -/
def Obligations.OutputLinesShowTheState : Prop :=
  (StepKeeps fun s => CutRequestLaw s ∧ LineLaw s) ∧
    StepKeeps fun s => BlankLaw s ∧ HeldCounts s ∧ CauseLaw s ∧ OverrideLaw s

/-- ATTN is low during any reset, and otherwise high exactly while an unmasked alert is set and the change tag
differs from the acked tag. From a power-on or a clearing reset until the load completes the blocks stand at
their power-on values. -/
def Obligations.AttentionFollowsTheAlerts : Prop :=
  StepKeeps AttnLaw

/-- The cells of the EEPROM stay in rising order below 2,048 and list no byte that reads as unwritten, and an
image being written is at most 2,048 bytes long. The canonical form is the model's own, the image's bound the
manual's. -/
def Obligations.EepromStaysCanonical : Prop :=
  StepKeeps EepromLaw

/-- Two reels of one lane and shaft, neither of a previous run, never cover a common position. A lane's current
reel is its WINDING reel, which is on an enabled lane of its shaft, and WINDING and ENDED reels stand on the
active spindle of a shaft that is not IDLE. -/
def Obligations.ReelsNeverOverlap : Prop :=
  StepKeeps TrackingLaw

/-- The ids of the records that are not FREE are distinct and from 1 to 4,294,967,295, and the id counter stays in
that range. -/
def Obligations.ReelIdsStayDistinct : Prop :=
  StepKeeps IdLaw

/-- In a step that leaves a handle's record in use, its opening fields and its end position are kept, its state
moves only along the table of section 3.2, no tally, dropped count, mark, parent entry or flag is lost and its
computed grade does not improve. Stated of states that meet the laws of the reels. -/
def Obligations.RecordsOnlyGrow : Prop :=
  ∀ s t : State, TrackingLaw s → step s = .next t → ∀ h, ∀ r ∈ s.reel h, ∀ q ∈ t.reel h,
    (q.id = r.id ∧ q.lane = r.lane ∧ q.shaft = r.shaft ∧ q.spindle = r.spindle ∧ q.start = r.start ∧ q.rho = r.rho ∧
      q.thickness = r.thickness ∧ q.packing = r.packing ∧ q.core = r.core ∧ q.limit = r.limit ∧ q.table = r.table ∧
      q.step = r.step ∧ q.ordinal = r.ordinal) ∧
    (q.state = r.state ∨ (r.state = .winding ∧ q.state = .ended) ∨ (r.state = .winding ∧ q.state = .doffing) ∨
      (r.state = .ended ∧ q.state = .doffing) ∨ (r.state = .doffing ∧ q.state = .doffed)) ∧
    (∀ e ∈ r.stopAt, q.stopAt = some e ∧ q.footage = r.footage) ∧
    (r.tallies.defect1 ≤ q.tallies.defect1 ∧ r.tallies.defect2 ≤ q.tallies.defect2 ∧
      r.tallies.defect3 ≤ q.tallies.defect3 ∧ r.tallies.defect4 ≤ q.tallies.defect4 ∧
      r.tallies.register ≤ q.tallies.register ∧ r.tallies.splice ≤ q.tallies.splice ∧
      r.tallies.flag ≤ q.tallies.flag ∧ r.dropped ≤ q.dropped) ∧
    (r.chain.Sublist q.chain ∧ r.parents.Sublist q.parents ∧ r.computed.rank ≤ q.computed.rank) ∧
    ((r.flags.limited → q.flags.limited) ∧ (r.flags.reversed → q.flags.reversed) ∧ (r.flags.short → q.flags.short) ∧
      (r.flags.overrun → q.flags.overrun) ∧ (r.flags.extra → q.flags.extra) ∧
      (r.flags.unplanned → q.flags.unplanned) ∧ (r.flags.lateStart → q.flags.lateStart) ∧
      (r.flags.laneClosed → q.flags.laneClosed) ∧ (r.flags.marksDropped → q.flags.marksDropped) ∧
      (r.flags.parentListFull → q.flags.parentListFull) ∧ (r.flags.unloadAssumed → q.flags.unloadAssumed) ∧
      (r.flags.lateMarks → q.flags.lateMarks) ∧ (r.flags.diaLimit → q.flags.diaLimit) ∧
      (r.flags.previousRun → q.flags.previousRun))

/-! ## The port and the frames -/

/-- In a reset a request changes nothing. During the settings load it is answered LOADING, with ANSWER_LOST if an
answer stood unread. While another request is in work it is discarded with a busy notice. Nothing but the port
changes. That a request command stands for its whole request where no transaction brought it is the model's
choice, notes/assumptions/3.md. -/
def Obligations.RequestsTurnedAway : Prop :=
  ∀ (i : Instr) (q : Request) (s : State), encodeRequest i = some q →
    (s.inReset = true → exec i s = .next s) ∧
    (s.inReset = false → s.store.loading = true → exec i s = .next { s with port := { s.port with
      transaction := .none, buffer := .ready ⟨.loading, q.code, [], s.port.buffer.isReady⟩ } }) ∧
    (s.inReset = false → s.store.loading = false → s.port.buffer = .working →
      (s.port.held.isSome ∨ s.port.inWork.bind decodeRequest ≠ some i) →
        exec i s = .next { s with port := { s.port with transaction := .none, notice := some q.code } })

/-- When the port takes requests and holds no operator mark, the transaction with a request's frame puts exactly
that request in work, and carrying it out from there gives the same state as the request's command alone,
which the model lets stand for the whole request (notes/assumptions/3.md). -/
def Obligations.RequestThroughThePort : Prop :=
  ∀ (i : Instr) (q : Request) (s : State), encodeRequest i = some q → i.wf = true → s.takesRequests →
    s.port.held = none →
      ∃ t, exec (.requestTransaction (requestFrame q)) s = .next t ∧ exec i t = exec i s ∧
        t = { s with port := { s.port with
          transaction := .none, buffer := .working, lost := s.port.buffer.isReady, inWork := some q } }

/-- The frame of a well-formed request, with its length byte and its CRC-16, passes the four checks of the port,
and its code and payload spell the request again with every operand at its value. -/
def Obligations.RequestFramesRoundTrip : Prop :=
  ∀ (i : Instr) (q : Request), encodeRequest i = some q → i.wf = true →
    frameValid (requestFrame q) = true ∧ frameCode (requestFrame q) = q.code ∧
      framePayload (requestFrame q) = q.payload ∧ decodeRequest q = some i

/-- For settings whose items all lie in range, a load after the whole image has been written puts exactly these
settings into force, and one whose reads are not all acknowledged accepts nothing. -/
def Obligations.SettingsImageRoundTrip : Prop :=
  ∀ (m : Memory) (st : Settings), Memory.wf m → st.valid = true →
    loadImage true (writeImage m st.image) = some st ∧ loadImage false (writeImage m st.image) = none

/-- The payloads of READ_DIGEST, CLEAR_ALERTS, QUERY_REEL, READ_MARKS, FIND_REEL, LIST_REELS, QUERY_LANE, the map
summary, QUERY_SHAFT, ADD_MARK and READ_SETTINGS have the lengths of the table and hold its fields at the
offsets that its order gives, each as a number of its length. -/
def Obligations.AnswersHaveTheirLayout : Prop :=
  ∀ s : State,
    (s.digestBytes.length = 127 ∧ s.settingsBytes.length = 252 ∧ (OrderLaw s → s.mapBytes.length = 172)) ∧
    (∀ n, (s.laneBytes n).length = 12) ∧ (∀ sel first, (s.reelList sel first).length = 110) ∧
    (∀ sh, (s.shaft sh).plan.length ≤ 8 → (s.shaftBytes sh).length = 235) ∧
    (∀ (r : Reel) (h : Handle) (x page : Nat), (r.header h x).length = 101 ∧ (r.markPage page).length = 185 ∧
      (r.found h x).length = 10) ∧
    (∀ ids : List Nat, ids.length ≤ 24 → (markAnswer ids).length = 97) ∧
    (∀ d : DigestUnit, (beBytes 3 d.setBits).length = 3 ∧ Shows (beBytes 3 d.setBits) [(0, 3, d.setBits)]) ∧
    (∀ i : Fin 20, s.digest.setBits.testBit i.val = (s.digest.alerts[i]).isSet ∧
      s.digest.maskBits.testBit i.val = (s.digest.alerts[i]).masked ∧
      Shows s.digestBytes [(10 + 2 * i.val, 2, (s.digest.alerts[i]).tag.toNat)]) ∧
    Shows s.digestBytes [(0, 2, s.digest.changeTag.toNat), (2, 2, s.digest.ackedTag.toNat), (4, 3, s.digest.setBits),
      (7, 3, s.digest.maskBits), (50, 4, s.position.p), (54, 1, (directionByte s.position.direction).toNat),
      (55, 1, (lineByte s.position.line).toNat), (56, 4, s.travel.staged.getD 0), (60, 4, s.travel.current.a),
      (64, 4, s.travel.current.b), (94, 2, s.travel.free), (96, 2, s.freeMarks), (98, 1, s.table.free),
      (99, 1, s.table.reserved.a), (100, 1, s.table.reserved.b), (101, 1, (levelByte s.hold.level).toNat),
      (102, 2, s.hold.causes.bits), (104, 1, (boolByte s.hold.override.isSome).toNat), (105, 2, s.hold.slowEntries),
      (107, 2, s.hold.stopEntries), (109, 2, s.hold.renewals), (111, 2, s.map.trim), (113, 2, s.link.badFrame),
      (115, 2, s.link.range), (117, 2, s.link.travelFull), (119, 2, s.link.loading), (121, 2, s.travel.spliceRefusals),
      (123, 2, s.travel.tooLate), (125, 1, bitSet [s.position.fault, s.store.defaulted]),
      (126, 1, (resetKindByte s.store.lastReset).toNat)] ∧
    (∀ sh, let at0 := match sh with
        | .a => 68
        | .b => 81
      let r := s.shaft sh
      Shows s.digestBytes [(at0, 1, (phaseByte r.phase).toNat), (at0 + 1, 1, (spindleStateByte r.spindle1).toNat),
        (at0 + 2, 1, (spindleStateByte r.spindle2).toNat), (at0 + 3, 1, r.step), (at0 + 4, 2, r.counter.toNat),
        (at0 + 6, 1, (reasonByte r.reason).toNat), (at0 + 7, 2, r.tension), (at0 + 9, 1, s.reelsIn sh .winding),
        (at0 + 10, 1, s.reelsIn sh .ended), (at0 + 11, 1, s.reelsIn sh .doffing), (at0 + 12, 1, s.reelsIn sh .doffed)]) ∧
    (∀ (r : Reel) (h : Handle) (x : Nat),
      Shows (r.header h x) [(0, 1, h.val), (1, 4, r.id), (5, 1, (reelStateByte r.state).toNat), (6, 1, r.lane.val + 1),
        (7, 1, (shaftByte r.shaft).toNat), (8, 1, (spindleByte r.spindle).toNat),
        (9, 1, bitSet [r.stopAt.isSome, r.override.isSome]), (10, 4, r.start), (14, 4, r.stopAt.getD 0), (18, 4, x),
        (22, 4, r.diameter), (26, 4, r.rho), (30, 1, r.thickness), (31, 2, r.packing), (33, 4, r.core), (37, 4, r.limit),
        (41, 1, r.table.val), (42, 1, r.step), (43, 2, r.ordinal.toNat), (45, 1, r.parents.length),
        (78, 2, r.tallies.defect1), (80, 2, r.tallies.defect2), (82, 2, r.tallies.defect3), (84, 2, r.tallies.defect4),
        (86, 2, r.tallies.register), (88, 2, r.tallies.splice), (90, 2, r.tallies.flag),
        (92, 1, (gradeByte (some r.computed)).toNat), (93, 1, (gradeByte r.override).toNat), (94, 1, r.chain.length),
        (95, 2, r.dropped), (97, 2, r.flags.bits), (99, 2, r.revision.toNat)] ∧
      (∀ (i : Fin 4) (e : ParentEntry), r.parents[i.val]? = some e →
        Shows (r.header h x) [(46 + 8 * i.val, 4, e.parent), (50 + 8 * i.val, 4, e.footage)]) ∧
      Shows (r.found h x) [(0, 4, r.id), (4, 1, h.val), (5, 1, (reelStateByte r.state).toNat),
        (6, 4, footageAt r.start r.rho x)]) ∧
    (∀ (r : Reel) (page : Nat),
      Shows (r.markPage page) [(0, 4, r.id), (4, 2, r.revision.toNat), (6, 1, r.chain.length), (7, 1, page),
        (8, 1, min 8 (r.chain.length - 8 * page))] ∧
      ∀ (i : Fin 8) (m : Mark), r.chain[8 * page + i.val]? = some m →
        let o := 9 + 22 * i.val
        Shows (r.markPage page) [(o, 1, (findingKind m.finding).toNat), (o + 1, 1, (findingClass m.finding).toNat),
          (o + 2, 1, (findingOrigin m.finding).toNat), (o + 3, 1, (boolByte m.late).toNat), (o + 4, 4, m.arrival),
          (o + 8, 2, m.offset), (o + 10, 2, m.width), (o + 12, 2, (findingError m.finding).toNat),
          (o + 14, 4, findingParent m.finding), (o + 18, 4, footageAt r.start r.rho m.arrival)]) ∧
    (∀ (sel : Option ReelState) (first : Handle),
      let listed := (allHandles.filter fun h => decide (first ≤ h) &&
        (s.reel h).any fun r => sel.all fun st => decide (r.state = st)).take 12
      Shows (s.reelList sel first) [(0, 1, listed.length), (1, 1, match listed[11]? with
        | some h => if h.val = 95 then 255 else h.val + 1
        | none => 255)] ∧
      ∀ (i : Fin 12) (h : Handle) (r : Reel), listed[i.val]? = some h → s.reel h = some r →
        let o := 2 + 9 * i.val
        Shows (s.reelList sel first) [(o, 1, h.val), (o + 1, 4, r.id), (o + 5, 1, (reelStateByte r.state).toNat),
          (o + 6, 1, r.lane.val + 1), (o + 7, 1, (shaftByte r.shaft).toNat),
          (o + 8, 1, (boolByte r.flags.previousRun).toNat)]) ∧
    (∀ n : Lane, let l := s.lane n
      Shows (s.laneBytes n) [(0, 1, n.val + 1), (1, 1, (boolByte l.enabled).toNat), (2, 2, l.edge), (4, 2, l.width),
        (6, 1, (shaftByte l.shaft).toNat), (7, 1, (boolByte l.reference).toNat),
        (8, 1, (l.current.map Fin.val).getD 255), (9, 2, l.tally), (11, 1, (boolByte l.untracked).toNat)]) ∧
    Shows s.mapBytes [(0, 2, s.settings.webWidth), (2, 2, s.map.trim)] ∧
    (∀ (i : Nat) (n : Lane), s.map.order[i]? = some n → let l := s.lane n
      let o := 4 + 7 * i
      Shows s.mapBytes [(o, 1, n.val + 1), (o + 1, 1, bitSet [l.enabled, l.reference, l.untracked]), (o + 2, 2, l.edge),
        (o + 4, 2, l.width), (o + 6, 1, (shaftByte l.shaft).toNat)]) ∧
    (∀ sh, (s.shaft sh).plan.length ≤ 8 →
      let r := s.shaft sh
      let j := s.settings.job.get sh
      let latch := s.position.latch.get sh
      Shows (s.shaftBytes sh) [(0, 1, (phaseByte r.phase).toNat), (1, 1, (spindleByte r.active).toNat),
        (2, 1, (spindleStateByte r.spindle1).toNat), (3, 1, (spindleStateByte r.spindle2).toNat), (4, 1, r.plan.length),
        (189, 1, r.step), (190, 2, r.counter.toNat), (192, 1, bitSet [r.firstFree, r.short, r.retry, latch.isSome]),
        (210, 1, (reasonByte r.reason).toNat), (211, 2, j.approach), (213, 2, j.window), (215, 4, j.overrun),
        (219, 1, (boolByte j.auto).toNat), (220, 1, s.table.reserved.get sh), (221, 4, latch.getD 0),
        (225, 2, s.position.bounces.get sh), (227, 2, r.ignoredCuts), (229, 2, r.tension),
        (231, 1, s.reelsIn sh .winding), (232, 1, s.reelsIn sh .ended), (233, 1, s.reelsIn sh .doffing),
        (234, 1, s.reelsIn sh .doffed)] ∧
      (∀ th, r.thresholds = some th → Shows (s.shaftBytes sh) [(193, 4, th.approach.position),
        (197, 4, th.window.position), (201, 4, th.due.position), (205, 4, th.overrun.position),
        (209, 1, bitSet [th.approach.fired, th.window.fired, th.due.fired, th.overrun.fired])]) ∧
      (r.thresholds = none → fieldAt (s.shaftBytes sh) 193 17 = 0) ∧
      ∀ (i : Nat) (st : PlanStep), r.plan[i]? = some st →
        let o := 5 + 23 * i
        Shows (s.shaftBytes sh) [(o, 2, st.count.toNat), (o + 2, 4, st.target), (o + 6, 4, st.core), (o + 10, 4, st.limit),
          (o + 14, 1, st.table.val), (o + 15, 2, st.baseTension), (o + 17, 2, st.taper), (o + 19, 4, st.span)]) ∧
    (∀ ids : List Nat, ids.length ≤ 24 → Shows (markAnswer ids) [(0, 1, ids.length)] ∧
      ∀ (i id : Nat), ids[i]? = some id → Shows (markAnswer ids) [(1 + 4 * i, 4, id)]) ∧
    let st := s.settings
    Shows s.settingsBytes [(0, 3, st.nEnc), (3, 2, st.stopTimeout), (5, 3, st.debounce), (8, 3, st.dIk), (11, 3, st.dSk),
      (14, 3, st.dKw.a), (17, 3, st.dKw.b), (20, 1, st.travelLower), (21, 2, st.travelUpper), (23, 2, st.markLower),
      (25, 2, st.markUpper), (27, 2, st.quantum), (29, 3, st.sweepInterval), (32, 4, st.reelIdCounter),
      (36, 2, st.webWidth), (38, 1, st.thickness), (39, 2, st.packing), (41, 3, st.rho.a), (44, 3, st.rho.b),
      (251, 1, (if s.store.save.isSome then 1 else 0) + 2 * saveResultCode s.store.lastSave +
        (if s.store.defaulted then 8 else 0) + (if s.store.preserve then 16 else 0))] ∧
    (∀ sh, let o := match sh with
        | .a => 47
        | .b => 53
      let j := st.job.get sh
      Shows s.settingsBytes [(o, 2, j.approach), (o + 2, 1, windowCode j.window + if j.auto then 128 else 0),
        (o + 3, 3, j.overrun)]) ∧
    ∀ i : Fin 8, let g := st.tables[i]
      let o := 59 + 24 * i.val
      Shows s.settingsBytes [(o, 2, g.rowA.defect1.toNat), (o + 2, 2, g.rowA.defect2.toNat),
        (o + 4, 2, g.rowA.defect3.toNat), (o + 6, 2, g.rowA.defect4.toNat), (o + 8, 2, g.rowA.register.toNat),
        (o + 10, 2, g.rowA.splice.toNat), (o + 12, 2, g.rowB.defect1.toNat), (o + 14, 2, g.rowB.defect2.toNat),
        (o + 16, 2, g.rowB.defect3.toNat), (o + 18, 2, g.rowB.defect4.toNat), (o + 20, 2, g.rowB.register.toNat),
        (o + 22, 2, g.rowB.splice.toNat)]

/-- A request that a save in flight does not make BUSY, with a shaft, spindle, lane, edit value, selection,
handle, page, grade, alert set, lane set, distance, step field, job item, table index or setting that lies
outside its range, is answered RANGE, and nothing but the port changes. -/
def Obligations.ValuesOutOfRangeAreRefused : Prop :=
  ∀ (i : Instr) (q : Request) (s : State), encodeRequest i = some q → outOfRange i = true → s.takesRequests →
    (s.store.save = none ∨ (q.code ≠ 0x21 ∧ q.code ≠ 0x24 ∧ q.code ≠ 0x40)) →
      exec i s = .next { s with port := s.port.answered q.code .range [] }

/-! ## Arithmetic and the parts that commands share -/

/-- For readings in their ranges the radicand lies below 2^63, the diameter is the greatest d whose square does
not exceed it, clamped to 1,500,000 with the clamp reported, and it lies from the core diameter to 1,500,000. -/
def Obligations.DiameterIsExact : Prop :=
  ∀ x : Readings, x.thickness ≤ 200 → x.packing ≤ 1200 → x.core ≤ 300000 → x.footage ≤ maxPosition →
    let q := x.core * x.core + 4 * x.thickness * x.footage * 1000 * 113 / 355 * x.packing / 1000
    q < 2 ^ 63 ∧ (∃ d, d * d ≤ q ∧ q < (d + 1) * (d + 1) ∧ x.diameter = min d 1500000 ∧
      (x.clamped = true ↔ 1500000 < d)) ∧ x.core ≤ x.diameter ∧ x.diameter ≤ 1500000

/-- The grade result is A when each of the six tallies is at most its maximum in the A row, otherwise B when each
is at most its maximum in the B row, otherwise REJECT. The FLAG tally is not read and the grades are ordered
A, B, REJECT. A landing grades with the table that the reel's index names as it stands then, and keeps the
worse of the old grade and the result. -/
def Obligations.GradeFollowsTheTallies : Prop :=
  (∀ (t : Tallies) (g : GradeTable),
    let inRow (m : Maxima) := t.defect1 ≤ m.defect1.toNat ∧ t.defect2 ≤ m.defect2.toNat ∧
      t.defect3 ≤ m.defect3.toNat ∧ t.defect4 ≤ m.defect4.toNat ∧ t.register ≤ m.register.toNat ∧
      t.splice ≤ m.splice.toNat
    (inRow g.rowA → gradeResult t g = .a) ∧ (¬ inRow g.rowA → inRow g.rowB → gradeResult t g = .b) ∧
      (¬ inRow g.rowA → ¬ inRow g.rowB → gradeResult t g = .reject) ∧
      ∀ n, gradeResult { t with flag := n } g = gradeResult t g) ∧
  (Grade.rank .a < Grade.rank .b ∧ Grade.rank .b < Grade.rank .reject) ∧
  ∀ (s : State) (h : Handle) (m : Mark) (r : Reel), s.reel h = some r →
    ∃ q, (s.land h m).reel h = some q ∧ q.table = r.table ∧
      q.computed.rank = max r.computed.rank (gradeResult q.tallies s.settings.tables[r.table]).rank

/-- The search by id returns a record that is not FREE and holds the id, finds none exactly where the id is 0 or
no record holds it, and finds every record, PREVIOUS_RUN or not, where the ids are distinct. QUERY_REEL,
READ_MARKS, OVERRIDE_GRADE and RETIRE answer UNKNOWN_REEL where it finds none. -/
def Obligations.ReelSearchById : Prop :=
  (∀ (s : State) (id : Nat),
    (∀ h, s.reelById id = some h → ∃ r, s.reel h = some r ∧ r.id = id) ∧
    (s.reelById id = none ↔ id = 0 ∨ ∀ h, ∀ r ∈ s.reel h, r.id ≠ id)) ∧
  (∀ s : State, s.reelById 0 = none) ∧
  (∀ s : State, IdLaw s → ∀ h, ∀ r ∈ s.reel h, s.reelById r.id = some h) ∧
  ∀ (s : State) (id : Word32), s.takesRequests → s.reelById id.toNat = none →
    exec (.queryReel id) s = .next { s with port := s.port.answered 0x10 .unknownReel [] } ∧
    (∀ page : Byte, page.toNat ≤ 7 →
      exec (.readMarks id page) s = .next { s with port := s.port.answered 0x13 .unknownReel [] }) ∧
    (∀ grade : Byte, grade.toNat ≤ 3 →
      exec (.overrideGrade id grade) s = .next { s with port := s.port.answered 0x36 .unknownReel [] }) ∧
    ∀ revision : Word16,
      exec (.retire id revision) s = .next { s with port := s.port.answered 0x37 .unknownReel [] }

/-- A landing on a reel counts the finding in the tally of its kind, chains the mark if the pool and the chain
have room and else drops it with the dropped count, MARKS_DROPPED and its alert, sets LATE_MARKS for a late
mark, and moves the revision once where the record changed, with LATE_CHANGE on a DOFFED reel. A splice
inserts its parent at its footage behind the entries of at most that footage, or sets PARENT_LIST_FULL on a
list of 4, and its footage sets LIMITED where it is clamped (notes/assumptions/23.md). State, id and all other
records are kept. -/
def Obligations.LandingsCountEveryFinding : Prop :=
  ∀ (s : State) (h : Handle) (m : Mark) (r : Reel), s.reel h = some r →
    let raw := ((m.arrival - r.start) * r.rho + 500000) / 1000000
    let before (e : ParentEntry) := decide (e.footage ≤ min raw maxPosition)
    let room := decide (1 ≤ s.freeMarks) && decide (r.chain.length < 64)
    let t := s.land h m
    ∃ q, t.reel h = some q ∧ q.id = r.id ∧ q.state = r.state ∧ q.stopAt = r.stopAt ∧ q.footage = r.footage ∧
      (match m.finding with
        | .defect 0 => q.tallies = { r.tallies with defect1 := satInc r.tallies.defect1 }
        | .defect 1 => q.tallies = { r.tallies with defect2 := satInc r.tallies.defect2 }
        | .defect 2 => q.tallies = { r.tallies with defect3 := satInc r.tallies.defect3 }
        | .defect 3 => q.tallies = { r.tallies with defect4 := satInc r.tallies.defect4 }
        | .register _ => q.tallies = { r.tallies with register := satInc r.tallies.register }
        | .splice _ => q.tallies = { r.tallies with splice := satInc r.tallies.splice }
        | .flag => q.tallies = { r.tallies with flag := satInc r.tallies.flag }) ∧
      (room = true → q.chain.Perm (m :: r.chain) ∧ r.chain.Sublist q.chain ∧ q.dropped = r.dropped ∧
        t.freeMarks = s.freeMarks - 1 ∧ q.flags.marksDropped = r.flags.marksDropped) ∧
      (room = false → q.chain = r.chain ∧ q.dropped = satInc r.dropped ∧ t.freeMarks = s.freeMarks ∧
        q.flags.marksDropped = true ∧ t.digest.alerts[Alert.index .marksDropped].isSet = true) ∧
      q.flags.lateMarks = (r.flags.lateMarks || m.late) ∧
      (∀ parent, m.finding = .splice parent → q.flags.limited = (r.flags.limited || decide (maxPosition < raw)) ∧
        (r.parents.length < 4 → q.flags.parentListFull = r.flags.parentListFull ∧ q.parents =
          r.parents.takeWhile before ++ [⟨parent, min raw maxPosition⟩] ++ r.parents.dropWhile before) ∧
        (4 ≤ r.parents.length → q.parents = r.parents ∧ q.flags.parentListFull = true)) ∧
      ((∀ parent, m.finding ≠ .splice parent) → q.parents = r.parents ∧ q.flags.limited = r.flags.limited ∧
        q.flags.parentListFull = r.flags.parentListFull) ∧
      (q = r ∨ q.revision = r.revision + 1) ∧
      (q ≠ r → r.state = .doffed → t.digest.alerts[Alert.index .lateChange].isSet = true) ∧
      t.digest.changeTag = s.digest.changeTag + (if room then 0 else 1) +
        (if q ≠ r ∧ r.state = .doffed then 1 else 0) ∧
      (∀ g, g ≠ h → t.reel g = s.reel g) ∧
      t = { s with table := t.table, freeMarks := t.freeMarks, digest := t.digest }

/-- The lane set of a shaft for an interval cut at the web width holds, in ascending lane number, exactly the
enabled lanes of the shaft that share a position with it, with the covered part as offset and width. The
finding counts as trim exactly when the cut interval is empty or holds a position that no enabled lane covers. -/
def Obligations.ResolutionCutsTheInterval : Prop :=
  ∀ (s : State) (x w : Nat),
    let hi := cutEnd s.settings.webWidth x w
    hi = min (x + max w 1) s.settings.webWidth ∧
    (∀ (sh : Shaft) (l : LaneHit), l ∈ s.laneSet sh x hi ↔
      (s.lane l.lane).enabled = true ∧ (s.lane l.lane).shaft = sh ∧
        max x (s.lane l.lane).edge < min hi ((s.lane l.lane).edge + (s.lane l.lane).width) ∧
        l.offset = max x (s.lane l.lane).edge - (s.lane l.lane).edge ∧
        l.width = min hi ((s.lane l.lane).edge + (s.lane l.lane).width) - max x (s.lane l.lane).edge) ∧
    (∀ sh, (s.laneSet sh x hi).Pairwise fun k l => k.lane < l.lane) ∧
    (s.isTrim x hi = true ↔ hi ≤ x ∨ ∃ y, x ≤ y ∧ y < hi ∧
      ∀ n, (s.lane n).enabled = true → ¬ ((s.lane n).edge ≤ y ∧ y < (s.lane n).edge + (s.lane n).width))

/-! ## Resets, the load and saves -/

/-- POWER_ON, a falling edge of nRST with the preserve flag clear outside a reset, and a RESET_PART taken with it
clear put every block at its power-on values and record the reset kind; the load begins at once or at
RESET_END. An edge in a reset is part of it. The EEPROM is kept where no save was in flight. That a POWER_ON
taken while nRST is low stays in the reset is the model's choice, notes/assumptions/4.md. -/
def Obligations.ClearingResetsStartAgain : Prop :=
  (∀ s : State, ∃ t, exec .powerOn s = .next t ∧ t.blank ∧ t.port = .initial ∧ t.link = .initial ∧
    t.digest = .initial ∧ t.store.loading = !s.inReset ∧ t.inReset = s.inReset ∧ t.store.lastReset = .powerOn ∧
    t.store.preserve = false ∧ t.store.defaulted = false ∧ t.store.lastSave = .none ∧
    (s.store.save = none → t.store.eeprom = s.store.eeprom)) ∧
  (∀ s : State, s.inReset = false → s.store.preserve = false → ∃ t, exec .warmReset s = .next t ∧ t.blank ∧
    t.port = .initial ∧ t.link = .initial ∧ t.digest = .initial ∧ t.store.loading = false ∧
    t.store.reset = .clearing ∧ t.store.lastReset = .warm ∧ t.store.defaulted = false ∧ t.store.lastSave = .none ∧
    (s.store.save = none → t.store.eeprom = s.store.eeprom)) ∧
  (∀ s : State, s.inReset = true → exec .warmReset s = .next s) ∧
  (∀ s : State, s.store.reset = .clearing →
    exec .resetEnd s = .next { s with store := { s.store with reset := .none, loading := true } }) ∧
  ∀ s : State, s.takesRequests → s.store.preserve = false → ∃ t, exec .resetPart s = .next t ∧ t.blank ∧
    t.port = .initial ∧ t.link = .initial ∧ t.digest = .initial ∧ t.store.loading = true ∧ t.inReset = false ∧
    t.store.lastReset = .warm ∧ t.store.defaulted = false ∧ t.store.lastSave = .none ∧
    (s.store.save = none → t.store.eeprom = s.store.eeprom)

/-- With the preserve flag set, the falling edge of nRST keeps the position unit, map, records, marks, travel
list, shafts, settings and engine, discards the port's work, holds no cause and keeps the lines; a save in
flight is abandoned with its result kept and each EEPROM byte old or the image's, which rests on the model's
choice of how an abandoned save writes, notes/assumptions/8.md. Its end keeps them but for what the engine's
choice of work writes, down to the tension alone of a shaft record, puts port, receiver and digest at their
reset values, and rebuilds causes and holds with fresh timers, one entry for each hold and lines that follow
the holds; where a hold stands, HOLD_CHANGED is raised with the digest's first tag and is all that the digest
shows. The engine takes the oldest closing entry that is not stale, an abandoned one first; without one the
owed sweep begins. RESET_PART with the flag set is the edge and the end in one event. What is reset at the
taking and what at the end is the model's reading, notes/assumptions/15.md, and RESET_PART in one event 16.md. -/
def Obligations.PreservingResetKeepsTracking : Prop :=
  (∀ s : State, s.inReset = false → s.store.preserve = true → s.store.save = none →
    ∃ t, exec .warmReset s = .next t ∧ t = { s with
      port := .initial, digest := { s.digest with attn := false },
      hold := { s.hold with causes := .empty },
      store := { s.store with preserve := false, lastReset := .preserved, reset := .preserving, loading := false } }) ∧
  (∀ (s : State) (image : List Byte), s.inReset = false → s.store.preserve = true → s.store.save = some image →
    Memory.wf s.store.eeprom → ∃ t, exec .warmReset s = .next t ∧
      t = { s with
        port := .initial, digest := { s.digest with attn := false },
        hold := { s.hold with causes := .empty },
        freeIndex := s.freeIndex + 1,
        store := { s.store with
          preserve := false
          lastReset := .preserved
          reset := .preserving
          loading := false
          save := none
          eeprom := t.store.eeprom } } ∧
      ∀ a, Memory.read t.store.eeprom a = Memory.read s.store.eeprom a ∨
        image[a]? = some (Memory.read t.store.eeprom a)) ∧
  (∀ s : State, s.takesRequests → s.store.preserve = true → ∃ u t, exec .warmReset s = .next u ∧
    exec .resetEnd u = .next t ∧ exec .resetPart s = .next t ∧ u.store.reset = .preserving) ∧
  ∀ s : State, s.store.reset = .preserving → s.store.loading = false → ∃ t, exec .resetEnd s = .next t ∧
    t = { s with
      table := { s.table with reels := t.table.reels }
      shafts := t.shafts
      engine := t.engine
      hold := t.hold
      port := .initial
      link := .initial
      digest := t.digest
      store := { s.store with reset := .none } } ∧
    (∀ sh, t.shaft sh = { s.shaft sh with tension := (t.shaft sh).tension }) ∧
    (t.hold.causes.any = true → t.digest = { DigestUnit.initial with
      changeTag := 1
      alerts := DigestUnit.initial.alerts.set (Alert.index .holdChanged) ⟨true, 1, false⟩
      attn := true }) ∧
    (t.hold.causes.any = false → t.digest = .initial) ∧
    t.hold.causes.travelLow = decide (s.travel.free ≤ s.settings.travelLower) ∧
    t.hold.causes.travelEmpty = decide (s.travel.free < 2) ∧
    t.hold.causes.marksLow = decide (s.freeMarks ≤ s.settings.markLower) ∧
    t.hold.causes.untracked = s.feedsUntracked ∧ t.hold.causes.positionLimit = s.position.fault ∧
    (∀ sh, t.hold.causes.records.get sh = (s.shaft sh).records ∧
      t.hold.causes.notUnloaded.get sh = (s.shaft sh).feedsNotUnloaded ∧
      t.hold.causes.overrun.get sh = (s.shaft sh).feedsOverrun ∧
      t.hold.causes.planEnd.get sh = decide ((s.shaft sh).phase = .runout)) ∧
    t.hold.override = none ∧ t.hold.renewals = 0 ∧
    t.hold.slow = (if t.hold.causes.any then some (s.now + s.settings.quantum) else none) ∧
    t.hold.stop = (if t.hold.causes.anyStop then some (s.now + s.settings.quantum) else none) ∧
    t.hold.slowEntries = (if t.hold.causes.any then 1 else 0) ∧
    t.hold.stopEntries = (if t.hold.causes.anyStop then 1 else 0) ∧
    t.hold.slowLine = t.hold.causes.any ∧ t.hold.stopLine = t.hold.causes.anyStop ∧
    t.hold.lastTravel = s.travel.free ∧ t.hold.lastMarks = s.freeMarks ∧
    let waiting := match s.engine.activity with
      | .closing x => if s.engine.closing.any fun e => decide (e.handle = x.handle) then s.engine.closing
        else ⟨x.handle, x.id⟩ :: s.engine.closing
      | _ => s.engine.closing
    (∀ old e later r, waiting = old ++ e :: later → (∀ o ∈ old, s.stale o) → s.reel e.handle = some r → r.id = e.id →
      t.table = s.table ∧ t.shafts = s.shafts ∧
      t.engine = ⟨.closing (r.readings e.handle r.footage), none, true, later⟩) ∧
    ((∀ e ∈ waiting, s.stale e) →
      (∀ h r, s.reel h = some r → r.state = .winding → (∀ g, g < h → ∀ q ∈ s.reel g, q.state ≠ .winding) →
        t.table = { s.table with reels := s.table.reels.set h (some (r.liveRead s.position.p)) } ∧ t.shafts = s.shafts ∧
        t.engine = ⟨.visiting (r.readings h (r.footageOf s.position.p)), some (h.val + 1), false, []⟩) ∧
      ((∀ h, ∀ r ∈ s.reel h, r.state ≠ .winding) → t.table = s.table ∧ t.engine = ⟨.idle, none, false, []⟩ ∧
        t.shafts = ⟨((s.writeTension .a).writeTension .b).shafts.a, ((s.writeTension .a).writeTension .b).shafts.b⟩))

/-- With a load in flight on a part at its power-on values, the completion puts the accepted image's items or the
defaults in force, shows SETTINGS_DEFAULTED and raises its alert only for a rejected image, takes the first
encoder reference, arms the sweep watch at the interval unless it is 0, and raises no hold. -/
def Obligations.SettingsLoadPutsTheImageInForce : Prop :=
  ∀ (acknowledged : Bool) (s : State), s.store.loading = true → s.inReset = false → s.blank →
    let image := loadImage acknowledged s.store.eeprom
    let loaded := image.getD .default
    ∃ t, exec (.settingsLoadComplete acknowledged) s = .next t ∧
      t = { s with
        position := { PositionUnit.initial with
          reference := s.encoder
          watches := { WatchTable.initial with
            sweep := if loaded.sweepInterval = 0 then none else some loaded.sweepInterval } }
        store := { s.store with settings := loaded, loading := false, defaulted := image.isNone }
        digest := t.digest } ∧
      (image.isSome → t.digest = s.digest) ∧
      (image = none → t.digest.changeTag = s.digest.changeTag + 1 ∧
        t.digest.alerts[Alert.index .settingsDefaulted] =
          ⟨true, s.digest.changeTag + 1, (s.digest.alerts[Alert.index .settingsDefaulted]).masked⟩)

/-- SAVE_SETTINGS composes the image of the settings in force and is answered OK, or BUSY while a save is in
flight. A completed save records DONE and clears SETTINGS_DEFAULTED, or FAILED. A completion with no save in
flight changes nothing, which is the model's choice, notes/assumptions/37.md. PRESERVE and CANCEL_PRESERVE set
and clear the preserve flag. -/
def Obligations.SavesAndThePreserveFlag : Prop :=
  ∀ s : State,
    (s.takesRequests → s.store.save = none → exec .saveSettings s = .next { s with
      store := { s.store with save := some s.settings.image }, port := s.port.answered 0x41 .ok [] }) ∧
    (s.takesRequests → s.store.save.isSome →
      exec .saveSettings s = .next { s with port := s.port.answered 0x41 .busy [] }) ∧
    (∀ image, s.store.save = some image →
      exec (.saveComplete .done) s = .next { s with store := { s.store with
        save := none, lastSave := .done, defaulted := false, eeprom := writeImage s.store.eeprom image } } ∧
      ∀ left, exec (.saveComplete (.failed left)) s = .next { s with store := { s.store with
        save := none, lastSave := .failed, eeprom := writeLeft s.store.eeprom left } }) ∧
    (s.store.save = none → ∀ o, exec (.saveComplete o) s = .next s) ∧
    (s.takesRequests → exec .preserve s = .next { s with
      store := { s.store with preserve := true }, port := s.port.answered 0x42 .ok [] }) ∧
    (s.takesRequests → exec .cancelPreserve s = .next { s with
      store := { s.store with preserve := false }, port := s.port.answered 0x43 .ok [] })

/-! ## Inputs and timers -/

/-- A level pair that follows the reference in the cycle adds 1,000 to the residual and moves P on, or holds P at
its limit with the residual 0 and the position-limit fault, whose cause brings STOP. The direction is FORWARD,
the line RUNNING with the stop timer started, and every watch that P has reached is disarmed and handed to its
owner in one arrival. That the arrivals wait in a list, and in which order, is the model's choice,
notes/assumptions/6.md. -/
def Obligations.ForwardCountsAdvanceThePosition : Prop :=
  ∀ (pair : Bool × Bool) (s : State), s.tracking = true → PositionLaw s → WatchLaw s → LineLaw s →
    pair = nextPair s.position.reference →
    let n := s.settings.nEnc
    let passed := s.position.p * n + s.position.r + 1000
    ∃ t, exec (.quadratureChange pair.1 pair.2) s = .next t ∧
      t = { s with encoder := pair, position := t.position, hold := t.hold, digest := t.digest } ∧
      (if s.position.p + (s.position.r + 1000) / n ≤ maxPosition then
        t.position.p * n + t.position.r = passed ∧ t.position.r < n ∧ t.position.fault = s.position.fault
      else t.position.p = maxPosition ∧ t.position.r = 0 ∧ t.position.fault = true) ∧
      t.position = { s.position with
        p := t.position.p
        r := t.position.r
        reference := pair
        direction := .forward
        line := .running
        stopTimer := some (s.now + s.settings.stopTimeout)
        fault := t.position.fault
        watches := t.position.watches
        arrivals := s.position.arrivals ++ allWatches.filterMap fun w => (s.watch w).bind fun x =>
          if x ≤ t.position.p then some ⟨w, x, t.position.p⟩ else none } ∧
      (∀ w, t.watch w = (s.watch w).filter fun x => decide (t.position.p < x)) ∧
      (t.position.fault = true → s.position.fault = false →
        t.digest.alerts[Alert.index .positionLimit].isSet = true ∧ (s.inReset = false → t.hold.stopLine = true)) ∧
      (t.position.fault = s.position.fault → t.hold = s.hold ∧ t.digest = s.digest)

/-- A level pair that the reference follows in the cycle subtracts 1,000 from the residual and moves P back, or
leaves both at 0 where the web would pass the start of the run. The direction is REVERSE, the line RUNNING,
and no watch moves. A pair that both lines change, or none, only becomes the reference, and without counting
only the pins change: that the pins move then is the model's reading, notes/assumptions/17.md. -/
def Obligations.ReverseCountsTakeThePositionBack : Prop :=
  ∀ (pair : Bool × Bool) (s : State),
    (s.tracking = true → PositionLaw s → s.position.reference = nextPair pair →
      let n := s.settings.nEnc
      let stands := s.position.p * n + s.position.r
      ∃ p r, exec (.quadratureChange pair.1 pair.2) s = .next { s with
          encoder := pair
          position := { s.position with
            p := p
            r := r
            reference := pair
            direction := .reverse
            line := .running
            stopTimer := some (s.now + s.settings.stopTimeout) } } ∧
        r < n ∧ p * n + r = stands - 1000) ∧
    (s.tracking = true → pair ≠ nextPair s.position.reference → s.position.reference ≠ nextPair pair →
      exec (.quadratureChange pair.1 pair.2) s =
        .next { s with encoder := pair, position := { s.position with reference := pair } }) ∧
    (s.tracking = false → exec (.quadratureChange pair.1 pair.2) s = .next { s with encoder := pair })

/-- The stop timer's expiry makes the line STOPPED. The gap timer's expiry in RECEIVING discards the frame as
BAD_FRAME with REPORTS_REFUSED and returns to HUNT. The override's expiry stops it and changes neither hold.
An expiry that no longer stands, because its timer has been stopped or runs to a later time, changes nothing:
that an expiry stands by the timebase alone is the model's reading, notes/assumptions/5.md. -/
def Obligations.TimersExpire : Prop :=
  ∀ s : State,
    (∀ e, s.position.stopTimer = some e → e ≤ s.now → exec .stopTimerExpiry s = .next { s with
      position := { s.position with line := .stopped, stopTimer := none } }) ∧
    ((∀ e ∈ s.position.stopTimer, s.now < e) → exec .stopTimerExpiry s = .next s) ∧
    (∀ e, s.hold.override = some e → e ≤ s.now → s.inReset = false → exec .overrideExpiry s = .next { s with
      hold := { s.hold with override := none } }) ∧
    ((∀ e ∈ s.hold.override, s.now < e) → exec .overrideExpiry s = .next s) ∧
    (∀ e, s.link.gap = some e → e ≤ s.now → s.link.phase = .receiving → s.inReset = false →
      ∃ t, exec .gapTimerExpiry s = .next t ∧
        t = { s with digest := t.digest, link := { s.link with
          phase := .hunt, bytes := [], gap := none, badFrame := satInc s.link.badFrame } } ∧
        t.digest.changeTag = s.digest.changeTag + 1 ∧
        (t.digest.alerts[Alert.index .reportsRefused]).isSet = true ∧
        (t.digest.alerts[Alert.index .reportsRefused]).tag = t.digest.changeTag) ∧
    ((∀ e ∈ s.link.gap, s.now < e) → exec .gapTimerExpiry s = .next s)

/-- At its expiry a demanded hold restarts one quantum after the expiry and counts a renewal, and one without
demand falls with its line; a STOP hold that falls takes an undemanded SLOW hold with it while the override
runs. HOLD_OVERRIDE starts the override and lets an undemanded SLOW hold fall. At every command but a power-on
and a reset, an inactive hold that is demanded becomes active with its expiry one quantum on and counts one
entry, an active one keeps its timer, and the SLOW hold falls where its demand has ended while the override
runs; this is stated where the lines show the holds, the override has left no undemanded SLOW hold and a load
in flight finds the power-on values, as O13 keeps them. HOLD_CHANGED is raised with the newest tag where the
level changes, and nowhere else; that it is the last alert of an event, and the event the whole command, is
the model's reading, notes/assumptions/12.md and 44.md. An expiry of an inactive hold, or one that the
timebase has not reached, is no event: notes/assumptions/5.md. -/
def Obligations.HoldsFallOrAreRenewed : Prop :=
  ∀ s : State, s.inReset = false →
    let announced (t : State) := (s.hold.level = t.hold.level → t.digest = s.digest) ∧
      (s.hold.level ≠ t.hold.level → t.digest.changeTag = s.digest.changeTag + 1 ∧ t.holdChanged)
    (∀ e, s.hold.slow = some e → e ≤ s.now → ∃ t, exec (.holdTimerExpiry .slow) s = .next t ∧
      t = { s with digest := t.digest, hold :=
        if s.hold.causes.any ∨ s.hold.stop.isSome then
          { s.hold with slow := some (e + s.settings.quantum), renewals := satInc s.hold.renewals }
        else { s.hold with slow := none, slowLine := false } } ∧
      announced t) ∧
    (∀ e, s.hold.stop = some e → e ≤ s.now → ∃ t, exec (.holdTimerExpiry .stop) s = .next t ∧
      t = { s with digest := t.digest, hold :=
        if s.hold.causes.anyStop then
          { s.hold with stop := some (e + s.settings.quantum), renewals := satInc s.hold.renewals }
        else if s.hold.slow.isSome ∧ s.hold.causes.any = false ∧ s.hold.override.isSome then
          { s.hold with stop := none, stopLine := false, slow := none, slowLine := false }
        else { s.hold with stop := none, stopLine := false } } ∧
      announced t) ∧
    ((∀ e ∈ s.hold.slow, s.now < e) → exec (.holdTimerExpiry .slow) s = .next s) ∧
    ((∀ e ∈ s.hold.stop, s.now < e) → exec (.holdTimerExpiry .stop) s = .next s) ∧
    (s.takesRequests → ∃ t, exec .holdOverride s = .next t ∧
      t = { s with port := s.port.answered 0x39 .ok [], digest := t.digest, hold :=
        if s.hold.slow.isSome ∧ s.hold.causes.any = false ∧ s.hold.stop = none then
          { s.hold with override := some (s.now + s.settings.quantum), slow := none, slowLine := false }
        else { s.hold with override := some (s.now + s.settings.quantum) } } ∧
      announced t) ∧
    (LineLaw s → OverrideLaw s → BlankLaw s → ∀ c, c ≠ .powerOn → c ≠ .resetPart →
      ∃ t, exec c s = .next t ∧ (t.inReset = false → s.holdsFollow t c))

/-- A pulse below the stamp plus its debounce, or taken while the unit takes no inputs, changes nothing. An
accepted one sets the stamp to P with the debounce distance in force, which it keeps
(notes/assumptions/33.md); then a splice out of range is ignored with POSITION_LIMIT, one without two free
slots is refused with its count and REPORTS_REFUSED, and any other takes two slots and the staged parent, with
PARENT_UNKNOWN where there is none. With D_sk at 0 it passes the knife at once and leaves a nip entry for the
enabled lanes on each shaft, stated where P has reached no other entry and no nip. The knife watch then stands
at the first approach entry, or its arrival is handed over (notes/assumptions/6.md), and at D_sk 0 each nip
watch at the first entry of its stage; no other watch moves. -/
def Obligations.SplicesEnterTheApproachStage : Prop :=
  ∀ s : State,
    let p := s.position.p
    let k := p + s.settings.dSk
    let reach := k + max s.settings.dKw.a s.settings.dKw.b
    let stamp : SpliceStamp := ⟨p, s.settings.debounce⟩
    let parent := s.travel.staged.getD 0
    let entry (sh : Shaft) : NipEntry :=
      ⟨.splice parent, p + s.settings.dKw.get sh, (s.enabledLanes sh).map fun n => ⟨n, 0, 0⟩, false⟩
    let accepted := ∀ x ∈ s.position.spliceStamp, min (x.position + x.debounce) maxPosition ≤ p
    (s.tracking = false ∨ ¬ accepted → exec .splicePulse s = .next s) ∧
    (s.tracking = true → accepted → ∃ t, exec .splicePulse s = .next t ∧
      t.position.spliceStamp = some stamp ∧
      (maxPosition < reach →
        t = { s with position := { s.position with spliceStamp := some stamp }, digest := t.digest } ∧
        (t.digest.alerts[Alert.index .positionLimit]).isSet = true) ∧
      (reach ≤ maxPosition → s.travel.free < 2 →
        t = { s with
          position := { s.position with spliceStamp := some stamp }
          travel := { s.travel with spliceRefusals := satInc s.travel.spliceRefusals }
          digest := t.digest } ∧
        (t.digest.alerts[Alert.index .reportsRefused]).isSet = true) ∧
      (reach ≤ maxPosition → 2 ≤ s.travel.free →
        (s.travel.staged = none → (t.digest.alerts[Alert.index .parentUnknown]).isSet = true) ∧
        (0 < s.settings.dSk →
          t = { s with
            position := { s.position with
              spliceStamp := some stamp, watches := t.position.watches, arrivals := t.position.arrivals }
            travel := { s.travel with
              free := s.travel.free - 2
              staged := none
              approach := insertApproach ⟨.splice parent, k, p⟩ s.travel.approach }
            hold := t.hold
            digest := t.digest } ∧
          t.knifeWatchSet ∧ (∀ w, w ≠ .knife → t.watch w = s.watch w) ∧
          s.position.arrivals <+: t.position.arrivals) ∧
        (s.settings.dSk = 0 → (∀ e ∈ s.travel.approach, p < e.knife) →
          (∀ sh, 0 < s.settings.dKw.get sh ∧ ∀ e ∈ s.travel.nip.get sh, p < e.arrival) →
          t = { s with
            position := { s.position with
              spliceStamp := some stamp, watches := t.position.watches, arrivals := t.position.arrivals }
            travel := { s.travel with
              free := s.travel.free - 2
              staged := none
              nip := ⟨insertNip (entry .a) s.travel.nip.a, insertNip (entry .b) s.travel.nip.b⟩ }
            hold := t.hold
            digest := t.digest } ∧
          t.knifeWatchSet ∧ (∀ sh, t.nipWatchSet sh) ∧
          (∀ w, w ≠ .knife → (∀ sh, w ≠ .nip sh) → t.watch w = s.watch w) ∧
          t.position.arrivals = s.position.arrivals)))

/-! ## Cuts -/

/-- While the position unit takes its inputs, a cut pulse stamps P into the shaft's absent latch, and on an
occupied latch counts a bounce and keeps the stamp. While it takes none the pulse changes nothing. A cut taken
by an IDLE shaft is counted as ignored and clears the latch without changing any record's state, and a held
operator mark of the shaft is attributed and its request completes, its flags stated where no nip entry is
itself an operator mark. The nip entries that P has reached are released with their slots, and the nip watch
is set. With no latched cut there is none to take, which is the model's reading, notes/assumptions/11.md. -/
def Obligations.CutPulsesAreStampedOnce : Prop :=
  ∀ (sh : Shaft) (s : State),
    (s.tracking = true → s.position.latch.get sh = none → exec (.cutPulse sh) s = .next { s with
      position := { s.position with latch := s.position.latch.set sh (some s.position.p) } }) ∧
    (s.tracking = true → (s.position.latch.get sh).isSome → exec (.cutPulse sh) s = .next { s with
      position := { s.position with bounces := s.position.bounces.set sh (satInc (s.position.bounces.get sh)) } }) ∧
    (s.tracking = false → exec (.cutPulse sh) s = .next s) ∧
    (s.position.latch.get sh = none → exec (.cutTaken sh) s = .next s) ∧
    ((s.position.latch.get sh).isSome → (s.shaft sh).phase = .idle → ∃ t, exec (.cutTaken sh) s = .next t ∧
      t.position = { s.position with
        latch := s.position.latch.set sh none, watches := t.position.watches,
        arrivals := s.position.arrivals } ∧
      (∀ w, w ≠ .nip sh → t.watch w = s.watch w) ∧ s.releasesNip t sh ∧
      t.shafts = s.shafts.set sh { s.shaft sh with ignoredCuts := satInc (s.shaft sh).ignoredCuts } ∧
      (∀ h, (t.reel h).map Reel.state = (s.reel h).map Reel.state) ∧
      (∀ m, s.port.held = some m → m.shaft = sh → m.attributed s t) ∧
      ((∀ m ∈ s.port.held, m.shaft ≠ sh) → t.port = s.port) ∧
      t = { s with
        position := t.position, shafts := t.shafts, map := t.map, table := t.table,
        freeMarks := t.freeMarks, travel := t.travel, hold := t.hold, digest := t.digest, port := t.port })

/-- A cut stamped at C and taken outside IDLE turns every WINDING and ENDED reel of the shaft to DOFFING. A
WINDING reel gets the end position C, or its start where C lies below it with REVERSED set, and the footage of
that position; an ENDED reel keeps its own. A set marked short gains SHORT. Unfired thresholds at or below C
are caught up with their alerts and OVERRUN. A FULL other spindle is unloaded: its DOFFING reels are DOFFED
with UNLOAD_ASSUMED and REEL_DOFFED. The other shaft's reels keep their state. The closed reels join the
closing list by handle, behind the entries waiting, and an idle engine takes the first. The nip entries that P
has reached are released with their slots, and the nip watch is set. A held operator mark of the shaft is
attributed to the records as they then stand, its flags stated where no nip entry is itself an operator mark;
the order of the two is notes/assumptions/38.md, and a splice that still waits at a cut beyond it 41.md. The
latch becomes absent, and position, residual, bounce counts, link, settings but for the reel id counter, and
the other shaft's record but for the retries raised for it (9.md) stay; arrivals still waiting keep their
places before any that the cut hands over (6.md). -/
def Obligations.CutsCloseTheSet : Prop :=
  ∀ (sh : Shaft) (c : Nat) (s : State), s.position.latch.get sh = some c → (s.shaft sh).phase ≠ .idle →
    let rear := (s.shaft sh).active.other
    let caught (k : Threshold) := (s.shaft sh).thresholds.any fun th =>
      !(th.get k).fired && decide ((th.get k).position ≤ c)
    ∃ t, exec (.cutTaken sh) s = .next t ∧
      t = { s with
        position := { s.position with
          latch := s.position.latch.set sh none
          watches := t.position.watches
          arrivals := t.position.arrivals }
        map := { s.map with lanes := t.map.lanes }
        table := t.table
        freeMarks := t.freeMarks
        travel := t.travel
        shafts := t.shafts
        engine := t.engine
        hold := t.hold
        port := t.port
        digest := t.digest
        store := { s.store with settings := { s.settings with reelIdCounter := t.settings.reelIdCounter } } } ∧
      s.position.arrivals <+: t.position.arrivals ∧
      t.shaft (other sh) = { s.shaft (other sh) with retriesDue := (t.shaft (other sh)).retriesDue } ∧
      (∀ n, t.lane n = { s.lane n with
        current := (t.lane n).current
        untracked := (t.lane n).untracked
        tally := (t.lane n).tally }) ∧
      (∀ n, n ∉ s.enabledLanes sh → (t.lane n).untracked = (s.lane n).untracked) ∧
      s.queuesWound t sh ∧ s.releasesNip t sh ∧
      (∀ w, w ≠ .nip sh → (∀ k, w ≠ .threshold sh k) → t.watch w = s.watch w) ∧
      (∀ h, ∀ r ∈ s.reel h, r.shaft = sh → (r.state = .winding ∨ r.state = .ended) →
        ∃ q ∈ t.reel h, q.id = r.id ∧ q.state = .doffing ∧
          ((s.shaft sh).short = true → q.flags.short = true) ∧
          (r.state = .ended → q.stopAt = r.stopAt ∧ q.footage = r.footage) ∧
          (r.state = .winding → q.stopAt = some (max c r.start) ∧
            q.flags.overrun = (r.flags.overrun || caught .overrun) ∧
            (r.start ≤ c → q.footage = min (((c - r.start) * r.rho + 500000) / 1000000) maxPosition) ∧
            (c < r.start → q.footage = 0 ∧ q.flags.reversed = true))) ∧
      (caught .approach = true → (t.digest.alerts[Alert.index (.approach sh)]).isSet = true) ∧
      (caught .due = true → (s.shaft sh).reason ≠ .length →
        (t.digest.alerts[Alert.index (.changeDue sh)]).isSet = true) ∧
      (caught .overrun = true → (t.digest.alerts[Alert.index (.overrun sh)]).isSet = true) ∧
      ((s.shaft sh).spindle rear = .full → (t.digest.alerts[Alert.index .reelDoffed]).isSet = true) ∧
      (∀ h, ∀ r ∈ s.reel h, r.shaft = sh → r.state = .doffing → ∃ q ∈ t.reel h, q.id = r.id ∧
        if (s.shaft sh).spindle rear = .full ∧ r.spindle = rear then q.state = .doffed ∧ q.flags.unloadAssumed = true
        else q.state = .doffing) ∧
      (∀ h, ∀ r ∈ s.reel h, r.shaft ≠ sh → ∃ q ∈ t.reel h, q.id = r.id ∧ q.state = r.state ∧ q.stopAt = r.stopAt) ∧
      (∀ m, s.port.held = some m → m.shaft = sh → m.attributed s t) ∧
      ((∀ m ∈ s.port.held, m.shaft ≠ sh) → t.port = s.port)

/-- The cut leaves a RUNOUT shaft as it counts; a FOREVER step or a counter above 1 moves the counter down by 1;
at 1 the next step is loaded, and without a next step the shaft enters RUNOUT with counter 0 and PLAN_END. The
active spindle changes, the reservation is released, the change-due reason, the flags of the change and CUTREQ
are cleared, the tension is the base tension of the step then current and its thresholds are computed from C,
each with its watch armed there, or its arrival handed over where P has reached it (notes/assumptions/6.md).
Each threshold stands its length beyond the start, the least whole number of mm not below length times
1,000,000 by the ratio, clamped to the greatest position and unfired: the target for due, the target with the
overrun allowance for overrun, and the floor of the target by the per-mille of the job for approach and
window. The count of raised retries goes to 0 (notes/assumptions/9.md); the plan, the count of ignored cuts
and the other shaft's reservation stay. -/
def Obligations.CutsCountThePlan : Prop :=
  (∀ (start target rho : Nat) (job : ShaftJob), 0 < rho →
    let th := thresholdsOf start target rho job
    let stands (length : Nat) (m : ThresholdMark) := m.fired = false ∧ ∃ d, length * 1000000 ≤ d * rho ∧
      (∀ k, length * 1000000 ≤ k * rho → d ≤ k) ∧ m.position = min (start + d) 4294967295
    stands target th.due ∧ stands (target * job.approach / 1000) th.approach ∧
      stands (target * job.window / 1000) th.window ∧ stands (target + job.overrun) th.overrun) ∧
  ∀ (sh : Shaft) (c : Nat) (st : PlanStep) (s : State), s.position.latch.get sh = some c → CutRequestLaw s →
    (s.shaft sh).phase ≠ .idle → (s.shaft sh).currentStep = some st →
    let r := s.shaft sh
    ∃ t q, exec (.cutTaken sh) s = .next t ∧ t.shaft sh = q ∧
      q = { r with
        phase := q.phase
        active := r.active.other
        spindle1 := q.spindle1
        spindle2 := q.spindle2
        step := q.step
        counter := q.counter
        firstFree := false
        thresholds := q.thresholds
        reason := .none
        short := false
        retry := false
        retriesDue := 0
        records := false
        tension := q.tension
        cutReq := false } ∧
      t.table.reserved = s.table.reserved.set sh 0 ∧
      (r.phase = .runout → q.phase = .runout ∧ q.step = r.step ∧ q.counter = r.counter) ∧
      (r.phase ≠ .runout → st.count = 0 ∨ 1 < r.counter.toNat →
        q.phase = .winding ∧ q.step = r.step ∧ q.counter = r.counter - 1) ∧
      (r.phase ≠ .runout → st.count ≠ 0 → r.counter.toNat ≤ 1 → ∀ later ∈ r.plan[r.step]?,
        q.phase = .winding ∧ q.step = r.step + 1 ∧ q.counter = later.count) ∧
      (r.phase ≠ .runout → st.count ≠ 0 → r.counter.toNat ≤ 1 → r.plan[r.step]? = none →
        q.phase = .runout ∧ q.step = r.step ∧ q.counter = 0 ∧ (t.digest.alerts[Alert.index (.planEnd sh)]).isSet) ∧
      (r.phase = .winding → (t.digest.alerts[Alert.index (.unplannedCut sh)]).isSet) ∧
      ∀ now ∈ q.currentStep, q.tension = now.baseTension ∧
        (let th := thresholdsOf c now.target (s.settings.rho.get sh) (s.settings.job.get sh)
         q.thresholds = some th ∧ ∀ k, t.armedAt (.threshold sh k) (th.get k).position)

/-- Each enabled lane of the shaft gets as its current reel a record that was FREE, WINDING on the other spindle
from C, or from the lane's latest end as the cut leaves it where that lies beyond C, with an id no record
held, the fields copied from the settings and the step then current, the shaft's current parent as the cut
finds it first in its parent list (also where a splice before C still waits for its release,
notes/assumptions/41.md), the plan step and counter after counting, EXTRA in RUNOUT and UNPLANNED for a cut
taken in WINDING, or it becomes UNTRACKED. No lane becomes UNTRACKED where the reservation and the unreserved
records suffice. No other lane's current reel changes. -/
def Obligations.CutsOpenTheNextSet : Prop :=
  ∀ (sh : Shaft) (c : Nat) (st : PlanStep) (s : State), s.position.latch.get sh = some c → RecordLaw s →
    (s.shaft sh).phase ≠ .idle → (s.shaft sh).currentStep = some st →
    ∃ t now, exec (.cutTaken sh) s = .next t ∧ (t.shaft sh).currentStep = some now ∧
      (∀ n ∈ s.enabledLanes sh,
        (∃ h r, (t.lane n).current = some h ∧ (t.lane n).untracked = false ∧ s.reel h = none ∧ t.reel h = some r ∧
          (∀ g, ∀ q ∈ s.reel g, q.id ≠ r.id) ∧
          r.state = .winding ∧ r.lane = n ∧ r.shaft = sh ∧ r.spindle = (s.shaft sh).active.other ∧
          r.start = max c (t.latestEnd n sh) ∧ r.stopAt = none ∧ r.rho = s.settings.rho.get sh ∧
          r.thickness = s.settings.thickness ∧ r.packing = s.settings.packing ∧ r.core = now.core ∧
          r.limit = now.limit ∧ r.table = now.table ∧ r.step = (t.shaft sh).step ∧ r.ordinal = (t.shaft sh).counter ∧
          r.diameter = now.core ∧ r.parents.head? = some ⟨s.travel.current.get sh, 0⟩ ∧ r.override = none ∧
          r.flags.extra = decide ((t.shaft sh).phase = .runout) ∧
          r.flags.unplanned = decide ((s.shaft sh).phase = .winding)) ∨
        ((t.lane n).current = none ∧ (t.lane n).untracked = true)) ∧
      ((s.enabledLanes sh).length ≤ s.table.free - (s.table.reserved.a + s.table.reserved.b) +
          (if (s.shaft sh).phase = .changePending then s.table.reserved.get sh else 0) →
        ∀ n ∈ s.enabledLanes sh, (t.lane n).untracked = false) ∧
      ∀ n, n ∉ s.enabledLanes sh → (t.lane n).current = (s.lane n).current

/-! ## The travel of findings -/

/-- The arrival takes from the approach stage the entries up to the first whose knife position lies beyond P.
Where P has reached no nip entry, old or new, each report taken gives a nip entry at its arrival position on
each shaft with a lane in its lane set and is counted in the trim tally where a part of it meets no enabled
lane, each splice gives one for the enabled lanes on both shafts, the nip stages gain them in order, and the
slots not kept are free again. The knife watch stands at the first entry left, or is disarmed, and so does the
nip watch of each shaft that gains an entry, disarmed as well where its first entry is held. No other watch
moves. With no arrival handed over nothing changes. That the oldest arrival of the watch is the one taken is
the model's choice, notes/assumptions/6.md. -/
def Obligations.KnifePassesTakeWhatTheWebHasReached : Prop :=
  ∀ (s : State),
    let p := s.position.p
    let arrivalOf (e : ApproachEntry) (sh : Shaft) := e.knife + s.settings.dKw.get sh
    let nips (sh : Shaft) (e : ApproachEntry) : List NipEntry :=
      match e.content with
      | .report f x w =>
        if s.laneSet sh x (cutEnd s.settings.webWidth x w) = [] then []
        else [⟨f, arrivalOf e sh, s.laneSet sh x (cutEnd s.settings.webWidth x w), decide (arrivalOf e sh < e.accepted)⟩]
      | .splice parent => [⟨.splice parent, arrivalOf e sh, (s.enabledLanes sh).map fun n => ⟨n, 0, 0⟩,
          decide (arrivalOf e sh < e.accepted)⟩]
    let trims (e : ApproachEntry) : Bool :=
      match e.content with
      | .report _ x w => s.isTrim x (cutEnd s.settings.webWidth x w)
      | .splice _ => false
    let taken := s.travel.approach.takeWhile fun e => decide (e.knife ≤ p)
    let added (sh : Shaft) := taken.flatMap (nips sh)
    (s.position.arrivals.find? (fun a => decide (a.watch = .knife)) = none → exec .knifeWatchArrival s = .next s) ∧
    (s.position.arrivals.find? (fun a => decide (a.watch = .knife)) ≠ none →
      ∃ t, exec .knifeWatchArrival s = .next t ∧
        t.travel.approach = s.travel.approach.dropWhile (fun e => decide (e.knife ≤ p)) ∧
        t.position = { s.position with
          watches := t.position.watches,
          arrivals := s.position.arrivals.eraseP fun a => decide (a.watch = .knife) } ∧
        t.knifeWatchSet ∧ (∀ sh, added sh ≠ [] → t.nipWatchSet sh) ∧
        (∀ w, w ≠ .knife → (∀ sh, added sh ≠ [] → w ≠ .nip sh) → t.watch w = s.watch w) ∧
        t = { s with
          position := t.position, map := t.map, table := t.table, freeMarks := t.freeMarks,
          travel := t.travel, hold := t.hold, digest := t.digest } ∧
        ((∀ sh, (∀ e ∈ taken, p < arrivalOf e sh) ∧ ∀ e ∈ s.travel.nip.get sh, p < e.arrival) →
          t.travel = { s.travel with
            free := t.travel.free
            approach := t.travel.approach
            nip := ⟨(added .a).foldl (fun l e => insertNip e l) s.travel.nip.a,
              (added .b).foldl (fun l e => insertNip e l) s.travel.nip.b⟩ } ∧
          t.travel.free + (added .a).length + (added .b).length = s.travel.free + 2 * taken.length ∧
          t.map = { s.map with trim := Nat.repeat satInc (taken.filter trims).length s.map.trim } ∧
          t.table = s.table ∧ t.freeMarks = s.freeMarks))

/-- The arrival releases the entries of the shaft's nip stage up to the first that lies beyond P or that the cut
latch holds, and returns one slot for each. One lane of one entry lands on the reel that covers its arrival
position, or counts in the lane's untracked tally, and in TOO_LATE for a late entry. A splice makes its parent
the shaft's current one. The nip watch then stands at the first entry left, or is disarmed where there is none
or the latch holds it, and no other watch moves. With no arrival handed over nothing changes: that an arrival
command takes the oldest waiting arrival of its watch is the model's choice, notes/assumptions/6.md. -/
def Obligations.ReleasePassesTakeWhatTheNipHasReached : Prop :=
  ∀ (sh : Shaft) (s : State),
    let released (e : NipEntry) := decide (e.arrival ≤ s.position.p) && !s.held sh e.arrival
    (s.position.arrivals.find? (fun a => decide (a.watch = .nip sh)) = none →
      exec (.nipWatchArrival sh) s = .next s) ∧
    (s.position.arrivals.find? (fun a => decide (a.watch = .nip sh)) ≠ none →
      ∃ t, exec (.nipWatchArrival sh) s = .next t ∧
        t.travel.nip = s.travel.nip.set sh ((s.travel.nip.get sh).dropWhile released) ∧
        t.travel.free = s.travel.free + ((s.travel.nip.get sh).takeWhile released).length ∧
        t.travel.approach = s.travel.approach ∧
        t.position = { s.position with
          watches := t.position.watches,
          arrivals := s.position.arrivals.eraseP fun a => decide (a.watch = .nip sh) } ∧
        t.nipWatchSet sh ∧ (∀ w, w ≠ .nip sh → t.watch w = s.watch w) ∧
        t = { s with
          position := t.position, map := t.map, table := t.table, freeMarks := t.freeMarks,
          travel := t.travel, hold := t.hold, digest := t.digest } ∧
        ∀ (f : Finding) (x : Nat) (l : LaneHit) (late : Bool), s.travel.nip.get sh = [⟨f, x, [l], late⟩] →
          x ≤ s.position.p → s.held sh x = false →
          (∀ h, s.coveringReel l.lane sh x = some h → t.table = (s.land h ⟨f, x, l.offset, l.width, late⟩).table ∧
            t.map = s.map ∧ t.travel.tooLate = s.travel.tooLate) ∧
          (s.coveringReel l.lane sh x = none → t.table = s.table ∧
            (t.lane l.lane).tally = satInc (s.lane l.lane).tally ∧
            t.travel.tooLate = if late then satInc s.travel.tooLate else s.travel.tooLate) ∧
          (∀ parent, f = .splice parent → t.travel.current = s.travel.current.set sh parent) ∧
          ((∀ parent, f ≠ .splice parent) → t.travel.current = s.travel.current))

/-! ## Thresholds, retries and the sweep engine -/

/-- The arrival is discarded where the shaft is IDLE, the threshold has fired or stands elsewhere, or a cut is
stamped below it. Otherwise the earlier thresholds at or below its position fire before it: the approach
raises its alert, the window opens, the due sets the reason LENGTH with its alert where that changes it and
with auto-change on in WINDING makes its attempt, which enters CHANGE_PENDING, or waits for the spindle or for
records (that the count of raised retries goes to 0 on entering is the model's reading,
notes/assumptions/9.md), and the overrun flags the WINDING reels of the shaft and raises its alert. That the
arrival taken is the oldest waiting of its watch is the model's choice, notes/assumptions/6.md. -/
def Obligations.ThresholdsFireOnce : Prop :=
  ∀ (sh : Shaft) (k : Threshold) (a : Arrival) (s : State),
    s.position.arrivals.find? (fun b => decide (b.watch = .threshold sh k)) = some a →
    let rest := s.position.arrivals.eraseP (fun b => decide (b.watch = .threshold sh k))
    let cutBelow := (s.position.latch.get sh).any fun c => decide (c < a.position)
    let r := s.shaft sh
    let lanes := (s.enabledLanes sh).length
    (∀ th, r.thresholds = some th →
      (r.phase = .idle ∨ (th.get k).fired = true ∨ (th.get k).position ≠ a.position ∨ cutBelow = true →
        exec (.thresholdArrival sh k) s = .next { s with position := { s.position with arrivals := rest } }) ∧
      (r.phase ≠ .idle → (th.get k).fired = false → (th.get k).position = a.position → cutBelow = false →
        let fires (j : Threshold) : Bool :=
          decide (j = k) || (decide (j ∈ earlierThresholds k) && !(th.get j).fired && decide ((th.get j).position ≤ a.position))
        let attempts := fires .due = true ∧ r.phase = .winding ∧ (s.settings.job.get sh).auto = true
        ∃ t now, exec (.thresholdArrival sh k) s = .next t ∧
          t.position = { s.position with arrivals := rest } ∧
          (∀ j, now.get j = ⟨(th.get j).position, (th.get j).fired || fires j⟩) ∧
          let due := { r with thresholds := some now, reason := if fires .due then .length else r.reason }
          (¬ attempts → t.shaft sh = due ∧ t.table.reserved = s.table.reserved) ∧
          (attempts → r.spindle r.active.other ≠ .empty →
            t.shaft sh = { due with retry := true } ∧ t.table.reserved = s.table.reserved) ∧
          (attempts → r.spindle r.active.other = .empty →
            s.table.free - (s.table.reserved.a + s.table.reserved.b) < lanes →
            t.shaft sh = { due with retry := true, records := true } ∧ t.table.reserved = s.table.reserved) ∧
          (attempts → r.spindle r.active.other = .empty →
            lanes ≤ s.table.free - (s.table.reserved.a + s.table.reserved.b) →
            t.shaft sh = { due with
              phase := .changePending
              cutReq := true
              retry := false
              retriesDue := 0
              records := false
              short := !now.window.fired && !r.firstFree } ∧
            t.table.reserved = s.table.reserved.set sh (s.table.reserved.get sh + lanes)) ∧
          t = { s with
            position := t.position, shafts := t.shafts, table := t.table, hold := t.hold,
            digest := t.digest } ∧
          t.shaft (other sh) = s.shaft (other sh) ∧
          (fires .approach = true → (t.digest.alerts[Alert.index (.approach sh)]).isSet) ∧
          (fires .due = true → r.reason ≠ .length → (t.digest.alerts[Alert.index (.changeDue sh)]).isSet) ∧
          (k = .overrun → (t.digest.alerts[Alert.index (.overrun sh)]).isSet ∧
            ∀ h, ∀ r ∈ s.reel h, r.shaft = sh → r.state = .winding → ∃ q ∈ t.reel h, q.flags.overrun = true ∧
              q.revision = if r.flags.overrun then r.revision else r.revision + 1) ∧
          (k ≠ .overrun → t.table = { s.table with reserved := t.table.reserved }))) ∧
    (r.thresholds = none →
      exec (.thresholdArrival sh k) s = .next { s with position := { s.position with arrivals := rest } })

/-- A retry that was raised is taken once. With none waiting it changes nothing more. It is cleared unless the
phase is WINDING, the reason stands and auto-change is on. It waits on where the other spindle is not EMPTY,
and with RECORDS presented where the records do not suffice. Otherwise it reserves a record for each enabled
lane and enters CHANGE_PENDING with CUTREQ high, short where the window has not fired and the first change is
not free. One retry command for each report is the model's reading, notes/assumptions/9.md. -/
def Obligations.AutomaticRetriesTestSpindleAndRecords : Prop :=
  ∀ (sh : Shaft) (due : Nat) (s : State),
    let r := s.shaft sh
    let lanes := (s.enabledLanes sh).length
    let enters := r.phase = .winding ∧ r.reason ≠ .none ∧ (s.settings.job.get sh).auto = true
    (r.retriesDue = 0 → exec (.automaticRetry sh) s = .next s) ∧
    (r.retriesDue = due + 1 → ∃ t, exec (.automaticRetry sh) s = .next t ∧
      t = { s with shafts := s.shafts.set sh (t.shaft sh), table := t.table, hold := t.hold, digest := t.digest } ∧
      (r.retry = false → t.shaft sh = { r with retriesDue := due } ∧ t.table = s.table) ∧
      (r.retry = true → ¬ enters → t.shaft sh = { r with retry := false, retriesDue := 0 } ∧ t.table = s.table) ∧
      (r.retry = true → enters → r.spindle r.active.other ≠ .empty →
        t.shaft sh = { r with retriesDue := due } ∧ t.table = s.table) ∧
      (r.retry = true → enters → r.spindle r.active.other = .empty →
        s.table.free - (s.table.reserved.a + s.table.reserved.b) < lanes →
        t.shaft sh = { r with retriesDue := due, records := true } ∧ t.table = s.table) ∧
      (r.retry = true → enters → r.spindle r.active.other = .empty →
        lanes ≤ s.table.free - (s.table.reserved.a + s.table.reserved.b) →
        t.shaft sh = { r with
          phase := .changePending, cutReq := true, retry := false, retriesDue := 0, records := false
          short := !r.windowOpen && !r.firstFree } ∧
        t.table = { s.table with reserved := s.table.reserved.set sh (s.table.reserved.get sh + lanes) }))

/-- SWEEP is answered OK. While a sweep is owed it changes nothing more. In a busy engine it sets the owed flag.
In an idle engine with no closing entry and no sweep in flight it begins the visit of the lowest WINDING
record, or with none ends the sweep at once. An arrival of the sweep watch does the same, and arms the watch
one interval on from its position, or hands its arrival over where P has reached that; with an interval of 0,
or beyond the greatest position, the watch is disarmed (notes/assumptions/39.md). The arrival taken leaves the
list of those waiting, the others keep their places before one handed over, and nothing else of the position
unit changes. In a reset it waits (the model's reading, notes/assumptions/13.md), and without an arrival
nothing changes: that the oldest waiting arrival is taken is the model's choice, notes/assumptions/6.md. -/
def Obligations.TriggersOweOneSweep : Prop :=
  ∀ s : State,
    (s.takesRequests → s.engine.owed = true →
      exec .sweep s = .next { s with port := s.port.answered 0x38 .ok [] }) ∧
    (s.takesRequests → s.engine.owed = false → s.engine.activity ≠ .idle → exec .sweep s = .next { s with
      port := s.port.answered 0x38 .ok [], engine := { s.engine with owed := true } }) ∧
    (s.takesRequests → s.engine = .initial → ∀ h r, s.reel h = some r → r.state = .winding →
      (∀ g, g < h → ∀ q ∈ s.reel g, q.state ≠ .winding) →
      exec .sweep s = .next { s with
        port := s.port.answered 0x38 .ok []
        table := { s.table with reels := s.table.reels.set h (some (r.liveRead s.position.p)) }
        engine := ⟨.visiting (r.readings h (r.footageOf s.position.p)), some (h.val + 1), false, []⟩ }) ∧
    (s.takesRequests → s.engine = .initial → (∀ h, ∀ r ∈ s.reel h, r.state ≠ .winding) →
      exec .sweep s = .next { s with
        port := s.port.answered 0x38 .ok []
        shafts := ⟨((s.writeTension .a).writeTension .b).shafts.a, ((s.writeTension .a).writeTension .b).shafts.b⟩ }) ∧
    (s.inReset = true → exec .sweepWatchArrival s = .next s) ∧
    (s.position.arrivals.find? (fun a => decide (a.watch = .sweep)) = none →
      exec .sweepWatchArrival s = .next s) ∧
    ∀ a, s.position.arrivals.find? (fun b => decide (b.watch = .sweep)) = some a → s.inReset = false →
      let x := a.position + s.settings.sweepInterval
      ∃ t, exec .sweepWatchArrival s = .next t ∧
        (s.settings.sweepInterval ≠ 0 → x ≤ maxPosition → t.armedAt .sweep x) ∧
        (s.settings.sweepInterval = 0 ∨ maxPosition < x → t.watch .sweep = none) ∧
        t.position = { s.position with
          watches := t.position.watches
          arrivals := (s.position.arrivals.eraseP fun b => decide (b.watch = .sweep)) ++
            (if s.settings.sweepInterval ≠ 0 ∧ x ≤ maxPosition ∧ x ≤ s.position.p then [⟨.sweep, x, s.position.p⟩]
              else []) } ∧
        (∀ w, w ≠ .sweep → t.watch w = s.watch w) ∧
        (s.engine.owed = true ∨ s.engine.activity ≠ .idle →
          t = { s with position := t.position, engine := { s.engine with owed := true } }) ∧
        (s.engine = .initial →
          (∀ h r, s.reel h = some r → r.state = .winding → (∀ g, g < h → ∀ q ∈ s.reel g, q.state ≠ .winding) →
            t = { s with
              position := t.position
              table := { s.table with reels := s.table.reels.set h (some (r.liveRead s.position.p)) }
              engine := ⟨.visiting (r.readings h (r.footageOf s.position.p)), some (h.val + 1), false, []⟩ }) ∧
          ((∀ h, ∀ r ∈ s.reel h, r.state ≠ .winding) → t = { s with
            position := t.position
            shafts := ⟨((s.writeTension .a).writeTension .b).shafts.a, ((s.writeTension .a).writeTension .b).shafts.b⟩ }))

/-- A completed visit writes its diameter where the record still holds the reel read and is WINDING, a completed
closing computation where it still holds the reel, with one revision for the write, and otherwise no diameter
changes. No record but the one read gets a new diameter. The engine then takes the oldest closing entry that
is not stale, else the next WINDING record of the sweep, else an owed sweep, whose first visit begins in the
same event or which ends at once without a WINDING record. A sweep that ends, be another owed or not, flags
every WINDING record at its limit with DIA_LIMIT, its alert and the reason DIAMETER where there was none, with
one revision where the flag was clear, beside the one of a visit's write that newly sets LIMITED and that of
the next visit's read (the model counts them as separate events, notes/assumptions/43.md), and writes the
tension of each running shaft from the diameter of its reference lane's reel, else its greatest, else the
core. A completion with no computation of its kind in progress changes nothing: the model's choice,
notes/assumptions/37.md. -/
def Obligations.ComputationsWriteOnlyTheirReel : Prop :=
  ∀ (x : Readings) (s : State), s.inReset = false →
    (s.engine.activity = .visiting x → ∃ t, exec .visitComplete s = .next t ∧
      (∀ h, (t.reel h).map Reel.diameter =
        (s.reel h).map fun r => if h = x.handle ∧ r.id = x.id ∧ r.state = .winding then x.diameter else r.diameter) ∧
      t = { s with table := t.table, shafts := t.shafts, engine := t.engine, hold := t.hold, digest := t.digest }) ∧
    (s.engine.activity = .closing x → ∃ t, exec .closingComplete s = .next t ∧
      (∀ h, (t.reel h).map Reel.diameter =
        (s.reel h).map fun r => if h = x.handle ∧ r.id = x.id then x.diameter else r.diameter) ∧
      (∀ r ∈ s.reel x.handle, r.id = x.id → r.state ≠ .winding → ∃ q ∈ t.reel x.handle,
        q.revision = r.revision + 1 ∧ q.flags.limited = (r.flags.limited || decide (1500000 < rawDiameter
          x.footage x.thickness x.packing x.core))) ∧
      t = { s with table := t.table, shafts := t.shafts, engine := t.engine, hold := t.hold, digest := t.digest }) ∧
    (∀ i, (i = .visitComplete ∧ s.engine.activity = .visiting x) ∨ (i = .closingComplete ∧ s.engine.activity = .closing x) →
      let stale (e : ClosingEntry) := ∀ r ∈ s.reel e.handle, r.id ≠ e.id
      let next (c : Nat) (h : Handle) (r : Reel) := s.reel h = some r ∧ r.state = .winding ∧ c ≤ h.val ∧
        ∀ g, c ≤ g.val → g < h → ∀ q ∈ s.reel g, q.state ≠ .winding
      let visit (h : Handle) (r : Reel) := Activity.visiting (r.readings h (r.footageOf s.position.p))
      let diameter (h : Handle) (r : Reel) := if h = x.handle ∧ r.id = x.id then x.diameter else r.diameter
      ∃ t, exec i s = .next t ∧
        (∀ old e later r, s.engine.closing = old ++ e :: later → (∀ o ∈ old, stale o) → s.reel e.handle = some r →
          r.id = e.id →
          t.engine = { s.engine with activity := .closing (r.readings e.handle r.footage), closing := later }) ∧
        ((∀ e ∈ s.engine.closing, stale e) →
          (∀ c h r, s.engine.sweep = some c → next c h r →
            t.engine = { s.engine with activity := visit h r, sweep := some (h.val + 1), closing := [] }) ∧
          (s.engine.sweep = none → s.engine.owed = true → ∀ h r, next 0 h r →
            t.engine = ⟨visit h r, some (h.val + 1), false, []⟩) ∧
          (s.engine.sweep = none → s.engine.owed = false → t.engine = ⟨.idle, none, false, []⟩) ∧
          let idles := ∀ g, ∀ q ∈ s.reel g, q.state ≠ .winding
          let ends := (∃ c ∈ s.engine.sweep, ∀ g : Handle, c ≤ g.val → ∀ q ∈ s.reel g, q.state ≠ .winding) ∨
            (s.engine.sweep = none ∧ s.engine.owed = true ∧ idles)
          ends →
            (s.engine.owed = false ∨ idles → t.engine = ⟨.idle, none, false, []⟩) ∧
            (s.engine.owed = true → ∀ h r, next 0 h r → t.engine = ⟨visit h r, some (h.val + 1), false, []⟩) ∧
            (∀ h, ∀ r ∈ s.reel h, r.state = .winding → ∃ q ∈ t.reel h,
              q.flags.diaLimit = (r.flags.diaLimit || decide (r.limit ≤ diameter h r)) ∧
              (i = .visitComplete ∨ ¬ (h = x.handle ∧ r.id = x.id) →
                let clamps := h = x.handle ∧ r.id = x.id ∧ x.clamped = true
                let visited := s.engine.owed = true ∧ ∀ g, g < h → ∀ u ∈ s.reel g, u.state ≠ .winding
                let counted := r.revision + (if clamps ∧ r.flags.limited = false then 1 else 0) +
                  (if q.flags.diaLimit = true ∧ r.flags.diaLimit = false then 1 else 0)
                let p := s.position.p
                let long := r.start ≤ p ∧ 4294967295 < ((p - r.start) * r.rho + 500000) / 1000000
                (visited → q.revision = counted + (if (p < r.start ∧ r.flags.reversed = false) ∨
                  (long ∧ r.flags.limited = false ∧ ¬ clamps) then 1 else 0)) ∧
                (¬ visited → q.revision = counted))) ∧
            ∀ sh,
              let gains := ∃ h, ∃ r ∈ s.reel h, r.shaft = sh ∧ r.state = .winding ∧ r.flags.diaLimit = false ∧
                r.limit ≤ diameter h r
              (gains → (t.digest.alerts[Alert.index (.diaLimit sh)]).isSet = true ∧
                (t.shaft sh).reason = (if (s.shaft sh).reason = .none then .diameter else (s.shaft sh).reason) ∧
                ((s.shaft sh).reason = .none → (t.digest.alerts[Alert.index (.changeDue sh)]).isSet = true)) ∧
              (¬ gains → t.shaft sh = { s.shaft sh with tension := (t.shaft sh).tension }) ∧
              ((s.shaft sh).phase = .idle → (t.shaft sh).tension = (s.shaft sh).tension) ∧
              ∀ st, (s.shaft sh).currentStep = some st → (s.shaft sh).phase ≠ .idle →
                let shows (d : Nat) := (t.shaft sh).tension = st.baseTension -
                  st.baseTension * st.taper * (min (max d st.core) st.span - st.core) / (1000 * (st.span - st.core))
                let reference (n : Lane) := (s.lane n).shaft = sh ∧ (s.lane n).reference = true
                (∀ n h r, reference n → (∀ m, reference m → m = n) → (s.lane n).current = some h → s.reel h = some r →
                  r.state = .winding → shows (diameter h r)) ∧
                ((∀ n, reference n → (s.lane n).current = none) →
                  (∀ h r, s.reel h = some r → r.shaft = sh → r.state = .winding →
                    (∀ g, ∀ q ∈ s.reel g, q.shaft = sh → q.state = .winding → diameter g q ≤ diameter h r) →
                    shows (diameter h r)) ∧
                  ((∀ h, ∀ r ∈ s.reel h, r.shaft = sh → r.state ≠ .winding) → shows st.core)))) ∧
    (s.engine.activity = .closing x ∨ s.engine.activity = .idle → exec .visitComplete s = .next s) ∧
    (s.engine.activity = .visiting x ∨ s.engine.activity = .idle → exec .closingComplete s = .next s)

/-! ## The two ports -/

/-- In HUNT the start byte 0x7E begins a frame and any other character, or one with a framing error, changes
nothing. In RECEIVING a character before the thirteenth is kept and the gap timer restarts for 2 ms; one with
a framing error discards the frame as BAD_FRAME with REPORTS_REFUSED and returns to HUNT with the timer
stopped. In a reset nothing changes, which is the model's reading, notes/assumptions/13.md. -/
def Obligations.CharactersBuildAFrame : Prop :=
  ∀ (char : Byte) (err : Bool) (s : State),
    (s.inReset = true → exec (.uartCharacter char err) s = .next s) ∧
    (s.inReset = false → s.link.phase = .hunt → char = 0x7E → exec (.uartCharacter char false) s = .next { s with
      link := { s.link with phase := .receiving, bytes := [], gap := some (s.now + 2) } }) ∧
    (s.inReset = false → s.link.phase = .hunt → char ≠ 0x7E ∨ err = true →
      exec (.uartCharacter char err) s = .next s) ∧
    (s.inReset = false → s.link.phase = .receiving → s.link.bytes.length < 12 →
      exec (.uartCharacter char false) s = .next { s with
        link := { s.link with bytes := s.link.bytes ++ [char], gap := some (s.now + 2) } }) ∧
    (s.inReset = false → s.link.phase = .receiving → ∃ t, exec (.uartCharacter char true) s = .next t ∧
      t = { s with digest := t.digest, link := { s.link with
        phase := .hunt, bytes := [], gap := none, badFrame := satInc s.link.badFrame } } ∧
      t.digest.changeTag = s.digest.changeTag + 1 ∧ (t.digest.alerts[Alert.index .reportsRefused]).isSet = true)

/-- The frame is checked for its length byte, CRC-16 and kind, then for the load in flight, then x, class and
knife position for RANGE, then the free slots for TRAVEL_FULL. A refusal moves its one counter and raises
REPORTS_REFUSED. An accepted report takes two slots and enters the approach stage at P − lag, or 0, plus D_ik.
Where P has reached that, it passes the knife at once: into the nip stages, stated where P has reached no nip
and no other entry, or for one lane whose nip P has reached and no cut holds, onto the reel there with the
late flag where it came too late, or into the untracked tally and TOO_LATE. The knife watch, and the nip watch
of a shaft that gains an entry, then stand at the first entries of their stages, or are disarmed, or their
arrival is handed over (notes/assumptions/6.md). The receiver is in HUNT with its timer stopped. -/
def Obligations.ReportsAreTestedInOrder : Prop :=
  ∀ (char : Byte) (s : State), s.inReset = false → s.link.phase = .receiving → s.link.bytes.length = 12 →
    let bytes := s.link.bytes ++ [char]
    let framed := byteAt bytes 0 = 10 ∧ (crc16 (bytes.take 11)).toNat = fieldAt bytes 11 2 ∧
      (byteAt bytes 1 = 1 ∨ byteAt bytes 1 = 2)
    let cls := (byteAt bytes 8).toNat
    let k := (s.position.p - fieldAt bytes 2 2) + s.settings.dIk
    let inRange := fieldAt bytes 4 2 < s.settings.webWidth ∧ (byteAt bytes 1 = 1 → 1 ≤ cls ∧ cls ≤ 4) ∧
      k + max s.settings.dKw.a s.settings.dKw.b ≤ maxPosition
    let hunting : Receiver := { s.link with phase := .hunt, bytes := [], gap := none }
    let finding (f : Finding) := if byteAt bytes 1 = 1 then (∃ c : Fin 4, f = .defect c ∧ cls = c.val + 1)
      else f = .register (BitVec.ofNat 16 (fieldAt bytes 9 2))
    let p := s.position.p
    let x := fieldAt bytes 4 2
    let hi := cutEnd s.settings.webWidth x (fieldAt bytes 6 2)
    let trimmed := { s.map with trim := if s.isTrim x hi then satInc s.map.trim else s.map.trim }
    let nip (sh : Shaft) := k + s.settings.dKw.get sh
    let refused (t : State) (link : Receiver) := t = { s with digest := t.digest, link := link } ∧
      t.digest.changeTag = s.digest.changeTag + 1 ∧ (t.digest.alerts[Alert.index .reportsRefused]).isSet = true
    ∃ t, exec (.uartCharacter char false) s = .next t ∧
      (¬ framed → refused t { hunting with badFrame := satInc s.link.badFrame }) ∧
      (framed → s.store.loading = true → refused t { hunting with loading := satInc s.link.loading }) ∧
      (framed → s.store.loading = false → ¬ inRange → refused t { hunting with range := satInc s.link.range }) ∧
      (framed → s.store.loading = false → inRange → s.travel.free < 2 →
        refused t { hunting with travelFull := satInc s.link.travelFull }) ∧
      (framed → s.store.loading = false → inRange → 2 ≤ s.travel.free → s.position.p < k →
        ∃ f, finding f ∧
          t = { s with
            link := hunting
            position := { s.position with watches := t.position.watches, arrivals := t.position.arrivals }
            travel := { s.travel with
              free := s.travel.free - 2
              approach := insertApproach ⟨.report f (fieldAt bytes 4 2) (fieldAt bytes 6 2), k, s.position.p⟩
                s.travel.approach }
            hold := t.hold
            digest := t.digest } ∧
          t.knifeWatchSet ∧ (∀ w, w ≠ .knife → t.watch w = s.watch w) ∧
          s.position.arrivals <+: t.position.arrivals) ∧
      (framed → s.store.loading = false → inRange → 2 ≤ s.travel.free → k ≤ p → (∀ e ∈ s.travel.approach, p < e.knife) →
        (∀ sh, ∀ e ∈ s.travel.nip.get sh, p < e.arrival) → ∃ f, finding f ∧
          let stage (sh : Shaft) := if s.laneSet sh x hi = [] then s.travel.nip.get sh
            else insertNip ⟨f, nip sh, s.laneSet sh x hi, false⟩ (s.travel.nip.get sh)
          (t.knifeWatchSet ∧ (∀ sh, s.laneSet sh x hi ≠ [] → t.nipWatchSet sh) ∧
            (∀ w, w ≠ .knife → (∀ sh, s.laneSet sh x hi ≠ [] → w ≠ .nip sh) → t.watch w = s.watch w) ∧
            t.position.arrivals = s.position.arrivals) ∧
          ((∀ sh, p < nip sh) →
            t = { s with
              link := hunting
              position := { s.position with watches := t.position.watches, arrivals := t.position.arrivals }
              map := trimmed
              travel := { s.travel with free := t.travel.free, nip := ⟨stage .a, stage .b⟩ }
              hold := t.hold
              digest := t.digest } ∧
            t.travel.free + (if s.laneSet .a x hi = [] then 0 else 1) + (if s.laneSet .b x hi = [] then 0 else 1) =
              s.travel.free) ∧
          ∀ (sh : Shaft) (l : LaneHit), s.laneSet sh x hi = [l] → s.laneSet (other sh) x hi = [] → nip sh ≤ p →
            s.held sh (nip sh) = false →
            let late := decide (nip sh < p)
            t = { s with
              link := hunting
              position := { s.position with watches := t.position.watches, arrivals := t.position.arrivals }
              map := t.map
              table := t.table
              freeMarks := t.freeMarks
              travel := { s.travel with tooLate := t.travel.tooLate }
              hold := t.hold
              digest := t.digest } ∧
            (∀ h, s.coveringReel l.lane sh (nip sh) = some h → t.map = trimmed ∧
              t.table = (s.land h ⟨f, nip sh, l.offset, l.width, late⟩).table ∧
              t.freeMarks = (s.land h ⟨f, nip sh, l.offset, l.width, late⟩).freeMarks ∧
              t.travel.tooLate = s.travel.tooLate) ∧
            (s.coveringReel l.lane sh (nip sh) = none → t.table = s.table ∧ t.freeMarks = s.freeMarks ∧
              (t.lane l.lane).tally = satInc (s.lane l.lane).tally ∧
              t.travel.tooLate = if late then satInc s.travel.tooLate else s.travel.tooLate))

/-- A request frame is answered LOADING during the load, leaves a busy notice while a request is in work, is
answered BAD_FRAME where a check fails, and RANGE or BUSY where it is well formed and spells no row. An answer
transaction composes the busy notice first, then NONE, WORKING or the answer, and only a frame shifted out
whole consumes. An ignored transaction, and any in a reset, changes nothing. The first byte decides the kind;
SDO is 0x00 in it, in a request and behind the frame of an answer. Marked readings: an ANSWER_END without an
answer transaction, or an ignored transaction within one, in notes/assumptions/18.md; RANGE or BUSY within the
transaction in 19.md. -/
def Obligations.TransactionsAreTakenAsTheBufferStands : Prop :=
  ∀ (frame : List Byte) (s : State),
    (transactionCommands [] = [.ignoredTransaction] ∧ ∀ first : Byte, transactionCommands (first :: frame) =
      if first = 0xA6 then [.requestTransaction frame]
      else if first = 0xA7 then [.answerStart, .answerEnd frame.length]
      else [.ignoredTransaction]) ∧
    (s.port.shiftedOut 0 = 0 ∧ (∀ place, (s.port.start .request).shiftedOut place = 0) ∧
      ∀ shown f, s.port.transaction = .answer shown f → ∀ place,
        (place < f.length → f[place]? = some (s.port.shiftedOut (place + 1))) ∧
        (f.length ≤ place → s.port.shiftedOut (place + 1) = 0)) ∧
    exec .ignoredTransaction s = .next s ∧
    (s.inReset = true → exec (.requestTransaction frame) s = .next s ∧ exec .answerStart s = .next s) ∧
    (s.inReset = false → s.store.loading = true → exec (.requestTransaction frame) s = .next { s with
      port := { s.port with
        transaction := .none, buffer := .ready ⟨.loading, frame.getD 1 0, [], s.port.buffer.isReady⟩ } }) ∧
    (s.inReset = false → s.store.loading = false → s.port.buffer = .working →
      exec (.requestTransaction frame) s = .next { s with
        port := { s.port with transaction := .none, notice := some (frame.getD 1 0) } }) ∧
    (s.takesRequests → frameValid frame = false → exec (.requestTransaction frame) s = .next { s with
      port := { s.port with
        transaction := .none, buffer := .ready ⟨.badFrame, frame.getD 1 0, [], s.port.buffer.isReady⟩ } }) ∧
    (s.takesRequests → frameValid frame = true → decodeRequest ⟨frameCode frame, framePayload frame⟩ = none →
      exec (.requestTransaction frame) s = .next { s with
        port := s.port.answered (frameCode frame) (if frameCode frame = 0x40 ∧ s.store.save.isSome then .busy else .range) [] }) ∧
    (s.inReset = false → ∃ shown f, exec .answerStart s = .next { s with
        port := { s.port with transaction := .answer shown f } } ∧
      (∀ code, s.port.notice = some code → shown = .notice ∧ f = answerFrame .busy 2 code []) ∧
      (s.port.notice = none → s.port.buffer = .empty → shown = .empty ∧ f = answerFrame .none 0 0 []) ∧
      (s.port.notice = none → s.port.buffer = .working → ∀ q, s.port.inWork = some q →
        shown = .working ∧ f = answerFrame .working 0 q.code []) ∧
      (s.port.notice = none → ∀ a, s.port.buffer = .ready a →
        shown = .answer ∧ f = answerFrame a.code (if a.lost then 1 else 0) a.request a.payload)) ∧
    (∀ clocked, s.port.transaction = .none → exec (.answerEnd clocked) s = .next s) ∧
    ∀ shown f clocked, s.port.transaction = .answer shown f →
      (clocked < f.length →
        exec (.answerEnd clocked) s = .next { s with port := { s.port with transaction := .none } }) ∧
      (f.length ≤ clocked → exec (.answerEnd clocked) s = .next { s with port := { s.port with
        transaction := .none
        notice := if shown = .notice then none else s.port.notice
        buffer := if shown = .answer then .empty else s.port.buffer } })

/-- ACK_DIGEST makes the tag the acked tag. CLEAR_ALERTS clears the listed alerts whose raise tag is not newer
than the tag, by the difference modulo 65,536, and answers the alert set. SET_ALERT_MASK masks the named
alerts and unmasks every other. ATTN then shows whether an unmasked alert is set and the tags differ. Sets of
the 20 alerts only; others are in ValuesOutOfRangeAreRefused. -/
def Obligations.AlertRequestsAct : Prop :=
  ∀ (tag : Word16) (alerts : BitVec 24) (s : State), s.takesRequests →
    let follows (d : DigestUnit) := d.attn = true ↔
      (∃ c ∈ d.alerts.toList, c.isSet = true ∧ c.masked = false) ∧ d.changeTag ≠ d.ackedTag
    (∃ d, exec (.ackDigest tag) s = .next { s with port := s.port.answered 0x02 .ok [], digest := d } ∧ follows d ∧
      d = { s.digest with ackedTag := tag, attn := d.attn }) ∧
    (alerts.toNat < 2 ^ 20 → ∃ d, exec (.clearAlerts tag alerts) s = .next { s with
        port := s.port.answered 0x03 .ok (beBytes 3 (bitSet (d.alerts.toList.map AlertCell.isSet))), digest := d } ∧
      follows d ∧ d.changeTag = s.digest.changeTag ∧ d.ackedTag = s.digest.ackedTag ∧
      ∀ i : Fin 20, d.alerts[i] =
        if alerts.getLsbD i = true ∧ ¬ (1 ≤ ((s.digest.alerts[i]).tag - tag).toNat ∧
            ((s.digest.alerts[i]).tag - tag).toNat ≤ 32767) then { s.digest.alerts[i] with isSet := false }
        else s.digest.alerts[i]) ∧
    (alerts.toNat < 2 ^ 20 → ∃ d, exec (.setAlertMask alerts) s = .next { s with
        port := s.port.answered 0x04 .ok [], digest := d } ∧
      follows d ∧ d.changeTag = s.digest.changeTag ∧ d.ackedTag = s.digest.ackedTag ∧
      ∀ i : Fin 20, d.alerts[i] = { s.digest.alerts[i] with masked := alerts.getLsbD i })

/-! ## Queries -/

/-- READ_DIGEST, LIST_REELS, READ_MARKS, FIND_REEL, QUERY_SHAFT, QUERY_LANE, MAP_SUMMARY and READ_SETTINGS answer
OK with their payloads, or UNKNOWN_REEL where no reel covers a position, and change only the port. QUERY_REEL
answers the header with the fixed footage, or with the live footage of a WINDING reel, whose record keeps what
that reading sets: the footage is that of P, clamped with LIMITED, or 0 with REVERSED below the start, the
revision moves by 1 where a flag is newly set, and nothing else of the record changes. The reel that covers a
position of a lane on a shaft is a record in use without PREVIOUS_RUN, of that lane and shaft, that starts at
most there and is WINDING or ends beyond it; none is found exactly where there is none, and where the tracking
laws hold every one is found. That the header shows the record after its live reading is the model's reading,
notes/assumptions/20.md. -/
def Obligations.QueriesOnlyAnswer : Prop :=
  (∀ (r : Reel) (p : Nat),
    let raw := ((p - r.start) * r.rho + 500000) / 1000000
    let long := r.start ≤ p ∧ 4294967295 < raw
    r.footageOf p = (if r.start ≤ p then min raw 4294967295 else 0) ∧
    r.liveRead p = { r with
      flags := { r.flags with
        limited := r.flags.limited || decide long
        reversed := r.flags.reversed || decide (p < r.start) }
      revision := r.revision + (if (long ∧ r.flags.limited = false) ∨ (p < r.start ∧ r.flags.reversed = false)
        then 1 else 0) }) ∧
  (∀ (s : State) (n : Lane) (sh : Shaft) (x : Nat),
    let covers (r : Reel) := r.flags.previousRun = false ∧ r.lane = n ∧ r.shaft = sh ∧ r.start ≤ x ∧
      (r.state = .winding ∨ ∃ e ∈ r.stopAt, x < e)
    (∀ h, s.coveringReel n sh x = some h → ∃ r ∈ s.reel h, covers r) ∧
    (s.coveringReel n sh x = none ↔ ∀ h, ∀ r ∈ s.reel h, ¬ covers r) ∧
    (TrackingLaw s → ∀ h, ∀ r ∈ s.reel h, covers r → s.coveringReel n sh x = some h)) ∧
  ∀ s : State, s.takesRequests →
    let answers (i : Instr) (request : Byte) (payload : List Byte) :=
      exec i s = .next { s with port := s.port.answered request .ok payload }
    answers .readDigest 0x01 s.digestBytes ∧ answers .readSettings 0x16 s.settingsBytes ∧
    answers .mapSummary 0x15 s.mapBytes ∧
    (∀ (n : Lane) (lane : Byte), lane.toNat = n.val + 1 → answers (.queryLane lane) 0x15 (s.laneBytes n) ∧
      ∀ (sh : Shaft) (x : Word32),
        (s.coveringReel n sh x.toNat = none → exec (.findReel lane (shaftByte sh) x) s =
          .next { s with port := s.port.answered 0x11 .unknownReel [] }) ∧
        ∀ h r, s.coveringReel n sh x.toNat = some h → s.reel h = some r →
          answers (.findReel lane (shaftByte sh) x) 0x11 (r.found h x.toNat)) ∧
    (∀ sh, answers (.queryShaft (shaftByte sh)) 0x14 (s.shaftBytes sh)) ∧
    (∀ h : Handle, answers (.listReels 0 (byteOf h.val)) 0x12 (s.reelList none h) ∧
      ∀ st : ReelState, answers (.listReels (reelStateByte st) (byteOf h.val)) 0x12 (s.reelList (some st) h)) ∧
    ∀ (id : Word32) (h : Handle) (r : Reel), s.reelById id.toNat = some h → s.reel h = some r →
      (∀ page : Byte, page.toNat ≤ 7 → answers (.readMarks id page) 0x13 (r.markPage page.toNat)) ∧
      (r.state ≠ .winding → answers (.queryReel id) 0x10 (r.header h r.footage)) ∧
      (r.state = .winding → exec (.queryReel id) s = .next { s with
        port := s.port.answered 0x10 .ok ((r.liveRead s.position.p).header h (r.footageOf s.position.p))
        table := { s.table with reels := s.table.reels.set h (some (r.liveRead s.position.p)) } })

/-! ## Lanes -/

/-- GEOMETRY answers RANGE, LINE_MOVING, LANE_ACTIVE or OVERLAP in this order and otherwise writes edge and width
and moves the lane in the map order; RANGE beyond the web width answers a disabled lane too, as R27 says
against R18 (notes/assumptions/42.md). SHAFT needs both shafts IDLE and clears the reference flag. REFERENCE
on needs an enabled lane and clears the flag on every other lane of its shaft; off clears the lane's.
CLEAR_TALLY clears the lane's untracked tally, or the trim tally for lane 0. -/
def Obligations.LaneEditsFollowTheirRules : Prop :=
  (∀ s : State, s.takesRequests → exec (.setLaneClearTally 0) s = .next { s with
    port := s.port.answered 0x20 .ok [], map := { s.map with trim := 0 } }) ∧
  ∀ (n : Lane) (lane : Byte) (s : State), lane.toNat = n.val + 1 → s.takesRequests →
    let l := s.lane n
    let answers (i : Instr) (code : AnswerCode) := exec i s = .next { s with port := s.port.answered 0x20 code [] }
    let writes (i : Instr) (x : LaneRec) := exec i s = .next { s with
      port := s.port.answered 0x20 .ok [], map := { s.map with lanes := s.map.lanes.set n x } }
    (∀ edge width : Word16,
      let i := Instr.setLaneGeometry lane edge width
      let e := edge.toNat
      let w := width.toNat
      let fits := e ≤ 39900 ∧ 100 ≤ w ∧ w ≤ 40000 ∧ e + w ≤ s.settings.webWidth
      let meets := l.enabled = true ∧ ∃ m, m ≠ n ∧ (s.lane m).enabled = true ∧
        max e (s.lane m).edge < min (e + w) ((s.lane m).edge + (s.lane m).width)
      (¬ fits → answers i .range) ∧
      (fits → s.position.line = .running → answers i .lineMoving) ∧
      (fits → s.position.line = .stopped → l.current.isSome → answers i .laneActive) ∧
      (fits → s.position.line = .stopped → l.current = none → meets → answers i .overlap) ∧
      (fits → s.position.line = .stopped → l.current = none → ¬ meets → exec i s = .next { s with
        port := s.port.answered 0x20 .ok []
        map := { s.map with
          lanes := s.map.lanes.set n { l with edge := e, width := w }, order := s.moveLane n e } })) ∧
    (∀ (c : Word16) (sh : Shaft), c.toNat = shaftCode sh →
      ((s.shaft l.shaft).phase = .idle ∧ (s.shaft sh).phase = .idle →
        writes (.setLaneShaft lane c) { l with shaft := sh, reference := false }) ∧
      (¬ ((s.shaft l.shaft).phase = .idle ∧ (s.shaft sh).phase = .idle) → answers (.setLaneShaft lane c) .state)) ∧
    (l.enabled = true → ∃ t, exec (.setLaneReference lane 1) s = .next t ∧
      t = { s with port := s.port.answered 0x20 .ok [], map := { s.map with lanes := t.map.lanes } } ∧
      ∀ m, t.lane m = if m = n then { l with reference := true }
        else if (s.lane m).shaft = l.shaft then { s.lane m with reference := false } else s.lane m) ∧
    (l.enabled = false → answers (.setLaneReference lane 1) .state) ∧
    writes (.setLaneReference lane 0) { l with reference := false } ∧
    writes (.setLaneClearTally lane) { l with tally := 0 }

/-- ENABLE on an enabled lane is answered OK; otherwise a range beyond the web answers RANGE and one that meets an
enabled lane OVERLAP. On an IDLE shaft it only enables; on a running one it opens a reel from P, or from the
lane's latest end beyond P, with LATE_START, EXTRA in RUNOUT, the fields of the settings and of the current
step and an id no record holds, or without an unreserved record sets UNTRACKED, which brings SLOW. DISABLE
ends the current reel at P with LANE_CLOSED and clears the lane's flags. No other lane and no other record
changes. -/
def Obligations.EnablingOpensALateReel : Prop :=
  ∀ (n : Lane) (lane : Byte) (s : State), lane.toNat = n.val + 1 → s.takesRequests →
    let l := s.lane n
    let r := s.shaft l.shaft
    let spare := s.table.free - (s.table.reserved.a + s.table.reserved.b)
    let answers (i : Instr) (code : AnswerCode) := exec i s = .next { s with port := s.port.answered 0x20 code [] }
    let fits := l.edge + l.width ≤ s.settings.webWidth
    let meets := ∃ m, m ≠ n ∧ (s.lane m).enabled = true ∧
      max l.edge (s.lane m).edge < min (l.edge + l.width) ((s.lane m).edge + (s.lane m).width)
    (l.enabled = true → answers (.setLaneEnable lane) .ok) ∧
    (l.enabled = false → ¬ fits → answers (.setLaneEnable lane) .range) ∧
    (l.enabled = false → fits → meets → answers (.setLaneEnable lane) .overlap) ∧
    (l.enabled = false → l.untracked = false → fits → ¬ meets → r.phase = .idle →
      exec (.setLaneEnable lane) s = .next { s with
        port := s.port.answered 0x20 .ok []
        map := { s.map with lanes := s.map.lanes.set n { l with enabled := true } } }) ∧
    (l.enabled = false → l.untracked = false → fits → ¬ meets → r.phase ≠ .idle → RecordLaw s →
      ∃ t, exec (.setLaneEnable lane) s = .next t ∧ (∀ m, m ≠ n → t.lane m = s.lane m) ∧
        t = { s with
          port := s.port.answered 0x20 .ok [], map := t.map, table := t.table, shafts := t.shafts,
          store := t.store, hold := t.hold, digest := t.digest } ∧
        (∀ st, r.currentStep = some st → 1 ≤ spare → ∃ h q, s.reel h = none ∧ t.reel h = some q ∧
          t.lane n = { l with enabled := true, current := some h } ∧ (∀ g, g ≠ h → t.reel g = s.reel g) ∧
          q = s.openedReel q.id (max s.position.p (s.latestEnd n l.shaft)) n l.shaft r.active st r.step r.counter
            { ReelFlags.none with lateStart := true, extra := decide (r.phase = .runout) } ∧
          (∀ g, ∀ u ∈ s.reel g, u.id ≠ q.id) ∧
          ((∀ g, ∀ u ∈ s.reel g, u.id ≠ s.settings.reelIdCounter) → q.id = s.settings.reelIdCounter) ∧
          t.store = { s.store with settings := { s.settings with
            reelIdCounter := if q.id < maxPosition then q.id + 1 else 1 } } ∧
          t.table.free + 1 = s.table.free ∧ t.table.reserved = s.table.reserved) ∧
        (spare = 0 → t.lane n = { l with enabled := true, current := none, untracked := true } ∧
          t.table = s.table ∧ (LineLaw s → s.feedsUntracked = false → t.hold.slowLine = true))) ∧
    (l.enabled = false → answers (.setLaneDisable lane) .ok) ∧
    (l.enabled = true → ∃ t, exec (.setLaneDisable lane) s = .next t ∧
      t = { s with
        port := s.port.answered 0x20 .ok [], map := t.map, table := t.table, hold := t.hold,
        digest := t.digest } ∧
      (∀ m, t.lane m = if m = n then
        { l with enabled := false, current := none, reference := false, untracked := false } else s.lane m) ∧
      (∀ h, l.current ≠ some h → t.reel h = s.reel h) ∧
      ∀ h q, l.current = some h → s.reel h = some q → ∃ u, t.reel h = some u ∧ u.state = .ended ∧
        u.flags.laneClosed = true ∧ u.stopAt = some (max s.position.p q.start) ∧ u.revision = q.revision + 1 ∧
        u.chain = q.chain ∧ u.tallies = q.tallies ∧
        (q.start ≤ s.position.p → u.footage = min (((s.position.p - q.start) * q.rho + 500000) / 1000000) maxPosition) ∧
        (s.position.p < q.start → u.footage = 0 ∧ u.flags.reversed = true))

/-! ## Jobs, plans and shafts -/

/-- SET_JOB is answered BUSY during a save, RANGE for a web width out of range or short of an enabled lane,
LINE_MOVING for a new web width while the line runs, and otherwise writes every item. A plan step beyond the
next number is RANGE, one at or before the current step STATE, and otherwise appended or replaced. CLEAR_PLAN
needs IDLE. A grade table is BUSY during a save. STAGE_PARENT stages the id, 0 for none. -/
def Obligations.JobsAndPlansAreWritten : Prop :=
  ∀ s : State, s.takesRequests →
    let answers (i : Instr) (request : Byte) (code : AnswerCode) :=
      exec i s = .next { s with port := s.port.answered request code [] }
    (∀ j : JobFields, outOfRange (.setJob j) = false →
      let web := j.webWidth.toNat
      let item (x : ShaftJobFields) : ShaftJob := ⟨x.approach.toNat, x.window.toNat, x.overrun.toNat, decide (x.auto = 1)⟩
      let renewed := web ≠ s.settings.webWidth
      let fits := 1000 ≤ web ∧ web ≤ 40000 ∧ ∀ n, (s.lane n).enabled = true → (s.lane n).edge + (s.lane n).width ≤ web
      (s.store.save.isSome → answers (.setJob j) 0x21 .busy) ∧
      (s.store.save = none → renewed → ¬ fits → answers (.setJob j) 0x21 .range) ∧
      (s.store.save = none → renewed → fits → s.position.line = .running → answers (.setJob j) 0x21 .lineMoving) ∧
      (s.store.save = none → (renewed → fits ∧ s.position.line = .stopped) → exec (.setJob j) s = .next { s with
        port := s.port.answered 0x21 .ok []
        store := { s.store with settings := { s.settings with
          webWidth := web
          thickness := j.thickness.toNat
          packing := j.packing.toNat
          rho := ⟨j.rhoA.toNat, j.rhoB.toNat⟩
          job := ⟨item j.shaftA, item j.shaftB⟩ } } })) ∧
    (∀ (sh : Shaft) (number : Byte) (f : StepFields) (g : Fin 8),
      outOfRange (.setPlanStep (shaftByte sh) number f) = false → f.table.toNat = g.val →
      let i := Instr.setPlanStep (shaftByte sh) number f
      let r := s.shaft sh
      let k := number.toNat
      let st : PlanStep :=
        ⟨f.count, f.target.toNat, f.core.toNat, f.limit.toNat, g, f.baseTension.toNat, f.taper.toNat, f.span.toNat⟩
      (r.plan.length + 1 < k → answers i 0x22 .range) ∧
      (k ≤ r.plan.length + 1 → r.phase ≠ .idle → k ≤ r.step → answers i 0x22 .state) ∧
      (k ≤ r.plan.length + 1 → r.phase = .idle ∨ r.step < k → exec i s = .next { s with
        port := s.port.answered 0x22 .ok []
        shafts := s.shafts.set sh { r with
          plan := if k = r.plan.length + 1 then r.plan ++ [st] else r.plan.set (k - 1) st } })) ∧
    (∀ sh, ((s.shaft sh).phase = .idle → exec (.clearPlan (shaftByte sh)) s = .next { s with
        port := s.port.answered 0x23 .ok [], shafts := s.shafts.set sh { s.shaft sh with plan := [] } }) ∧
      ((s.shaft sh).phase ≠ .idle → answers (.clearPlan (shaftByte sh)) 0x23 .state)) ∧
    (∀ (index : Fin 8) (g : GradeTable),
      (s.store.save.isSome → answers (.setGradeTable (byteOf index) g) 0x24 .busy) ∧
      (s.store.save = none → exec (.setGradeTable (byteOf index) g) s = .next { s with
        port := s.port.answered 0x24 .ok []
        store := { s.store with settings := { s.settings with tables := s.settings.tables.set index g } } })) ∧
    ∀ parent : Word32, exec (.stageParent parent) s = .next { s with
      port := s.port.answered 0x25 .ok []
      travel := { s.travel with staged := if parent = 0 then none else some parent.toNat } }

/-- START_SHAFT is answered STATE, NOT_UNLOADED or NO_RECORDS in this order; otherwise the shaft is WINDING on an
EMPTY spindle with step 1 and the first change free, thresholds from P, each with its watch armed there or its
arrival handed over where P has reached it (notes/assumptions/6.md), and every enabled lane has a new reel
from P, or from the lane's latest end beyond P, with the fields of the settings and of the first step and an
id no record held. The count of raised retries goes to 0 in both, the model's reading, notes/assumptions/9.md.
STOP_SHAFT is answered STATE or LINE_MOVING; otherwise the WINDING and ENDED reels are DOFFING with one
revision more, a WINDING one ended at P with the footage of P, or at its start with footage 0 and REVERSED
where P lies below it, and no other record changes; the closed reels join the closing list by handle, behind
the entries waiting, where an idle engine takes the first; the shaft is IDLE with its plan and active spindle
kept and no step, thresholds, tension or reservation, and its lanes have no current reel. Each keeps the rest
of the position unit, the map order and trim tally, the travel list, the mark pool, the link and the settings
but for the reel id counter, START_SHAFT keeps the other shaft's record, STOP_SHAFT all of it but the retries
raised for it. -/
def Obligations.ShaftsStartAndStop : Prop :=
  ∀ (sh : Shaft) (s : State), s.takesRequests →
    let r := s.shaft sh
    let b := shaftByte sh
    let spare := s.table.free - (s.table.reserved.a + s.table.reserved.b)
    let answers (i : Instr) (request : Byte) (code : AnswerCode) :=
      exec i s = .next { s with port := s.port.answered request code [] }
    let rests := r.phase = .idle ∧ s.position.latch.get sh = none
    (r.plan = [] ∨ ¬ rests → answers (.startShaft b) 0x30 .state) ∧
    (r.plan ≠ [] → rests → r.spindle1 ≠ .empty → r.spindle2 ≠ .empty → answers (.startShaft b) 0x30 .notUnloaded) ∧
    (r.plan ≠ [] → rests → r.spindle1 = .empty ∨ r.spindle2 = .empty → spare < (s.enabledLanes sh).length →
      answers (.startShaft b) 0x30 .noRecords) ∧
    (∀ st later, r.plan = st :: later → rests → r.spindle1 = .empty ∨ r.spindle2 = .empty →
      (s.enabledLanes sh).length ≤ spare → RecordLaw s →
      ∃ t, exec (.startShaft b) s = .next t ∧
        t = { s with
          port := s.port.answered 0x30 .ok []
          position := { s.position with watches := t.position.watches, arrivals := t.position.arrivals }
          map := { s.map with lanes := t.map.lanes }
          table := { s.table with reels := t.table.reels, free := t.table.free }
          shafts := t.shafts
          hold := t.hold
          digest := t.digest
          store := { s.store with settings := { s.settings with reelIdCounter := t.settings.reelIdCounter } } } ∧
        t.table.free + (s.enabledLanes sh).length = s.table.free ∧ s.position.arrivals <+: t.position.arrivals ∧
        t.shaft sh = { r with
          phase := .winding
          active := if r.spindle1 = .empty then .one else .two
          spindle1 := (t.shaft sh).spindle1
          spindle2 := (t.shaft sh).spindle2
          step := 1
          counter := st.count
          firstFree := true
          thresholds := some (thresholdsOf s.position.p st.target (s.settings.rho.get sh) (s.settings.job.get sh))
          reason := .none
          short := false
          retry := false
          retriesDue := 0
          records := false
          tension := st.baseTension
          cutReq := false } ∧
        (let th := thresholdsOf s.position.p st.target (s.settings.rho.get sh) (s.settings.job.get sh)
         ∀ k, t.armedAt (.threshold sh k) (th.get k).position) ∧
        (∀ w, (∀ k, w ≠ .threshold sh k) → t.watch w = s.watch w) ∧
        t.shaft (other sh) = s.shaft (other sh) ∧
        (∀ n, n ∉ s.enabledLanes sh → t.lane n = s.lane n) ∧
        (∀ n ∈ s.enabledLanes sh, ∃ h q, s.reel h = none ∧ t.reel h = some q ∧
          t.lane n = { s.lane n with current := some h, untracked := false } ∧
          (∀ g, ∀ u ∈ s.reel g, u.id ≠ q.id) ∧
          q = s.openedReel q.id (max s.position.p (s.latestEnd n sh)) n sh (t.shaft sh).active st 1 st.count .none) ∧
        ∀ h, (s.reel h).isSome → t.reel h = s.reel h) ∧
    (¬ (r.phase ≠ .idle ∧ s.position.latch.get sh = none) → answers (.stopShaft b) 0x31 .state) ∧
    (r.phase ≠ .idle → s.position.latch.get sh = none → s.position.line = .running →
      answers (.stopShaft b) 0x31 .lineMoving) ∧
    (r.phase ≠ .idle → s.position.latch.get sh = none → s.position.line = .stopped →
      ∃ t, exec (.stopShaft b) s = .next t ∧
        t = { s with
          port := s.port.answered 0x31 .ok []
          position := { s.position with watches := t.position.watches }
          map := { s.map with lanes := t.map.lanes }
          table := { s.table with reels := t.table.reels, reserved := s.table.reserved.set sh 0 }
          shafts := t.shafts
          engine := t.engine
          hold := t.hold
          digest := t.digest } ∧
        t.shaft (other sh) = { s.shaft (other sh) with retriesDue := (t.shaft (other sh)).retriesDue } ∧
        t.shaft sh = { r with
          phase := .idle
          spindle1 := (t.shaft sh).spindle1
          spindle2 := (t.shaft sh).spindle2
          step := 0
          counter := 0
          firstFree := false
          thresholds := none
          reason := .none
          short := false
          retry := false
          retriesDue := 0
          records := false
          tension := 0
          cutReq := false } ∧
        (∀ k, t.watch (.threshold sh k) = none) ∧ (∀ w, (∀ k, w ≠ .threshold sh k) → t.watch w = s.watch w) ∧
        s.queuesWound t sh ∧
        (∀ n, t.lane n = if (s.lane n).shaft = sh then { s.lane n with current := none, untracked := false }
          else s.lane n) ∧
        ∀ h, t.reel h = (s.reel h).map fun q =>
          if q.shaft = sh ∧ (q.state = .winding ∨ q.state = .ended) then
            let length := ((s.position.p - q.start) * q.rho + 500000) / 1000000
            let closed := { q with state := .doffing, revision := q.revision + 1 }
            if q.state = .ended then closed
            else if q.start ≤ s.position.p then { closed with
              stopAt := some s.position.p
              footage := min length maxPosition
              flags := { q.flags with limited := q.flags.limited || decide (maxPosition < length) } }
            else { closed with stopAt := some q.start, footage := 0, flags := { q.flags with reversed := true } }
          else q)

/-- CHANGE is answered OK in CHANGE_PENDING, STATE in IDLE and RUNOUT, EARLY before the window without force,
NOT_UNLOADED, or NO_RECORDS, presenting RECORDS where the change-due reason stands; otherwise it reserves a
record for each enabled lane and raises CUTREQ. CANCEL_CHANGE returns to WINDING, releases the reservation and
keeps the change-due reason (notes/assumptions/36.md). That the count of raised retries goes to 0 with the
waiting retry is the model's reading, notes/assumptions/9.md. UNLOADED makes the DOFFING reels of a FULL
spindle DOFFED with REEL_DOFFED and, where the tracking and spindle laws hold, the spindle EMPTY and the other
as it was, and is STATE for any other spindle. The other shaft is kept, and without a waiting retry the shaft
changes in its spindle states alone. On the spindle that is not active a waiting retry is made in the same
event (notes/assumptions/9.md): it is cleared unless the phase is WINDING, the reason stands and auto-change
is on, and under the same laws it waits on with RECORDS where the records do not suffice, and otherwise
reserves a record for each enabled lane and enters CHANGE_PENDING with CUTREQ high. -/
def Obligations.ChangesAreAskedAndWithdrawn : Prop :=
  ∀ (sh : Shaft) (s : State), s.takesRequests →
    let r := s.shaft sh
    let b := shaftByte sh
    let spare := s.table.free - (s.table.reserved.a + s.table.reserved.b)
    let lanes := (s.enabledLanes sh).length
    let answers (i : Instr) (request : Byte) (code : AnswerCode) :=
      exec i s = .next { s with port := s.port.answered request code [] }
    (∀ forced : Bool,
      let i := Instr.change b (if forced then 1 else 0)
      let early := r.windowOpen = false ∧ forced = false ∧ r.firstFree = false
      (r.phase = .changePending → answers i 0x32 .ok) ∧
      (r.phase = .idle ∨ r.phase = .runout → answers i 0x32 .state) ∧
      (r.phase = .winding → early → answers i 0x32 .early) ∧
      (r.phase = .winding → ¬ early → r.spindle r.active.other ≠ .empty → answers i 0x32 .notUnloaded) ∧
      (r.phase = .winding → ¬ early → r.spindle r.active.other = .empty → spare < lanes →
        ∃ t, exec i s = .next t ∧ t = { s with
          port := s.port.answered 0x32 .noRecords [], hold := t.hold,
          digest := t.digest, shafts := s.shafts.set sh { r with records := r.records || decide (r.reason ≠ .none) } }) ∧
      (r.phase = .winding → ¬ early → r.spindle r.active.other = .empty → lanes ≤ spare →
        ∃ t, exec i s = .next t ∧ t = { s with
          port := s.port.answered 0x32 .ok []
          shafts := s.shafts.set sh { r with
            phase := .changePending
            cutReq := true
            retry := false
            retriesDue := 0
            records := false
            short := !r.windowOpen && !r.firstFree }
          table := { s.table with reserved := s.table.reserved.set sh (s.table.reserved.get sh + lanes) }
          hold := t.hold
          digest := t.digest })) ∧
    (r.phase ≠ .changePending → answers (.cancelChange b) 0x33 .state) ∧
    (r.phase = .changePending → ∃ t, exec (.cancelChange b) s = .next t ∧
      t = { s with
        port := s.port.answered 0x33 .ok [], shafts := t.shafts,
        table := { s.table with reserved := s.table.reserved.set sh 0 } } ∧
      t.shaft sh = { r with phase := .winding, cutReq := false, retry := false, retriesDue := 0, short := false } ∧
      t.shaft (other sh) = { s.shaft (other sh) with retriesDue := (t.shaft (other sh)).retriesDue }) ∧
    ∀ (sp : Spindle),
      (r.spindle sp ≠ .full → answers (.unloaded b (spindleByte sp)) 0x34 .state) ∧
      (r.spindle sp = .full → ∃ t, exec (.unloaded b (spindleByte sp)) s = .next t ∧
        t = { s with
          port := s.port.answered 0x34 .ok [], shafts := t.shafts, table := t.table, hold := t.hold,
          digest := t.digest } ∧
        t.shaft (other sh) = s.shaft (other sh) ∧ (t.digest.alerts[Alert.index .reelDoffed]).isSet = true ∧
        (∀ h, t.reel h = (s.reel h).map fun q => if q.shaft = sh ∧ q.spindle = sp ∧ q.state = .doffing then
          { q with state := .doffed, revision := q.revision + 1 } else q) ∧
        (let base := { r with spindle1 := (t.shaft sh).spindle1, spindle2 := (t.shaft sh).spindle2 }
         let tries := r.retry = true ∧ sp = r.active.other
         let enters := r.phase = .winding ∧ r.reason ≠ .none ∧ (s.settings.job.get sh).auto = true
         let keeps := t.table = { s.table with reels := t.table.reels }
         (¬ tries → t.shaft sh = base ∧ keeps) ∧
         (tries → ¬ enters → t.shaft sh = { base with retry := false, retriesDue := 0 } ∧ keeps) ∧
         (TrackingLaw s → SpindleLaw s → (t.shaft sh).spindle sp = .empty ∧
           (t.shaft sh).spindle sp.other = r.spindle sp.other ∧
           (tries → enters → spare < lanes → t.shaft sh = { base with records := true } ∧ keeps) ∧
           (tries → enters → lanes ≤ spare →
             t.shaft sh = { base with
               phase := .changePending
               cutReq := true
               retry := false
               retriesDue := 0
               records := false
               short := !r.windowOpen && !r.firstFree } ∧
             t.table = { s.table with
               reels := t.table.reels
               reserved := s.table.reserved.set sh (s.table.reserved.get sh + lanes) }))))

/-! ## Marks, grades, settings and runs -/

/-- An operator mark that the cut latch holds stays in work with its position and lanes. Any other lands a flag at
P minus the distance, or 0, on the reel that covers it on each named lane and answers the ids, 0 for a lane
without one, whose untracked tally rises; TOO_LATE where no lane found a reel. OVERRIDE_GRADE sets or clears
the override of a DOFFED reel; RETIRE frees one whose revision matches with its marks and raises a retry of
each shaft that waits (notes/assumptions/9.md); otherwise STATE, or CHANGED. -/
def Obligations.MarksGradesAndRetirement : Prop :=
  ∀ s : State, s.takesRequests →
    let answers (i : Instr) (request : Byte) (code : AnswerCode) :=
      exec i s = .next { s with port := s.port.answered request code [] }
    (∀ (sh : Shaft) (lanes : BitVec 24) (back : Word32), lanes ≠ 0 → back.toNat ≤ 100000 →
      (∃ c ∈ s.position.latch.get sh, c ≤ s.position.p - back.toNat) →
      exec (.addMark (shaftByte sh) lanes back) s = .next { s with port := { s.port with
        transaction := .none
        buffer := .working
        lost := s.port.buffer.isReady
        inWork := encodeRequest (.addMark (shaftByte sh) lanes back)
        held := some ⟨sh, s.position.p - back.toNat,
          (allLanes.filter fun n => lanes.getLsbD n.val).map fun n => ⟨n, 0, (s.lane n).width⟩⟩ } }) ∧
    (∀ (sh : Shaft) (lanes : BitVec 24) (back : Word32), lanes ≠ 0 → back.toNat ≤ 100000 →
      let x := s.position.p - back.toNat
      let named := allLanes.filter fun n => lanes.getLsbD n.val
      let id (n : Lane) := (((s.coveringReel n sh x).bind s.reel).map Reel.id).getD 0
      (∀ c ∈ s.position.latch.get sh, x < c) →
      ∃ t, exec (.addMark (shaftByte sh) lanes back) s = .next t ∧
        t = { s with
          port := s.port.answered 0x35 (if named.any fun n => decide (id n ≠ 0) then .ok else .tooLate)
            (markAnswer (named.map id))
          map := t.map
          table := t.table
          freeMarks := t.freeMarks
          hold := t.hold
          digest := t.digest } ∧
        (∀ n, t.lane n = if n ∈ named ∧ s.coveringReel n sh x = none then
          { s.lane n with tally := satInc (s.lane n).tally } else s.lane n) ∧
        (∀ n ∈ named, ∀ h r, s.coveringReel n sh x = some h → s.reel h = some r → ∃ q, t.reel h = some q ∧
          q.id = r.id ∧ q.tallies = { r.tallies with flag := satInc r.tallies.flag }) ∧
        ∀ h, (∀ n ∈ named, s.coveringReel n sh x ≠ some h) → t.reel h = s.reel h) ∧
    (∀ (sh : Shaft) (n : Lane) (back : Word32), back.toNat ≤ 100000 →
      let i := Instr.addMark (shaftByte sh) (BitVec.ofNat 24 (2 ^ n.val)) back
      let x := s.position.p - back.toNat
      (∀ c ∈ s.position.latch.get sh, x < c) →
      (s.coveringReel n sh x = none → exec i s = .next { s with
        port := s.port.answered 0x35 .tooLate (markAnswer [0])
        map := { s.map with lanes := s.map.lanes.set n { s.lane n with tally := satInc (s.lane n).tally } } }) ∧
      ∀ h r, s.coveringReel n sh x = some h → s.reel h = some r →
        let landed := s.land h ⟨.flag, x, 0, (s.lane n).width, false⟩
        ∃ t, exec i s = .next t ∧
          t = { s with
            port := t.port, table := landed.table, freeMarks := landed.freeMarks, hold := t.hold,
            digest := t.digest } ∧
          (r.id ≠ 0 → t.port = s.port.answered 0x35 .ok (markAnswer [r.id]))) ∧
    ∀ (id : Word32) (h : Handle) (r : Reel), s.reelById id.toNat = some h → s.reel h = some r →
      (∀ (grade : Byte) (g : Option Grade), grade = gradeByte g →
        (r.state ≠ .doffed → answers (.overrideGrade id grade) 0x36 .state) ∧
        (r.state = .doffed → exec (.overrideGrade id grade) s = .next { s with
          port := s.port.answered 0x36 .ok []
          table := { s.table with reels := s.table.reels.set h (some { r with
            override := g, revision := if r.override = g then r.revision else r.revision + 1 }) } })) ∧
      ∀ revision : Word16,
        (r.state ≠ .doffed → answers (.retire id revision) 0x37 .state) ∧
        (r.state = .doffed → r.revision ≠ revision → answers (.retire id revision) 0x37 .changed) ∧
        (r.state = .doffed → r.revision = revision → ∃ t, exec (.retire id revision) s = .next t ∧
          t = { s with
            port := s.port.answered 0x37 .ok []
            table := { s.table with reels := s.table.reels.set h none, free := s.table.free + 1 }
            freeMarks := s.freeMarks + r.chain.length
            shafts := t.shafts
            hold := t.hold
            digest := t.digest } ∧
          ∀ sh, t.shaft sh = { s.shaft sh with
            retriesDue := (s.shaft sh).retriesDue + if (s.shaft sh).retry then 1 else 0 })

/-- During a save every item is BUSY. The stop timeout, debounce, quantum and id counter are written; N_enc, which
zeroes r, and the four distances need both shafts IDLE, an empty travel list and a stopped line, unless the
value is in force; the sweep interval re-arms the sweep watch; the watermarks are tested at once against the
counts held, unless the pair is in force. RESET_RUN needs the shafts IDLE and the list empty, puts P and r at
0 and marks DOFFING and DOFFED reels. That it leaves the arrivals already handed over is the model's reading,
notes/assumptions/26.md. -/
def Obligations.SettingsAndRunsChangeAtRest : Prop :=
  ∀ s : State, s.takesRequests →
    let rests := s.shafts.a.phase = .idle ∧ s.shafts.b.phase = .idle ∧ s.travel.approach = [] ∧ s.travel.nip = ⟨[], []⟩
    let answers (i : Instr) (code : AnswerCode) := exec i s = .next { s with port := s.port.answered 0x40 code [] }
    let writes (i : Instr) (item : Settings) := exec i s = .next { s with
      port := s.port.answered 0x40 .ok [], store := { s.store with settings := item } }
    let distance (i : Instr) (old new : Nat) (item : Settings) :=
      (new = old → answers i .ok) ∧
      (new ≠ old → ¬ rests → answers i .state) ∧
      (new ≠ old → rests → s.position.line = .running → answers i .lineMoving) ∧
      (new ≠ old → rests → s.position.line = .stopped → writes i item)
    (s.store.save.isSome → ∀ i q, encodeRequest i = some q → q.code = 0x40 → answers i .busy) ∧
    (s.store.save = none → ∀ v : Word32,
      (outOfRange (.setSettingsStopTimeout v) = false →
        writes (.setSettingsStopTimeout v) { s.settings with stopTimeout := v.toNat }) ∧
      (outOfRange (.setSettingsSpliceDebounce v) = false →
        writes (.setSettingsSpliceDebounce v) { s.settings with debounce := v.toNat }) ∧
      (outOfRange (.setSettingsHoldQuantum v) = false →
        writes (.setSettingsHoldQuantum v) { s.settings with quantum := v.toNat }) ∧
      (outOfRange (.setSettingsReelIdCounter v) = false →
        writes (.setSettingsReelIdCounter v) { s.settings with reelIdCounter := v.toNat }) ∧
      (outOfRange (.setSettingsDIk v) = false →
        distance (.setSettingsDIk v) s.settings.dIk v.toNat { s.settings with dIk := v.toNat } ∧
        distance (.setSettingsDSk v) s.settings.dSk v.toNat { s.settings with dSk := v.toNat } ∧
        ∀ sh, distance (.setSettingsDKw sh v) (s.settings.dKw.get sh) v.toNat
          { s.settings with dKw := s.settings.dKw.set sh v.toNat }) ∧
      (outOfRange (.setSettingsNEnc v) = false →
        (v.toNat = s.settings.nEnc → answers (.setSettingsNEnc v) .ok) ∧
        (v.toNat ≠ s.settings.nEnc → ¬ rests → answers (.setSettingsNEnc v) .state) ∧
        (v.toNat ≠ s.settings.nEnc → rests → s.position.line = .running → answers (.setSettingsNEnc v) .lineMoving) ∧
        (v.toNat ≠ s.settings.nEnc → rests → s.position.line = .stopped → exec (.setSettingsNEnc v) s = .next { s with
          port := s.port.answered 0x40 .ok []
          store := { s.store with settings := { s.settings with nEnc := v.toNat } }
          position := { s.position with r := 0 } })) ∧
      (outOfRange (.setSettingsSweepInterval v) = false →
        let x := s.position.p + v.toNat
        (v.toNat = s.settings.sweepInterval → answers (.setSettingsSweepInterval v) .ok) ∧
        (v.toNat ≠ s.settings.sweepInterval → exec (.setSettingsSweepInterval v) s = .next { s with
          port := s.port.answered 0x40 .ok []
          store := { s.store with settings := { s.settings with sweepInterval := v.toNat } }
          position := { s.position with watches := { s.position.watches with
            sweep := if v = 0 ∨ maxPosition < x then none else some x } } }))) ∧
    (s.store.save = none → ∀ lower upper : Word32,
      let l := lower.toNat
      let u := upper.toNat
      (outOfRange (.setSettingsTravelWatermarks lower upper) = false →
        l = s.settings.travelLower ∧ u = s.settings.travelUpper →
        answers (.setSettingsTravelWatermarks lower upper) .ok) ∧
      (outOfRange (.setSettingsMarkWatermarks lower upper) = false →
        l = s.settings.markLower ∧ u = s.settings.markUpper →
        answers (.setSettingsMarkWatermarks lower upper) .ok) ∧
      (outOfRange (.setSettingsTravelWatermarks lower upper) = false →
        l ≠ s.settings.travelLower ∨ u ≠ s.settings.travelUpper →
        ∃ t, exec (.setSettingsTravelWatermarks lower upper) s = .next t ∧
          t = { s with
            port := s.port.answered 0x40 .ok [], hold := t.hold, digest := t.digest,
            store := { s.store with settings := { s.settings with travelLower := l, travelUpper := u } } } ∧
          t.hold.causes = { s.hold.causes with
            travelLow := if s.hold.lastTravel ≤ l then true else if u ≤ s.hold.lastTravel then false
              else s.hold.causes.travelLow
            travelEmpty := if s.hold.lastTravel < 2 then true else if l ≤ s.hold.lastTravel then false
              else s.hold.causes.travelEmpty }) ∧
      (outOfRange (.setSettingsMarkWatermarks lower upper) = false →
        l ≠ s.settings.markLower ∨ u ≠ s.settings.markUpper →
        ∃ t, exec (.setSettingsMarkWatermarks lower upper) s = .next t ∧
          t = { s with
            port := s.port.answered 0x40 .ok [], hold := t.hold, digest := t.digest,
            store := { s.store with settings := { s.settings with markLower := l, markUpper := u } } } ∧
          t.hold.causes = { s.hold.causes with
            marksLow := if s.hold.lastMarks ≤ l then true else if u ≤ s.hold.lastMarks then false
              else s.hold.causes.marksLow })) ∧
    (¬ rests → exec .resetRun s = .next { s with port := s.port.answered 0x3A .state [] }) ∧
    (rests → ∃ t, exec .resetRun s = .next t ∧
      t = { s with
        port := s.port.answered 0x3A .ok []
        position := { s.position with
          p := 0
          r := 0
          fault := false
          spliceStamp := none
          watches := { WatchTable.initial with sweep := t.watch .sweep } }
        table := { s.table with reels := t.table.reels }
        hold := t.hold
        digest := t.digest } ∧
      (PositionLaw s → t.watch .sweep = if s.settings.sweepInterval = 0 then none else some s.settings.sweepInterval) ∧
      ∀ h, t.reel h = (s.reel h).map fun r =>
        if (r.state = .doffing ∨ r.state = .doffed) ∧ r.flags.previousRun = false then
          { r with flags := { r.flags with previousRun := true }, revision := r.revision + 1 }
        else r)
end

