-- ==== Sys2Proof/Laws/Bytes.lean ====
section
/-! SUPPORT. Fields of bytes: their lengths, and that a field spells the number it was made of. -/

namespace Sys2Proof.Machine

@[simp] theorem beBytes_length (k n : Nat) : (beBytes k n).length = k := by
  induction k generalizing n with
  | zero => rfl
  | succ k ih => simp [beBytes, ih]

@[simp] theorem padTo_length (k : Nat) (bs : List Byte) : (padTo k bs).length = max k bs.length := by
  simp [padTo]; omega

theorem byteOf_toNat (n : Nat) : (byteOf n).toNat = n % 256 := by
  simp [byteOf]

theorem ofBE_append_one (bs : List Byte) (b : Byte) : ofBE (bs ++ [b]) = ofBE bs * 256 + b.toNat := by
  simp [ofBE]

/-- A field of k bytes spells its number modulo 256 to the k. -/
theorem ofBE_beBytes_mod (k n : Nat) : ofBE (beBytes k n) = n % 256 ^ k := by
  induction k generalizing n with
  | zero => simp [beBytes, ofBE, Nat.mod_one]
  | succ k ih =>
    rw [beBytes, ofBE_append_one, ih, byteOf_toNat, Nat.pow_succ, Nat.mul_comm (256 ^ k) 256, Nat.mod_mul]
    omega

/-- A field wide enough for a number spells it. -/
theorem ofBE_beBytes (k n : Nat) (h : n < 256 ^ k) : ofBE (beBytes k n) = n := by
  rw [ofBE_beBytes_mod, Nat.mod_eq_of_lt h]

/-- The field that stands between two lists of bytes. -/
theorem fieldAt_append (pre bs post : List Byte) :
    fieldAt (pre ++ bs ++ post) pre.length bs.length = ofBE bs := by
  simp [fieldAt, List.append_assoc]

/-- A set field spells its items: bit i of the field is item i. -/
theorem bitSet_testBit (bs : List Bool) (i : Nat) : (bitSet bs).testBit i = bs.getD i false := by
  induction bs generalizing i with
  | nil => simp [bitSet]
  | cons b bs ih =>
    cases i with
    | zero => cases b <;> simp [bitSet, Nat.testBit_zero]
    | succ i =>
      rw [Nat.testBit_succ]
      have : (bitSet (b :: bs)) / 2 = bitSet bs := by cases b <;> (simp [bitSet]; try omega)
      rw [this, ih]
      simp

end Sys2Proof.Machine
end

