-- ==== Sys2Proof/Laws/State.lean ====
section
/-! SUPPORT. One lemma for each field of the state under each of its updates, and under the updates of one shaft, lane,
record, watch and of the settings, so that no later proof unfolds a record update. -/

namespace Sys2Proof.Machine


/-! ## setPosition -/

@[simp] theorem State.setPosition_position (s : State) (x : PositionUnit) : (s.setPosition x).position = x := rfl
@[simp] theorem State.setPosition_map (s : State) (x : PositionUnit) : (s.setPosition x).map = s.map := rfl
@[simp] theorem State.setPosition_table (s : State) (x : PositionUnit) : (s.setPosition x).table = s.table := rfl
@[simp] theorem State.setPosition_freeMarks (s : State) (x : PositionUnit) :
    (s.setPosition x).freeMarks = s.freeMarks := rfl
@[simp] theorem State.setPosition_travel (s : State) (x : PositionUnit) : (s.setPosition x).travel = s.travel := rfl
@[simp] theorem State.setPosition_shafts (s : State) (x : PositionUnit) : (s.setPosition x).shafts = s.shafts := rfl
@[simp] theorem State.setPosition_engine (s : State) (x : PositionUnit) : (s.setPosition x).engine = s.engine := rfl
@[simp] theorem State.setPosition_hold (s : State) (x : PositionUnit) : (s.setPosition x).hold = s.hold := rfl
@[simp] theorem State.setPosition_port (s : State) (x : PositionUnit) : (s.setPosition x).port = s.port := rfl
@[simp] theorem State.setPosition_link (s : State) (x : PositionUnit) : (s.setPosition x).link = s.link := rfl
@[simp] theorem State.setPosition_digest (s : State) (x : PositionUnit) : (s.setPosition x).digest = s.digest := rfl
@[simp] theorem State.setPosition_store (s : State) (x : PositionUnit) : (s.setPosition x).store = s.store := rfl
@[simp] theorem State.setPosition_encoder (s : State) (x : PositionUnit) :
    (s.setPosition x).encoder = s.encoder := rfl
@[simp] theorem State.setPosition_now (s : State) (x : PositionUnit) : (s.setPosition x).now = s.now := rfl
@[simp] theorem State.setPosition_freeIndex (s : State) (x : PositionUnit) :
    (s.setPosition x).freeIndex = s.freeIndex := rfl
@[simp] theorem State.setPosition_pending (s : State) (x : PositionUnit) :
    (s.setPosition x).pending = s.pending := rfl
@[simp] theorem State.setPosition_self (s : State) : s.setPosition s.position = s := rfl
@[simp] theorem State.setPosition_setPosition (s : State) (x y : PositionUnit) :
    (s.setPosition x).setPosition y = s.setPosition y := rfl
@[simp] theorem State.setPosition_shaft (s : State) (x : PositionUnit) (sh : Shaft) :
    (s.setPosition x).shaft sh = s.shaft sh := rfl
@[simp] theorem State.setPosition_lane (s : State) (x : PositionUnit) (n : Lane) :
    (s.setPosition x).lane n = s.lane n := rfl
@[simp] theorem State.setPosition_reel (s : State) (x : PositionUnit) (h : Handle) :
    (s.setPosition x).reel h = s.reel h := rfl
@[simp] theorem State.setPosition_inReset (s : State) (x : PositionUnit) :
    (s.setPosition x).inReset = s.inReset := rfl
@[simp] theorem State.setPosition_tracking (s : State) (x : PositionUnit) :
    (s.setPosition x).tracking = s.tracking := rfl

/-! ## setMap -/

@[simp] theorem State.setMap_position (s : State) (x : KnifeMap) : (s.setMap x).position = s.position := rfl
@[simp] theorem State.setMap_map (s : State) (x : KnifeMap) : (s.setMap x).map = x := rfl
@[simp] theorem State.setMap_table (s : State) (x : KnifeMap) : (s.setMap x).table = s.table := rfl
@[simp] theorem State.setMap_freeMarks (s : State) (x : KnifeMap) : (s.setMap x).freeMarks = s.freeMarks := rfl
@[simp] theorem State.setMap_travel (s : State) (x : KnifeMap) : (s.setMap x).travel = s.travel := rfl
@[simp] theorem State.setMap_shafts (s : State) (x : KnifeMap) : (s.setMap x).shafts = s.shafts := rfl
@[simp] theorem State.setMap_engine (s : State) (x : KnifeMap) : (s.setMap x).engine = s.engine := rfl
@[simp] theorem State.setMap_hold (s : State) (x : KnifeMap) : (s.setMap x).hold = s.hold := rfl
@[simp] theorem State.setMap_port (s : State) (x : KnifeMap) : (s.setMap x).port = s.port := rfl
@[simp] theorem State.setMap_link (s : State) (x : KnifeMap) : (s.setMap x).link = s.link := rfl
@[simp] theorem State.setMap_digest (s : State) (x : KnifeMap) : (s.setMap x).digest = s.digest := rfl
@[simp] theorem State.setMap_store (s : State) (x : KnifeMap) : (s.setMap x).store = s.store := rfl
@[simp] theorem State.setMap_encoder (s : State) (x : KnifeMap) : (s.setMap x).encoder = s.encoder := rfl
@[simp] theorem State.setMap_now (s : State) (x : KnifeMap) : (s.setMap x).now = s.now := rfl
@[simp] theorem State.setMap_freeIndex (s : State) (x : KnifeMap) : (s.setMap x).freeIndex = s.freeIndex := rfl
@[simp] theorem State.setMap_pending (s : State) (x : KnifeMap) : (s.setMap x).pending = s.pending := rfl
@[simp] theorem State.setMap_self (s : State) : s.setMap s.map = s := rfl
@[simp] theorem State.setMap_setMap (s : State) (x y : KnifeMap) : (s.setMap x).setMap y = s.setMap y := rfl
@[simp] theorem State.setMap_shaft (s : State) (x : KnifeMap) (sh : Shaft) : (s.setMap x).shaft sh = s.shaft sh := rfl
@[simp] theorem State.setMap_reel (s : State) (x : KnifeMap) (h : Handle) : (s.setMap x).reel h = s.reel h := rfl
@[simp] theorem State.setMap_watch (s : State) (x : KnifeMap) (w : Watch) : (s.setMap x).watch w = s.watch w := rfl
@[simp] theorem State.setMap_inReset (s : State) (x : KnifeMap) : (s.setMap x).inReset = s.inReset := rfl
@[simp] theorem State.setMap_tracking (s : State) (x : KnifeMap) : (s.setMap x).tracking = s.tracking := rfl

/-! ## setTable -/

@[simp] theorem State.setTable_position (s : State) (x : ReelTable) : (s.setTable x).position = s.position := rfl
@[simp] theorem State.setTable_map (s : State) (x : ReelTable) : (s.setTable x).map = s.map := rfl
@[simp] theorem State.setTable_table (s : State) (x : ReelTable) : (s.setTable x).table = x := rfl
@[simp] theorem State.setTable_freeMarks (s : State) (x : ReelTable) : (s.setTable x).freeMarks = s.freeMarks := rfl
@[simp] theorem State.setTable_travel (s : State) (x : ReelTable) : (s.setTable x).travel = s.travel := rfl
@[simp] theorem State.setTable_shafts (s : State) (x : ReelTable) : (s.setTable x).shafts = s.shafts := rfl
@[simp] theorem State.setTable_engine (s : State) (x : ReelTable) : (s.setTable x).engine = s.engine := rfl
@[simp] theorem State.setTable_hold (s : State) (x : ReelTable) : (s.setTable x).hold = s.hold := rfl
@[simp] theorem State.setTable_port (s : State) (x : ReelTable) : (s.setTable x).port = s.port := rfl
@[simp] theorem State.setTable_link (s : State) (x : ReelTable) : (s.setTable x).link = s.link := rfl
@[simp] theorem State.setTable_digest (s : State) (x : ReelTable) : (s.setTable x).digest = s.digest := rfl
@[simp] theorem State.setTable_store (s : State) (x : ReelTable) : (s.setTable x).store = s.store := rfl
@[simp] theorem State.setTable_encoder (s : State) (x : ReelTable) : (s.setTable x).encoder = s.encoder := rfl
@[simp] theorem State.setTable_now (s : State) (x : ReelTable) : (s.setTable x).now = s.now := rfl
@[simp] theorem State.setTable_freeIndex (s : State) (x : ReelTable) : (s.setTable x).freeIndex = s.freeIndex := rfl
@[simp] theorem State.setTable_pending (s : State) (x : ReelTable) : (s.setTable x).pending = s.pending := rfl
@[simp] theorem State.setTable_self (s : State) : s.setTable s.table = s := rfl
@[simp] theorem State.setTable_setTable (s : State) (x y : ReelTable) :
    (s.setTable x).setTable y = s.setTable y := rfl
@[simp] theorem State.setTable_shaft (s : State) (x : ReelTable) (sh : Shaft) :
    (s.setTable x).shaft sh = s.shaft sh := rfl
@[simp] theorem State.setTable_lane (s : State) (x : ReelTable) (n : Lane) : (s.setTable x).lane n = s.lane n := rfl
@[simp] theorem State.setTable_watch (s : State) (x : ReelTable) (w : Watch) :
    (s.setTable x).watch w = s.watch w := rfl
@[simp] theorem State.setTable_inReset (s : State) (x : ReelTable) : (s.setTable x).inReset = s.inReset := rfl
@[simp] theorem State.setTable_tracking (s : State) (x : ReelTable) : (s.setTable x).tracking = s.tracking := rfl

/-! ## setFreeMarks -/

@[simp] theorem State.setFreeMarks_position (s : State) (x : Nat) : (s.setFreeMarks x).position = s.position := rfl
@[simp] theorem State.setFreeMarks_map (s : State) (x : Nat) : (s.setFreeMarks x).map = s.map := rfl
@[simp] theorem State.setFreeMarks_table (s : State) (x : Nat) : (s.setFreeMarks x).table = s.table := rfl
@[simp] theorem State.setFreeMarks_freeMarks (s : State) (x : Nat) : (s.setFreeMarks x).freeMarks = x := rfl
@[simp] theorem State.setFreeMarks_travel (s : State) (x : Nat) : (s.setFreeMarks x).travel = s.travel := rfl
@[simp] theorem State.setFreeMarks_shafts (s : State) (x : Nat) : (s.setFreeMarks x).shafts = s.shafts := rfl
@[simp] theorem State.setFreeMarks_engine (s : State) (x : Nat) : (s.setFreeMarks x).engine = s.engine := rfl
@[simp] theorem State.setFreeMarks_hold (s : State) (x : Nat) : (s.setFreeMarks x).hold = s.hold := rfl
@[simp] theorem State.setFreeMarks_port (s : State) (x : Nat) : (s.setFreeMarks x).port = s.port := rfl
@[simp] theorem State.setFreeMarks_link (s : State) (x : Nat) : (s.setFreeMarks x).link = s.link := rfl
@[simp] theorem State.setFreeMarks_digest (s : State) (x : Nat) : (s.setFreeMarks x).digest = s.digest := rfl
@[simp] theorem State.setFreeMarks_store (s : State) (x : Nat) : (s.setFreeMarks x).store = s.store := rfl
@[simp] theorem State.setFreeMarks_encoder (s : State) (x : Nat) : (s.setFreeMarks x).encoder = s.encoder := rfl
@[simp] theorem State.setFreeMarks_now (s : State) (x : Nat) : (s.setFreeMarks x).now = s.now := rfl
@[simp] theorem State.setFreeMarks_freeIndex (s : State) (x : Nat) : (s.setFreeMarks x).freeIndex = s.freeIndex := rfl
@[simp] theorem State.setFreeMarks_pending (s : State) (x : Nat) : (s.setFreeMarks x).pending = s.pending := rfl
@[simp] theorem State.setFreeMarks_self (s : State) : s.setFreeMarks s.freeMarks = s := rfl
@[simp] theorem State.setFreeMarks_setFreeMarks (s : State) (x y : Nat) :
    (s.setFreeMarks x).setFreeMarks y = s.setFreeMarks y := rfl
@[simp] theorem State.setFreeMarks_shaft (s : State) (x : Nat) (sh : Shaft) :
    (s.setFreeMarks x).shaft sh = s.shaft sh := rfl
@[simp] theorem State.setFreeMarks_lane (s : State) (x : Nat) (n : Lane) : (s.setFreeMarks x).lane n = s.lane n := rfl
@[simp] theorem State.setFreeMarks_reel (s : State) (x : Nat) (h : Handle) :
    (s.setFreeMarks x).reel h = s.reel h := rfl
@[simp] theorem State.setFreeMarks_watch (s : State) (x : Nat) (w : Watch) :
    (s.setFreeMarks x).watch w = s.watch w := rfl
@[simp] theorem State.setFreeMarks_inReset (s : State) (x : Nat) : (s.setFreeMarks x).inReset = s.inReset := rfl
@[simp] theorem State.setFreeMarks_tracking (s : State) (x : Nat) : (s.setFreeMarks x).tracking = s.tracking := rfl

/-! ## setTravel -/

@[simp] theorem State.setTravel_position (s : State) (x : TravelList) : (s.setTravel x).position = s.position := rfl
@[simp] theorem State.setTravel_map (s : State) (x : TravelList) : (s.setTravel x).map = s.map := rfl
@[simp] theorem State.setTravel_table (s : State) (x : TravelList) : (s.setTravel x).table = s.table := rfl
@[simp] theorem State.setTravel_freeMarks (s : State) (x : TravelList) :
    (s.setTravel x).freeMarks = s.freeMarks := rfl
@[simp] theorem State.setTravel_travel (s : State) (x : TravelList) : (s.setTravel x).travel = x := rfl
@[simp] theorem State.setTravel_shafts (s : State) (x : TravelList) : (s.setTravel x).shafts = s.shafts := rfl
@[simp] theorem State.setTravel_engine (s : State) (x : TravelList) : (s.setTravel x).engine = s.engine := rfl
@[simp] theorem State.setTravel_hold (s : State) (x : TravelList) : (s.setTravel x).hold = s.hold := rfl
@[simp] theorem State.setTravel_port (s : State) (x : TravelList) : (s.setTravel x).port = s.port := rfl
@[simp] theorem State.setTravel_link (s : State) (x : TravelList) : (s.setTravel x).link = s.link := rfl
@[simp] theorem State.setTravel_digest (s : State) (x : TravelList) : (s.setTravel x).digest = s.digest := rfl
@[simp] theorem State.setTravel_store (s : State) (x : TravelList) : (s.setTravel x).store = s.store := rfl
@[simp] theorem State.setTravel_encoder (s : State) (x : TravelList) : (s.setTravel x).encoder = s.encoder := rfl
@[simp] theorem State.setTravel_now (s : State) (x : TravelList) : (s.setTravel x).now = s.now := rfl
@[simp] theorem State.setTravel_freeIndex (s : State) (x : TravelList) :
    (s.setTravel x).freeIndex = s.freeIndex := rfl
@[simp] theorem State.setTravel_pending (s : State) (x : TravelList) : (s.setTravel x).pending = s.pending := rfl
@[simp] theorem State.setTravel_self (s : State) : s.setTravel s.travel = s := rfl
@[simp] theorem State.setTravel_setTravel (s : State) (x y : TravelList) :
    (s.setTravel x).setTravel y = s.setTravel y := rfl
@[simp] theorem State.setTravel_shaft (s : State) (x : TravelList) (sh : Shaft) :
    (s.setTravel x).shaft sh = s.shaft sh := rfl
@[simp] theorem State.setTravel_lane (s : State) (x : TravelList) (n : Lane) :
    (s.setTravel x).lane n = s.lane n := rfl
@[simp] theorem State.setTravel_reel (s : State) (x : TravelList) (h : Handle) :
    (s.setTravel x).reel h = s.reel h := rfl
@[simp] theorem State.setTravel_watch (s : State) (x : TravelList) (w : Watch) :
    (s.setTravel x).watch w = s.watch w := rfl
@[simp] theorem State.setTravel_inReset (s : State) (x : TravelList) : (s.setTravel x).inReset = s.inReset := rfl
@[simp] theorem State.setTravel_tracking (s : State) (x : TravelList) : (s.setTravel x).tracking = s.tracking := rfl

/-! ## setShafts -/

@[simp] theorem State.setShafts_position (s : State) (x : Pair ShaftRec) :
    (s.setShafts x).position = s.position := rfl
@[simp] theorem State.setShafts_map (s : State) (x : Pair ShaftRec) : (s.setShafts x).map = s.map := rfl
@[simp] theorem State.setShafts_table (s : State) (x : Pair ShaftRec) : (s.setShafts x).table = s.table := rfl
@[simp] theorem State.setShafts_freeMarks (s : State) (x : Pair ShaftRec) :
    (s.setShafts x).freeMarks = s.freeMarks := rfl
@[simp] theorem State.setShafts_travel (s : State) (x : Pair ShaftRec) : (s.setShafts x).travel = s.travel := rfl
@[simp] theorem State.setShafts_shafts (s : State) (x : Pair ShaftRec) : (s.setShafts x).shafts = x := rfl
@[simp] theorem State.setShafts_engine (s : State) (x : Pair ShaftRec) : (s.setShafts x).engine = s.engine := rfl
@[simp] theorem State.setShafts_hold (s : State) (x : Pair ShaftRec) : (s.setShafts x).hold = s.hold := rfl
@[simp] theorem State.setShafts_port (s : State) (x : Pair ShaftRec) : (s.setShafts x).port = s.port := rfl
@[simp] theorem State.setShafts_link (s : State) (x : Pair ShaftRec) : (s.setShafts x).link = s.link := rfl
@[simp] theorem State.setShafts_digest (s : State) (x : Pair ShaftRec) : (s.setShafts x).digest = s.digest := rfl
@[simp] theorem State.setShafts_store (s : State) (x : Pair ShaftRec) : (s.setShafts x).store = s.store := rfl
@[simp] theorem State.setShafts_encoder (s : State) (x : Pair ShaftRec) : (s.setShafts x).encoder = s.encoder := rfl
@[simp] theorem State.setShafts_now (s : State) (x : Pair ShaftRec) : (s.setShafts x).now = s.now := rfl
@[simp] theorem State.setShafts_freeIndex (s : State) (x : Pair ShaftRec) :
    (s.setShafts x).freeIndex = s.freeIndex := rfl
@[simp] theorem State.setShafts_pending (s : State) (x : Pair ShaftRec) : (s.setShafts x).pending = s.pending := rfl
@[simp] theorem State.setShafts_self (s : State) : s.setShafts s.shafts = s := rfl
@[simp] theorem State.setShafts_setShafts (s : State) (x y : Pair ShaftRec) :
    (s.setShafts x).setShafts y = s.setShafts y := rfl
@[simp] theorem State.setShafts_shaft (s : State) (x : Pair ShaftRec) (sh : Shaft) :
    (s.setShafts x).shaft sh = x.get sh := rfl
@[simp] theorem State.setShafts_lane (s : State) (x : Pair ShaftRec) (n : Lane) :
    (s.setShafts x).lane n = s.lane n := rfl
@[simp] theorem State.setShafts_reel (s : State) (x : Pair ShaftRec) (h : Handle) :
    (s.setShafts x).reel h = s.reel h := rfl
@[simp] theorem State.setShafts_watch (s : State) (x : Pair ShaftRec) (w : Watch) :
    (s.setShafts x).watch w = s.watch w := rfl
@[simp] theorem State.setShafts_inReset (s : State) (x : Pair ShaftRec) : (s.setShafts x).inReset = s.inReset := rfl
@[simp] theorem State.setShafts_tracking (s : State) (x : Pair ShaftRec) :
    (s.setShafts x).tracking = s.tracking := rfl

/-! ## setEngine -/

@[simp] theorem State.setEngine_position (s : State) (x : SweepEngine) : (s.setEngine x).position = s.position := rfl
@[simp] theorem State.setEngine_map (s : State) (x : SweepEngine) : (s.setEngine x).map = s.map := rfl
@[simp] theorem State.setEngine_table (s : State) (x : SweepEngine) : (s.setEngine x).table = s.table := rfl
@[simp] theorem State.setEngine_freeMarks (s : State) (x : SweepEngine) :
    (s.setEngine x).freeMarks = s.freeMarks := rfl
@[simp] theorem State.setEngine_travel (s : State) (x : SweepEngine) : (s.setEngine x).travel = s.travel := rfl
@[simp] theorem State.setEngine_shafts (s : State) (x : SweepEngine) : (s.setEngine x).shafts = s.shafts := rfl
@[simp] theorem State.setEngine_engine (s : State) (x : SweepEngine) : (s.setEngine x).engine = x := rfl
@[simp] theorem State.setEngine_hold (s : State) (x : SweepEngine) : (s.setEngine x).hold = s.hold := rfl
@[simp] theorem State.setEngine_port (s : State) (x : SweepEngine) : (s.setEngine x).port = s.port := rfl
@[simp] theorem State.setEngine_link (s : State) (x : SweepEngine) : (s.setEngine x).link = s.link := rfl
@[simp] theorem State.setEngine_digest (s : State) (x : SweepEngine) : (s.setEngine x).digest = s.digest := rfl
@[simp] theorem State.setEngine_store (s : State) (x : SweepEngine) : (s.setEngine x).store = s.store := rfl
@[simp] theorem State.setEngine_encoder (s : State) (x : SweepEngine) : (s.setEngine x).encoder = s.encoder := rfl
@[simp] theorem State.setEngine_now (s : State) (x : SweepEngine) : (s.setEngine x).now = s.now := rfl
@[simp] theorem State.setEngine_freeIndex (s : State) (x : SweepEngine) :
    (s.setEngine x).freeIndex = s.freeIndex := rfl
@[simp] theorem State.setEngine_pending (s : State) (x : SweepEngine) : (s.setEngine x).pending = s.pending := rfl
@[simp] theorem State.setEngine_self (s : State) : s.setEngine s.engine = s := rfl
@[simp] theorem State.setEngine_setEngine (s : State) (x y : SweepEngine) :
    (s.setEngine x).setEngine y = s.setEngine y := rfl
@[simp] theorem State.setEngine_shaft (s : State) (x : SweepEngine) (sh : Shaft) :
    (s.setEngine x).shaft sh = s.shaft sh := rfl
@[simp] theorem State.setEngine_lane (s : State) (x : SweepEngine) (n : Lane) :
    (s.setEngine x).lane n = s.lane n := rfl
@[simp] theorem State.setEngine_reel (s : State) (x : SweepEngine) (h : Handle) :
    (s.setEngine x).reel h = s.reel h := rfl
@[simp] theorem State.setEngine_watch (s : State) (x : SweepEngine) (w : Watch) :
    (s.setEngine x).watch w = s.watch w := rfl
@[simp] theorem State.setEngine_inReset (s : State) (x : SweepEngine) : (s.setEngine x).inReset = s.inReset := rfl
@[simp] theorem State.setEngine_tracking (s : State) (x : SweepEngine) : (s.setEngine x).tracking = s.tracking := rfl

/-! ## setHold -/

@[simp] theorem State.setHold_position (s : State) (x : HoldUnit) : (s.setHold x).position = s.position := rfl
@[simp] theorem State.setHold_map (s : State) (x : HoldUnit) : (s.setHold x).map = s.map := rfl
@[simp] theorem State.setHold_table (s : State) (x : HoldUnit) : (s.setHold x).table = s.table := rfl
@[simp] theorem State.setHold_freeMarks (s : State) (x : HoldUnit) : (s.setHold x).freeMarks = s.freeMarks := rfl
@[simp] theorem State.setHold_travel (s : State) (x : HoldUnit) : (s.setHold x).travel = s.travel := rfl
@[simp] theorem State.setHold_shafts (s : State) (x : HoldUnit) : (s.setHold x).shafts = s.shafts := rfl
@[simp] theorem State.setHold_engine (s : State) (x : HoldUnit) : (s.setHold x).engine = s.engine := rfl
@[simp] theorem State.setHold_hold (s : State) (x : HoldUnit) : (s.setHold x).hold = x := rfl
@[simp] theorem State.setHold_port (s : State) (x : HoldUnit) : (s.setHold x).port = s.port := rfl
@[simp] theorem State.setHold_link (s : State) (x : HoldUnit) : (s.setHold x).link = s.link := rfl
@[simp] theorem State.setHold_digest (s : State) (x : HoldUnit) : (s.setHold x).digest = s.digest := rfl
@[simp] theorem State.setHold_store (s : State) (x : HoldUnit) : (s.setHold x).store = s.store := rfl
@[simp] theorem State.setHold_encoder (s : State) (x : HoldUnit) : (s.setHold x).encoder = s.encoder := rfl
@[simp] theorem State.setHold_now (s : State) (x : HoldUnit) : (s.setHold x).now = s.now := rfl
@[simp] theorem State.setHold_freeIndex (s : State) (x : HoldUnit) : (s.setHold x).freeIndex = s.freeIndex := rfl
@[simp] theorem State.setHold_pending (s : State) (x : HoldUnit) : (s.setHold x).pending = s.pending := rfl
@[simp] theorem State.setHold_self (s : State) : s.setHold s.hold = s := rfl
@[simp] theorem State.setHold_setHold (s : State) (x y : HoldUnit) : (s.setHold x).setHold y = s.setHold y := rfl
@[simp] theorem State.setHold_shaft (s : State) (x : HoldUnit) (sh : Shaft) :
    (s.setHold x).shaft sh = s.shaft sh := rfl
@[simp] theorem State.setHold_lane (s : State) (x : HoldUnit) (n : Lane) : (s.setHold x).lane n = s.lane n := rfl
@[simp] theorem State.setHold_reel (s : State) (x : HoldUnit) (h : Handle) : (s.setHold x).reel h = s.reel h := rfl
@[simp] theorem State.setHold_watch (s : State) (x : HoldUnit) (w : Watch) : (s.setHold x).watch w = s.watch w := rfl
@[simp] theorem State.setHold_inReset (s : State) (x : HoldUnit) : (s.setHold x).inReset = s.inReset := rfl
@[simp] theorem State.setHold_tracking (s : State) (x : HoldUnit) : (s.setHold x).tracking = s.tracking := rfl

/-! ## setPort -/

@[simp] theorem State.setPort_position (s : State) (x : Port) : (s.setPort x).position = s.position := rfl
@[simp] theorem State.setPort_map (s : State) (x : Port) : (s.setPort x).map = s.map := rfl
@[simp] theorem State.setPort_table (s : State) (x : Port) : (s.setPort x).table = s.table := rfl
@[simp] theorem State.setPort_freeMarks (s : State) (x : Port) : (s.setPort x).freeMarks = s.freeMarks := rfl
@[simp] theorem State.setPort_travel (s : State) (x : Port) : (s.setPort x).travel = s.travel := rfl
@[simp] theorem State.setPort_shafts (s : State) (x : Port) : (s.setPort x).shafts = s.shafts := rfl
@[simp] theorem State.setPort_engine (s : State) (x : Port) : (s.setPort x).engine = s.engine := rfl
@[simp] theorem State.setPort_hold (s : State) (x : Port) : (s.setPort x).hold = s.hold := rfl
@[simp] theorem State.setPort_port (s : State) (x : Port) : (s.setPort x).port = x := rfl
@[simp] theorem State.setPort_link (s : State) (x : Port) : (s.setPort x).link = s.link := rfl
@[simp] theorem State.setPort_digest (s : State) (x : Port) : (s.setPort x).digest = s.digest := rfl
@[simp] theorem State.setPort_store (s : State) (x : Port) : (s.setPort x).store = s.store := rfl
@[simp] theorem State.setPort_encoder (s : State) (x : Port) : (s.setPort x).encoder = s.encoder := rfl
@[simp] theorem State.setPort_now (s : State) (x : Port) : (s.setPort x).now = s.now := rfl
@[simp] theorem State.setPort_freeIndex (s : State) (x : Port) : (s.setPort x).freeIndex = s.freeIndex := rfl
@[simp] theorem State.setPort_pending (s : State) (x : Port) : (s.setPort x).pending = s.pending := rfl
@[simp] theorem State.setPort_self (s : State) : s.setPort s.port = s := rfl
@[simp] theorem State.setPort_setPort (s : State) (x y : Port) : (s.setPort x).setPort y = s.setPort y := rfl
@[simp] theorem State.setPort_shaft (s : State) (x : Port) (sh : Shaft) : (s.setPort x).shaft sh = s.shaft sh := rfl
@[simp] theorem State.setPort_lane (s : State) (x : Port) (n : Lane) : (s.setPort x).lane n = s.lane n := rfl
@[simp] theorem State.setPort_reel (s : State) (x : Port) (h : Handle) : (s.setPort x).reel h = s.reel h := rfl
@[simp] theorem State.setPort_watch (s : State) (x : Port) (w : Watch) : (s.setPort x).watch w = s.watch w := rfl
@[simp] theorem State.setPort_inReset (s : State) (x : Port) : (s.setPort x).inReset = s.inReset := rfl
@[simp] theorem State.setPort_tracking (s : State) (x : Port) : (s.setPort x).tracking = s.tracking := rfl

/-! ## setLink -/

@[simp] theorem State.setLink_position (s : State) (x : Receiver) : (s.setLink x).position = s.position := rfl
@[simp] theorem State.setLink_map (s : State) (x : Receiver) : (s.setLink x).map = s.map := rfl
@[simp] theorem State.setLink_table (s : State) (x : Receiver) : (s.setLink x).table = s.table := rfl
@[simp] theorem State.setLink_freeMarks (s : State) (x : Receiver) : (s.setLink x).freeMarks = s.freeMarks := rfl
@[simp] theorem State.setLink_travel (s : State) (x : Receiver) : (s.setLink x).travel = s.travel := rfl
@[simp] theorem State.setLink_shafts (s : State) (x : Receiver) : (s.setLink x).shafts = s.shafts := rfl
@[simp] theorem State.setLink_engine (s : State) (x : Receiver) : (s.setLink x).engine = s.engine := rfl
@[simp] theorem State.setLink_hold (s : State) (x : Receiver) : (s.setLink x).hold = s.hold := rfl
@[simp] theorem State.setLink_port (s : State) (x : Receiver) : (s.setLink x).port = s.port := rfl
@[simp] theorem State.setLink_link (s : State) (x : Receiver) : (s.setLink x).link = x := rfl
@[simp] theorem State.setLink_digest (s : State) (x : Receiver) : (s.setLink x).digest = s.digest := rfl
@[simp] theorem State.setLink_store (s : State) (x : Receiver) : (s.setLink x).store = s.store := rfl
@[simp] theorem State.setLink_encoder (s : State) (x : Receiver) : (s.setLink x).encoder = s.encoder := rfl
@[simp] theorem State.setLink_now (s : State) (x : Receiver) : (s.setLink x).now = s.now := rfl
@[simp] theorem State.setLink_freeIndex (s : State) (x : Receiver) : (s.setLink x).freeIndex = s.freeIndex := rfl
@[simp] theorem State.setLink_pending (s : State) (x : Receiver) : (s.setLink x).pending = s.pending := rfl
@[simp] theorem State.setLink_self (s : State) : s.setLink s.link = s := rfl
@[simp] theorem State.setLink_setLink (s : State) (x y : Receiver) : (s.setLink x).setLink y = s.setLink y := rfl
@[simp] theorem State.setLink_shaft (s : State) (x : Receiver) (sh : Shaft) :
    (s.setLink x).shaft sh = s.shaft sh := rfl
@[simp] theorem State.setLink_lane (s : State) (x : Receiver) (n : Lane) : (s.setLink x).lane n = s.lane n := rfl
@[simp] theorem State.setLink_reel (s : State) (x : Receiver) (h : Handle) : (s.setLink x).reel h = s.reel h := rfl
@[simp] theorem State.setLink_watch (s : State) (x : Receiver) (w : Watch) : (s.setLink x).watch w = s.watch w := rfl
@[simp] theorem State.setLink_inReset (s : State) (x : Receiver) : (s.setLink x).inReset = s.inReset := rfl
@[simp] theorem State.setLink_tracking (s : State) (x : Receiver) : (s.setLink x).tracking = s.tracking := rfl

/-! ## setDigest -/

@[simp] theorem State.setDigest_position (s : State) (x : DigestUnit) : (s.setDigest x).position = s.position := rfl
@[simp] theorem State.setDigest_map (s : State) (x : DigestUnit) : (s.setDigest x).map = s.map := rfl
@[simp] theorem State.setDigest_table (s : State) (x : DigestUnit) : (s.setDigest x).table = s.table := rfl
@[simp] theorem State.setDigest_freeMarks (s : State) (x : DigestUnit) :
    (s.setDigest x).freeMarks = s.freeMarks := rfl
@[simp] theorem State.setDigest_travel (s : State) (x : DigestUnit) : (s.setDigest x).travel = s.travel := rfl
@[simp] theorem State.setDigest_shafts (s : State) (x : DigestUnit) : (s.setDigest x).shafts = s.shafts := rfl
@[simp] theorem State.setDigest_engine (s : State) (x : DigestUnit) : (s.setDigest x).engine = s.engine := rfl
@[simp] theorem State.setDigest_hold (s : State) (x : DigestUnit) : (s.setDigest x).hold = s.hold := rfl
@[simp] theorem State.setDigest_port (s : State) (x : DigestUnit) : (s.setDigest x).port = s.port := rfl
@[simp] theorem State.setDigest_link (s : State) (x : DigestUnit) : (s.setDigest x).link = s.link := rfl
@[simp] theorem State.setDigest_digest (s : State) (x : DigestUnit) : (s.setDigest x).digest = x := rfl
@[simp] theorem State.setDigest_store (s : State) (x : DigestUnit) : (s.setDigest x).store = s.store := rfl
@[simp] theorem State.setDigest_encoder (s : State) (x : DigestUnit) : (s.setDigest x).encoder = s.encoder := rfl
@[simp] theorem State.setDigest_now (s : State) (x : DigestUnit) : (s.setDigest x).now = s.now := rfl
@[simp] theorem State.setDigest_freeIndex (s : State) (x : DigestUnit) :
    (s.setDigest x).freeIndex = s.freeIndex := rfl
@[simp] theorem State.setDigest_pending (s : State) (x : DigestUnit) : (s.setDigest x).pending = s.pending := rfl
@[simp] theorem State.setDigest_self (s : State) : s.setDigest s.digest = s := rfl
@[simp] theorem State.setDigest_setDigest (s : State) (x y : DigestUnit) :
    (s.setDigest x).setDigest y = s.setDigest y := rfl
@[simp] theorem State.setDigest_shaft (s : State) (x : DigestUnit) (sh : Shaft) :
    (s.setDigest x).shaft sh = s.shaft sh := rfl
@[simp] theorem State.setDigest_lane (s : State) (x : DigestUnit) (n : Lane) :
    (s.setDigest x).lane n = s.lane n := rfl
@[simp] theorem State.setDigest_reel (s : State) (x : DigestUnit) (h : Handle) :
    (s.setDigest x).reel h = s.reel h := rfl
@[simp] theorem State.setDigest_watch (s : State) (x : DigestUnit) (w : Watch) :
    (s.setDigest x).watch w = s.watch w := rfl
@[simp] theorem State.setDigest_inReset (s : State) (x : DigestUnit) : (s.setDigest x).inReset = s.inReset := rfl
@[simp] theorem State.setDigest_tracking (s : State) (x : DigestUnit) : (s.setDigest x).tracking = s.tracking := rfl

/-! ## setStore -/

@[simp] theorem State.setStore_position (s : State) (x : SettingsStore) : (s.setStore x).position = s.position := rfl
@[simp] theorem State.setStore_map (s : State) (x : SettingsStore) : (s.setStore x).map = s.map := rfl
@[simp] theorem State.setStore_table (s : State) (x : SettingsStore) : (s.setStore x).table = s.table := rfl
@[simp] theorem State.setStore_freeMarks (s : State) (x : SettingsStore) :
    (s.setStore x).freeMarks = s.freeMarks := rfl
@[simp] theorem State.setStore_travel (s : State) (x : SettingsStore) : (s.setStore x).travel = s.travel := rfl
@[simp] theorem State.setStore_shafts (s : State) (x : SettingsStore) : (s.setStore x).shafts = s.shafts := rfl
@[simp] theorem State.setStore_engine (s : State) (x : SettingsStore) : (s.setStore x).engine = s.engine := rfl
@[simp] theorem State.setStore_hold (s : State) (x : SettingsStore) : (s.setStore x).hold = s.hold := rfl
@[simp] theorem State.setStore_port (s : State) (x : SettingsStore) : (s.setStore x).port = s.port := rfl
@[simp] theorem State.setStore_link (s : State) (x : SettingsStore) : (s.setStore x).link = s.link := rfl
@[simp] theorem State.setStore_digest (s : State) (x : SettingsStore) : (s.setStore x).digest = s.digest := rfl
@[simp] theorem State.setStore_store (s : State) (x : SettingsStore) : (s.setStore x).store = x := rfl
@[simp] theorem State.setStore_encoder (s : State) (x : SettingsStore) : (s.setStore x).encoder = s.encoder := rfl
@[simp] theorem State.setStore_now (s : State) (x : SettingsStore) : (s.setStore x).now = s.now := rfl
@[simp] theorem State.setStore_freeIndex (s : State) (x : SettingsStore) :
    (s.setStore x).freeIndex = s.freeIndex := rfl
@[simp] theorem State.setStore_pending (s : State) (x : SettingsStore) : (s.setStore x).pending = s.pending := rfl
@[simp] theorem State.setStore_self (s : State) : s.setStore s.store = s := rfl
@[simp] theorem State.setStore_setStore (s : State) (x y : SettingsStore) :
    (s.setStore x).setStore y = s.setStore y := rfl
@[simp] theorem State.setStore_shaft (s : State) (x : SettingsStore) (sh : Shaft) :
    (s.setStore x).shaft sh = s.shaft sh := rfl
@[simp] theorem State.setStore_lane (s : State) (x : SettingsStore) (n : Lane) :
    (s.setStore x).lane n = s.lane n := rfl
@[simp] theorem State.setStore_reel (s : State) (x : SettingsStore) (h : Handle) :
    (s.setStore x).reel h = s.reel h := rfl
@[simp] theorem State.setStore_watch (s : State) (x : SettingsStore) (w : Watch) :
    (s.setStore x).watch w = s.watch w := rfl

/-! ## setEncoder -/

@[simp] theorem State.setEncoder_position (s : State) (x : Bool × Bool) :
    (s.setEncoder x).position = s.position := rfl
@[simp] theorem State.setEncoder_map (s : State) (x : Bool × Bool) : (s.setEncoder x).map = s.map := rfl
@[simp] theorem State.setEncoder_table (s : State) (x : Bool × Bool) : (s.setEncoder x).table = s.table := rfl
@[simp] theorem State.setEncoder_freeMarks (s : State) (x : Bool × Bool) :
    (s.setEncoder x).freeMarks = s.freeMarks := rfl
@[simp] theorem State.setEncoder_travel (s : State) (x : Bool × Bool) : (s.setEncoder x).travel = s.travel := rfl
@[simp] theorem State.setEncoder_shafts (s : State) (x : Bool × Bool) : (s.setEncoder x).shafts = s.shafts := rfl
@[simp] theorem State.setEncoder_engine (s : State) (x : Bool × Bool) : (s.setEncoder x).engine = s.engine := rfl
@[simp] theorem State.setEncoder_hold (s : State) (x : Bool × Bool) : (s.setEncoder x).hold = s.hold := rfl
@[simp] theorem State.setEncoder_port (s : State) (x : Bool × Bool) : (s.setEncoder x).port = s.port := rfl
@[simp] theorem State.setEncoder_link (s : State) (x : Bool × Bool) : (s.setEncoder x).link = s.link := rfl
@[simp] theorem State.setEncoder_digest (s : State) (x : Bool × Bool) : (s.setEncoder x).digest = s.digest := rfl
@[simp] theorem State.setEncoder_store (s : State) (x : Bool × Bool) : (s.setEncoder x).store = s.store := rfl
@[simp] theorem State.setEncoder_encoder (s : State) (x : Bool × Bool) : (s.setEncoder x).encoder = x := rfl
@[simp] theorem State.setEncoder_now (s : State) (x : Bool × Bool) : (s.setEncoder x).now = s.now := rfl
@[simp] theorem State.setEncoder_freeIndex (s : State) (x : Bool × Bool) :
    (s.setEncoder x).freeIndex = s.freeIndex := rfl
@[simp] theorem State.setEncoder_pending (s : State) (x : Bool × Bool) : (s.setEncoder x).pending = s.pending := rfl
@[simp] theorem State.setEncoder_self (s : State) : s.setEncoder s.encoder = s := rfl
@[simp] theorem State.setEncoder_setEncoder (s : State) (x y : Bool × Bool) :
    (s.setEncoder x).setEncoder y = s.setEncoder y := rfl
@[simp] theorem State.setEncoder_shaft (s : State) (x : Bool × Bool) (sh : Shaft) :
    (s.setEncoder x).shaft sh = s.shaft sh := rfl
@[simp] theorem State.setEncoder_lane (s : State) (x : Bool × Bool) (n : Lane) :
    (s.setEncoder x).lane n = s.lane n := rfl
@[simp] theorem State.setEncoder_reel (s : State) (x : Bool × Bool) (h : Handle) :
    (s.setEncoder x).reel h = s.reel h := rfl
@[simp] theorem State.setEncoder_watch (s : State) (x : Bool × Bool) (w : Watch) :
    (s.setEncoder x).watch w = s.watch w := rfl
@[simp] theorem State.setEncoder_inReset (s : State) (x : Bool × Bool) : (s.setEncoder x).inReset = s.inReset := rfl
@[simp] theorem State.setEncoder_tracking (s : State) (x : Bool × Bool) :
    (s.setEncoder x).tracking = s.tracking := rfl

/-! ## setNow -/

@[simp] theorem State.setNow_position (s : State) (x : Nat) : (s.setNow x).position = s.position := rfl
@[simp] theorem State.setNow_map (s : State) (x : Nat) : (s.setNow x).map = s.map := rfl
@[simp] theorem State.setNow_table (s : State) (x : Nat) : (s.setNow x).table = s.table := rfl
@[simp] theorem State.setNow_freeMarks (s : State) (x : Nat) : (s.setNow x).freeMarks = s.freeMarks := rfl
@[simp] theorem State.setNow_travel (s : State) (x : Nat) : (s.setNow x).travel = s.travel := rfl
@[simp] theorem State.setNow_shafts (s : State) (x : Nat) : (s.setNow x).shafts = s.shafts := rfl
@[simp] theorem State.setNow_engine (s : State) (x : Nat) : (s.setNow x).engine = s.engine := rfl
@[simp] theorem State.setNow_hold (s : State) (x : Nat) : (s.setNow x).hold = s.hold := rfl
@[simp] theorem State.setNow_port (s : State) (x : Nat) : (s.setNow x).port = s.port := rfl
@[simp] theorem State.setNow_link (s : State) (x : Nat) : (s.setNow x).link = s.link := rfl
@[simp] theorem State.setNow_digest (s : State) (x : Nat) : (s.setNow x).digest = s.digest := rfl
@[simp] theorem State.setNow_store (s : State) (x : Nat) : (s.setNow x).store = s.store := rfl
@[simp] theorem State.setNow_encoder (s : State) (x : Nat) : (s.setNow x).encoder = s.encoder := rfl
@[simp] theorem State.setNow_now (s : State) (x : Nat) : (s.setNow x).now = x := rfl
@[simp] theorem State.setNow_freeIndex (s : State) (x : Nat) : (s.setNow x).freeIndex = s.freeIndex := rfl
@[simp] theorem State.setNow_pending (s : State) (x : Nat) : (s.setNow x).pending = s.pending := rfl
@[simp] theorem State.setNow_self (s : State) : s.setNow s.now = s := rfl
@[simp] theorem State.setNow_setNow (s : State) (x y : Nat) : (s.setNow x).setNow y = s.setNow y := rfl
@[simp] theorem State.setNow_shaft (s : State) (x : Nat) (sh : Shaft) : (s.setNow x).shaft sh = s.shaft sh := rfl
@[simp] theorem State.setNow_lane (s : State) (x : Nat) (n : Lane) : (s.setNow x).lane n = s.lane n := rfl
@[simp] theorem State.setNow_reel (s : State) (x : Nat) (h : Handle) : (s.setNow x).reel h = s.reel h := rfl
@[simp] theorem State.setNow_watch (s : State) (x : Nat) (w : Watch) : (s.setNow x).watch w = s.watch w := rfl
@[simp] theorem State.setNow_inReset (s : State) (x : Nat) : (s.setNow x).inReset = s.inReset := rfl
@[simp] theorem State.setNow_tracking (s : State) (x : Nat) : (s.setNow x).tracking = s.tracking := rfl

/-! ## setFreeIndex -/

@[simp] theorem State.setFreeIndex_position (s : State) (x : Nat) : (s.setFreeIndex x).position = s.position := rfl
@[simp] theorem State.setFreeIndex_map (s : State) (x : Nat) : (s.setFreeIndex x).map = s.map := rfl
@[simp] theorem State.setFreeIndex_table (s : State) (x : Nat) : (s.setFreeIndex x).table = s.table := rfl
@[simp] theorem State.setFreeIndex_freeMarks (s : State) (x : Nat) : (s.setFreeIndex x).freeMarks = s.freeMarks := rfl
@[simp] theorem State.setFreeIndex_travel (s : State) (x : Nat) : (s.setFreeIndex x).travel = s.travel := rfl
@[simp] theorem State.setFreeIndex_shafts (s : State) (x : Nat) : (s.setFreeIndex x).shafts = s.shafts := rfl
@[simp] theorem State.setFreeIndex_engine (s : State) (x : Nat) : (s.setFreeIndex x).engine = s.engine := rfl
@[simp] theorem State.setFreeIndex_hold (s : State) (x : Nat) : (s.setFreeIndex x).hold = s.hold := rfl
@[simp] theorem State.setFreeIndex_port (s : State) (x : Nat) : (s.setFreeIndex x).port = s.port := rfl
@[simp] theorem State.setFreeIndex_link (s : State) (x : Nat) : (s.setFreeIndex x).link = s.link := rfl
@[simp] theorem State.setFreeIndex_digest (s : State) (x : Nat) : (s.setFreeIndex x).digest = s.digest := rfl
@[simp] theorem State.setFreeIndex_store (s : State) (x : Nat) : (s.setFreeIndex x).store = s.store := rfl
@[simp] theorem State.setFreeIndex_encoder (s : State) (x : Nat) : (s.setFreeIndex x).encoder = s.encoder := rfl
@[simp] theorem State.setFreeIndex_now (s : State) (x : Nat) : (s.setFreeIndex x).now = s.now := rfl
@[simp] theorem State.setFreeIndex_freeIndex (s : State) (x : Nat) : (s.setFreeIndex x).freeIndex = x := rfl
@[simp] theorem State.setFreeIndex_pending (s : State) (x : Nat) : (s.setFreeIndex x).pending = s.pending := rfl
@[simp] theorem State.setFreeIndex_self (s : State) : s.setFreeIndex s.freeIndex = s := rfl
@[simp] theorem State.setFreeIndex_setFreeIndex (s : State) (x y : Nat) :
    (s.setFreeIndex x).setFreeIndex y = s.setFreeIndex y := rfl
@[simp] theorem State.setFreeIndex_shaft (s : State) (x : Nat) (sh : Shaft) :
    (s.setFreeIndex x).shaft sh = s.shaft sh := rfl
@[simp] theorem State.setFreeIndex_lane (s : State) (x : Nat) (n : Lane) : (s.setFreeIndex x).lane n = s.lane n := rfl
@[simp] theorem State.setFreeIndex_reel (s : State) (x : Nat) (h : Handle) :
    (s.setFreeIndex x).reel h = s.reel h := rfl
@[simp] theorem State.setFreeIndex_watch (s : State) (x : Nat) (w : Watch) :
    (s.setFreeIndex x).watch w = s.watch w := rfl
@[simp] theorem State.setFreeIndex_inReset (s : State) (x : Nat) : (s.setFreeIndex x).inReset = s.inReset := rfl
@[simp] theorem State.setFreeIndex_tracking (s : State) (x : Nat) : (s.setFreeIndex x).tracking = s.tracking := rfl

/-! ## setPending -/

@[simp] theorem State.setPending_position (s : State) (x : List Instr) : (s.setPending x).position = s.position := rfl
@[simp] theorem State.setPending_map (s : State) (x : List Instr) : (s.setPending x).map = s.map := rfl
@[simp] theorem State.setPending_table (s : State) (x : List Instr) : (s.setPending x).table = s.table := rfl
@[simp] theorem State.setPending_freeMarks (s : State) (x : List Instr) :
    (s.setPending x).freeMarks = s.freeMarks := rfl
@[simp] theorem State.setPending_travel (s : State) (x : List Instr) : (s.setPending x).travel = s.travel := rfl
@[simp] theorem State.setPending_shafts (s : State) (x : List Instr) : (s.setPending x).shafts = s.shafts := rfl
@[simp] theorem State.setPending_engine (s : State) (x : List Instr) : (s.setPending x).engine = s.engine := rfl
@[simp] theorem State.setPending_hold (s : State) (x : List Instr) : (s.setPending x).hold = s.hold := rfl
@[simp] theorem State.setPending_port (s : State) (x : List Instr) : (s.setPending x).port = s.port := rfl
@[simp] theorem State.setPending_link (s : State) (x : List Instr) : (s.setPending x).link = s.link := rfl
@[simp] theorem State.setPending_digest (s : State) (x : List Instr) : (s.setPending x).digest = s.digest := rfl
@[simp] theorem State.setPending_store (s : State) (x : List Instr) : (s.setPending x).store = s.store := rfl
@[simp] theorem State.setPending_encoder (s : State) (x : List Instr) : (s.setPending x).encoder = s.encoder := rfl
@[simp] theorem State.setPending_now (s : State) (x : List Instr) : (s.setPending x).now = s.now := rfl
@[simp] theorem State.setPending_freeIndex (s : State) (x : List Instr) :
    (s.setPending x).freeIndex = s.freeIndex := rfl
@[simp] theorem State.setPending_pending (s : State) (x : List Instr) : (s.setPending x).pending = x := rfl
@[simp] theorem State.setPending_self (s : State) : s.setPending s.pending = s := rfl
@[simp] theorem State.setPending_setPending (s : State) (x y : List Instr) :
    (s.setPending x).setPending y = s.setPending y := rfl
@[simp] theorem State.setPending_shaft (s : State) (x : List Instr) (sh : Shaft) :
    (s.setPending x).shaft sh = s.shaft sh := rfl
@[simp] theorem State.setPending_lane (s : State) (x : List Instr) (n : Lane) :
    (s.setPending x).lane n = s.lane n := rfl
@[simp] theorem State.setPending_reel (s : State) (x : List Instr) (h : Handle) :
    (s.setPending x).reel h = s.reel h := rfl
@[simp] theorem State.setPending_watch (s : State) (x : List Instr) (w : Watch) :
    (s.setPending x).watch w = s.watch w := rfl
@[simp] theorem State.setPending_inReset (s : State) (x : List Instr) : (s.setPending x).inReset = s.inReset := rfl
@[simp] theorem State.setPending_tracking (s : State) (x : List Instr) : (s.setPending x).tracking = s.tracking := rfl

/-! ## Pairs -/

@[simp] theorem Pair.get_a {α : Type} (p : Pair α) : p.get .a = p.a := rfl
@[simp] theorem Pair.get_b {α : Type} (p : Pair α) : p.get .b = p.b := rfl
@[simp] theorem Pair.set_a_a {α : Type} (p : Pair α) (x : α) : (p.set .a x).a = x := rfl
@[simp] theorem Pair.set_a_b {α : Type} (p : Pair α) (x : α) : (p.set .a x).b = p.b := rfl
@[simp] theorem Pair.set_b_a {α : Type} (p : Pair α) (x : α) : (p.set .b x).a = p.a := rfl
@[simp] theorem Pair.set_b_b {α : Type} (p : Pair α) (x : α) : (p.set .b x).b = x := rfl
@[simp] theorem Pair.get_set_self {α : Type} (p : Pair α) (sh : Shaft) (x : α) :
    (p.set sh x).get sh = x := by cases sh <;> rfl

theorem Pair.get_set {α : Type} (p : Pair α) (sh sh' : Shaft) (x : α) :
    (p.set sh x).get sh' = if sh' = sh then x else p.get sh' := by
  cases sh <;> cases sh' <;> rfl

@[simp] theorem Pair.get_set_other {α : Type} (p : Pair α) (sh : Shaft) (x : α) :
    (p.set sh x).get (other sh) = p.get (other sh) := by cases sh <;> rfl
@[simp] theorem Pair.get_other_set {α : Type} (p : Pair α) (sh : Shaft) (x : α) :
    (p.set (other sh) x).get sh = p.get sh := by cases sh <;> rfl
@[simp] theorem Pair.set_get {α : Type} (p : Pair α) (sh : Shaft) : p.set sh (p.get sh) = p := by cases sh <;> rfl
@[simp] theorem Pair.set_set {α : Type} (p : Pair α) (sh : Shaft) (x y : α) :
    (p.set sh x).set sh y = p.set sh y := by cases sh <;> rfl
@[simp] theorem other_other (sh : Shaft) : other (other sh) = sh := by cases sh <;> rfl

theorem other_ne (sh : Shaft) : other sh ≠ sh := by cases sh <;> decide

theorem eq_or_other (sh sh' : Shaft) : sh' = sh ∨ sh' = other sh := by cases sh <;> cases sh' <;> decide

@[simp] theorem Spindle.other_other (sp : Spindle) : sp.other.other = sp := by cases sp <;> rfl

/-! ## setSettings -/

@[simp] theorem State.setSettings_position (s : State) (x : Settings) : (s.setSettings x).position = s.position := rfl
@[simp] theorem State.setSettings_map (s : State) (x : Settings) : (s.setSettings x).map = s.map := rfl
@[simp] theorem State.setSettings_table (s : State) (x : Settings) : (s.setSettings x).table = s.table := rfl
@[simp] theorem State.setSettings_freeMarks (s : State) (x : Settings) :
    (s.setSettings x).freeMarks = s.freeMarks := rfl
@[simp] theorem State.setSettings_travel (s : State) (x : Settings) : (s.setSettings x).travel = s.travel := rfl
@[simp] theorem State.setSettings_shafts (s : State) (x : Settings) : (s.setSettings x).shafts = s.shafts := rfl
@[simp] theorem State.setSettings_engine (s : State) (x : Settings) : (s.setSettings x).engine = s.engine := rfl
@[simp] theorem State.setSettings_hold (s : State) (x : Settings) : (s.setSettings x).hold = s.hold := rfl
@[simp] theorem State.setSettings_port (s : State) (x : Settings) : (s.setSettings x).port = s.port := rfl
@[simp] theorem State.setSettings_link (s : State) (x : Settings) : (s.setSettings x).link = s.link := rfl
@[simp] theorem State.setSettings_digest (s : State) (x : Settings) : (s.setSettings x).digest = s.digest := rfl
@[simp] theorem State.setSettings_encoder (s : State) (x : Settings) : (s.setSettings x).encoder = s.encoder := rfl
@[simp] theorem State.setSettings_now (s : State) (x : Settings) : (s.setSettings x).now = s.now := rfl
@[simp] theorem State.setSettings_freeIndex (s : State) (x : Settings) :
    (s.setSettings x).freeIndex = s.freeIndex := rfl
@[simp] theorem State.setSettings_pending (s : State) (x : Settings) : (s.setSettings x).pending = s.pending := rfl
@[simp] theorem State.setSettings_shaft (s : State) (x : Settings) (sh : Shaft) :
    (s.setSettings x).shaft sh = s.shaft sh := rfl
@[simp] theorem State.setSettings_lane (s : State) (x : Settings) (m : Lane) :
    (s.setSettings x).lane m = s.lane m := rfl
@[simp] theorem State.setSettings_reel (s : State) (x : Settings) (g : Handle) :
    (s.setSettings x).reel g = s.reel g := rfl
@[simp] theorem State.setSettings_watch (s : State) (x : Settings) (v : Watch) :
    (s.setSettings x).watch v = s.watch v := rfl

/-! ## setShaft -/

@[simp] theorem State.setShaft_position (s : State) (sh : Shaft) (x : ShaftRec) :
    (s.setShaft sh x).position = s.position := rfl
@[simp] theorem State.setShaft_map (s : State) (sh : Shaft) (x : ShaftRec) : (s.setShaft sh x).map = s.map := rfl
@[simp] theorem State.setShaft_table (s : State) (sh : Shaft) (x : ShaftRec) :
    (s.setShaft sh x).table = s.table := rfl
@[simp] theorem State.setShaft_freeMarks (s : State) (sh : Shaft) (x : ShaftRec) :
    (s.setShaft sh x).freeMarks = s.freeMarks := rfl
@[simp] theorem State.setShaft_travel (s : State) (sh : Shaft) (x : ShaftRec) :
    (s.setShaft sh x).travel = s.travel := rfl
@[simp] theorem State.setShaft_engine (s : State) (sh : Shaft) (x : ShaftRec) :
    (s.setShaft sh x).engine = s.engine := rfl
@[simp] theorem State.setShaft_hold (s : State) (sh : Shaft) (x : ShaftRec) : (s.setShaft sh x).hold = s.hold := rfl
@[simp] theorem State.setShaft_port (s : State) (sh : Shaft) (x : ShaftRec) : (s.setShaft sh x).port = s.port := rfl
@[simp] theorem State.setShaft_link (s : State) (sh : Shaft) (x : ShaftRec) : (s.setShaft sh x).link = s.link := rfl
@[simp] theorem State.setShaft_digest (s : State) (sh : Shaft) (x : ShaftRec) :
    (s.setShaft sh x).digest = s.digest := rfl
@[simp] theorem State.setShaft_store (s : State) (sh : Shaft) (x : ShaftRec) :
    (s.setShaft sh x).store = s.store := rfl
@[simp] theorem State.setShaft_encoder (s : State) (sh : Shaft) (x : ShaftRec) :
    (s.setShaft sh x).encoder = s.encoder := rfl
@[simp] theorem State.setShaft_now (s : State) (sh : Shaft) (x : ShaftRec) : (s.setShaft sh x).now = s.now := rfl
@[simp] theorem State.setShaft_freeIndex (s : State) (sh : Shaft) (x : ShaftRec) :
    (s.setShaft sh x).freeIndex = s.freeIndex := rfl
@[simp] theorem State.setShaft_pending (s : State) (sh : Shaft) (x : ShaftRec) :
    (s.setShaft sh x).pending = s.pending := rfl
@[simp] theorem State.setShaft_lane (s : State) (sh : Shaft) (x : ShaftRec) (m : Lane) :
    (s.setShaft sh x).lane m = s.lane m := rfl
@[simp] theorem State.setShaft_reel (s : State) (sh : Shaft) (x : ShaftRec) (g : Handle) :
    (s.setShaft sh x).reel g = s.reel g := rfl
@[simp] theorem State.setShaft_watch (s : State) (sh : Shaft) (x : ShaftRec) (v : Watch) :
    (s.setShaft sh x).watch v = s.watch v := rfl
@[simp] theorem State.setShaft_inReset (s : State) (sh : Shaft) (x : ShaftRec) :
    (s.setShaft sh x).inReset = s.inReset := rfl
@[simp] theorem State.setShaft_tracking (s : State) (sh : Shaft) (x : ShaftRec) :
    (s.setShaft sh x).tracking = s.tracking := rfl

/-! ## setLane -/

@[simp] theorem State.setLane_position (s : State) (n : Lane) (x : LaneRec) :
    (s.setLane n x).position = s.position := rfl
@[simp] theorem State.setLane_table (s : State) (n : Lane) (x : LaneRec) : (s.setLane n x).table = s.table := rfl
@[simp] theorem State.setLane_freeMarks (s : State) (n : Lane) (x : LaneRec) :
    (s.setLane n x).freeMarks = s.freeMarks := rfl
@[simp] theorem State.setLane_travel (s : State) (n : Lane) (x : LaneRec) : (s.setLane n x).travel = s.travel := rfl
@[simp] theorem State.setLane_shafts (s : State) (n : Lane) (x : LaneRec) : (s.setLane n x).shafts = s.shafts := rfl
@[simp] theorem State.setLane_engine (s : State) (n : Lane) (x : LaneRec) : (s.setLane n x).engine = s.engine := rfl
@[simp] theorem State.setLane_hold (s : State) (n : Lane) (x : LaneRec) : (s.setLane n x).hold = s.hold := rfl
@[simp] theorem State.setLane_port (s : State) (n : Lane) (x : LaneRec) : (s.setLane n x).port = s.port := rfl
@[simp] theorem State.setLane_link (s : State) (n : Lane) (x : LaneRec) : (s.setLane n x).link = s.link := rfl
@[simp] theorem State.setLane_digest (s : State) (n : Lane) (x : LaneRec) : (s.setLane n x).digest = s.digest := rfl
@[simp] theorem State.setLane_store (s : State) (n : Lane) (x : LaneRec) : (s.setLane n x).store = s.store := rfl
@[simp] theorem State.setLane_encoder (s : State) (n : Lane) (x : LaneRec) :
    (s.setLane n x).encoder = s.encoder := rfl
@[simp] theorem State.setLane_now (s : State) (n : Lane) (x : LaneRec) : (s.setLane n x).now = s.now := rfl
@[simp] theorem State.setLane_freeIndex (s : State) (n : Lane) (x : LaneRec) :
    (s.setLane n x).freeIndex = s.freeIndex := rfl
@[simp] theorem State.setLane_pending (s : State) (n : Lane) (x : LaneRec) :
    (s.setLane n x).pending = s.pending := rfl
@[simp] theorem State.setLane_shaft (s : State) (n : Lane) (x : LaneRec) (sh : Shaft) :
    (s.setLane n x).shaft sh = s.shaft sh := rfl
@[simp] theorem State.setLane_reel (s : State) (n : Lane) (x : LaneRec) (g : Handle) :
    (s.setLane n x).reel g = s.reel g := rfl
@[simp] theorem State.setLane_watch (s : State) (n : Lane) (x : LaneRec) (v : Watch) :
    (s.setLane n x).watch v = s.watch v := rfl
@[simp] theorem State.setLane_inReset (s : State) (n : Lane) (x : LaneRec) :
    (s.setLane n x).inReset = s.inReset := rfl
@[simp] theorem State.setLane_tracking (s : State) (n : Lane) (x : LaneRec) :
    (s.setLane n x).tracking = s.tracking := rfl

/-! ## setReel -/

@[simp] theorem State.setReel_position (s : State) (h : Handle) (x : Option Reel) :
    (s.setReel h x).position = s.position := rfl
@[simp] theorem State.setReel_map (s : State) (h : Handle) (x : Option Reel) : (s.setReel h x).map = s.map := rfl
@[simp] theorem State.setReel_freeMarks (s : State) (h : Handle) (x : Option Reel) :
    (s.setReel h x).freeMarks = s.freeMarks := rfl
@[simp] theorem State.setReel_travel (s : State) (h : Handle) (x : Option Reel) :
    (s.setReel h x).travel = s.travel := rfl
@[simp] theorem State.setReel_shafts (s : State) (h : Handle) (x : Option Reel) :
    (s.setReel h x).shafts = s.shafts := rfl
@[simp] theorem State.setReel_engine (s : State) (h : Handle) (x : Option Reel) :
    (s.setReel h x).engine = s.engine := rfl
@[simp] theorem State.setReel_hold (s : State) (h : Handle) (x : Option Reel) : (s.setReel h x).hold = s.hold := rfl
@[simp] theorem State.setReel_port (s : State) (h : Handle) (x : Option Reel) : (s.setReel h x).port = s.port := rfl
@[simp] theorem State.setReel_link (s : State) (h : Handle) (x : Option Reel) : (s.setReel h x).link = s.link := rfl
@[simp] theorem State.setReel_digest (s : State) (h : Handle) (x : Option Reel) :
    (s.setReel h x).digest = s.digest := rfl
@[simp] theorem State.setReel_store (s : State) (h : Handle) (x : Option Reel) :
    (s.setReel h x).store = s.store := rfl
@[simp] theorem State.setReel_encoder (s : State) (h : Handle) (x : Option Reel) :
    (s.setReel h x).encoder = s.encoder := rfl
@[simp] theorem State.setReel_now (s : State) (h : Handle) (x : Option Reel) : (s.setReel h x).now = s.now := rfl
@[simp] theorem State.setReel_freeIndex (s : State) (h : Handle) (x : Option Reel) :
    (s.setReel h x).freeIndex = s.freeIndex := rfl
@[simp] theorem State.setReel_pending (s : State) (h : Handle) (x : Option Reel) :
    (s.setReel h x).pending = s.pending := rfl
@[simp] theorem State.setReel_shaft (s : State) (h : Handle) (x : Option Reel) (sh : Shaft) :
    (s.setReel h x).shaft sh = s.shaft sh := rfl
@[simp] theorem State.setReel_lane (s : State) (h : Handle) (x : Option Reel) (m : Lane) :
    (s.setReel h x).lane m = s.lane m := rfl
@[simp] theorem State.setReel_watch (s : State) (h : Handle) (x : Option Reel) (v : Watch) :
    (s.setReel h x).watch v = s.watch v := rfl
@[simp] theorem State.setReel_inReset (s : State) (h : Handle) (x : Option Reel) :
    (s.setReel h x).inReset = s.inReset := rfl
@[simp] theorem State.setReel_tracking (s : State) (h : Handle) (x : Option Reel) :
    (s.setReel h x).tracking = s.tracking := rfl

/-! ## mapReels -/

@[simp] theorem State.mapReels_position (s : State) (f : Reel → Reel) :
    (s.mapReels f).position = s.position := by rw [State.mapReels, State.setTable_position]
@[simp] theorem State.mapReels_map (s : State) (f : Reel → Reel) :
    (s.mapReels f).map = s.map := by rw [State.mapReels, State.setTable_map]
@[simp] theorem State.mapReels_freeMarks (s : State) (f : Reel → Reel) :
    (s.mapReels f).freeMarks = s.freeMarks := by rw [State.mapReels, State.setTable_freeMarks]
@[simp] theorem State.mapReels_travel (s : State) (f : Reel → Reel) :
    (s.mapReels f).travel = s.travel := by rw [State.mapReels, State.setTable_travel]
@[simp] theorem State.mapReels_shafts (s : State) (f : Reel → Reel) :
    (s.mapReels f).shafts = s.shafts := by rw [State.mapReels, State.setTable_shafts]
@[simp] theorem State.mapReels_engine (s : State) (f : Reel → Reel) :
    (s.mapReels f).engine = s.engine := by rw [State.mapReels, State.setTable_engine]
@[simp] theorem State.mapReels_hold (s : State) (f : Reel → Reel) :
    (s.mapReels f).hold = s.hold := by rw [State.mapReels, State.setTable_hold]
@[simp] theorem State.mapReels_port (s : State) (f : Reel → Reel) :
    (s.mapReels f).port = s.port := by rw [State.mapReels, State.setTable_port]
@[simp] theorem State.mapReels_link (s : State) (f : Reel → Reel) :
    (s.mapReels f).link = s.link := by rw [State.mapReels, State.setTable_link]
@[simp] theorem State.mapReels_digest (s : State) (f : Reel → Reel) :
    (s.mapReels f).digest = s.digest := by rw [State.mapReels, State.setTable_digest]
@[simp] theorem State.mapReels_store (s : State) (f : Reel → Reel) :
    (s.mapReels f).store = s.store := by rw [State.mapReels, State.setTable_store]
@[simp] theorem State.mapReels_encoder (s : State) (f : Reel → Reel) :
    (s.mapReels f).encoder = s.encoder := by rw [State.mapReels, State.setTable_encoder]
@[simp] theorem State.mapReels_now (s : State) (f : Reel → Reel) :
    (s.mapReels f).now = s.now := by rw [State.mapReels, State.setTable_now]
@[simp] theorem State.mapReels_freeIndex (s : State) (f : Reel → Reel) :
    (s.mapReels f).freeIndex = s.freeIndex := by rw [State.mapReels, State.setTable_freeIndex]
@[simp] theorem State.mapReels_pending (s : State) (f : Reel → Reel) :
    (s.mapReels f).pending = s.pending := by rw [State.mapReels, State.setTable_pending]
@[simp] theorem State.mapReels_shaft (s : State) (f : Reel → Reel) (sh : Shaft) :
    (s.mapReels f).shaft sh = s.shaft sh := by rw [State.mapReels, State.setTable_shaft]
@[simp] theorem State.mapReels_lane (s : State) (f : Reel → Reel) (m : Lane) :
    (s.mapReels f).lane m = s.lane m := by rw [State.mapReels, State.setTable_lane]
@[simp] theorem State.mapReels_watch (s : State) (f : Reel → Reel) (v : Watch) :
    (s.mapReels f).watch v = s.watch v := by rw [State.mapReels, State.setTable_watch]
@[simp] theorem State.mapReels_inReset (s : State) (f : Reel → Reel) :
    (s.mapReels f).inReset = s.inReset := by rw [State.mapReels, State.setTable_inReset]
@[simp] theorem State.mapReels_tracking (s : State) (f : Reel → Reel) :
    (s.mapReels f).tracking = s.tracking := by rw [State.mapReels, State.setTable_tracking]

/-! ## mapLanes -/

@[simp] theorem State.mapLanes_position (s : State) (f : LaneRec → LaneRec) :
    (s.mapLanes f).position = s.position := by rw [State.mapLanes, State.setMap_position]
@[simp] theorem State.mapLanes_table (s : State) (f : LaneRec → LaneRec) :
    (s.mapLanes f).table = s.table := by rw [State.mapLanes, State.setMap_table]
@[simp] theorem State.mapLanes_freeMarks (s : State) (f : LaneRec → LaneRec) :
    (s.mapLanes f).freeMarks = s.freeMarks := by rw [State.mapLanes, State.setMap_freeMarks]
@[simp] theorem State.mapLanes_travel (s : State) (f : LaneRec → LaneRec) :
    (s.mapLanes f).travel = s.travel := by rw [State.mapLanes, State.setMap_travel]
@[simp] theorem State.mapLanes_shafts (s : State) (f : LaneRec → LaneRec) :
    (s.mapLanes f).shafts = s.shafts := by rw [State.mapLanes, State.setMap_shafts]
@[simp] theorem State.mapLanes_engine (s : State) (f : LaneRec → LaneRec) :
    (s.mapLanes f).engine = s.engine := by rw [State.mapLanes, State.setMap_engine]
@[simp] theorem State.mapLanes_hold (s : State) (f : LaneRec → LaneRec) :
    (s.mapLanes f).hold = s.hold := by rw [State.mapLanes, State.setMap_hold]
@[simp] theorem State.mapLanes_port (s : State) (f : LaneRec → LaneRec) :
    (s.mapLanes f).port = s.port := by rw [State.mapLanes, State.setMap_port]
@[simp] theorem State.mapLanes_link (s : State) (f : LaneRec → LaneRec) :
    (s.mapLanes f).link = s.link := by rw [State.mapLanes, State.setMap_link]
@[simp] theorem State.mapLanes_digest (s : State) (f : LaneRec → LaneRec) :
    (s.mapLanes f).digest = s.digest := by rw [State.mapLanes, State.setMap_digest]
@[simp] theorem State.mapLanes_store (s : State) (f : LaneRec → LaneRec) :
    (s.mapLanes f).store = s.store := by rw [State.mapLanes, State.setMap_store]
@[simp] theorem State.mapLanes_encoder (s : State) (f : LaneRec → LaneRec) :
    (s.mapLanes f).encoder = s.encoder := by rw [State.mapLanes, State.setMap_encoder]
@[simp] theorem State.mapLanes_now (s : State) (f : LaneRec → LaneRec) :
    (s.mapLanes f).now = s.now := by rw [State.mapLanes, State.setMap_now]
@[simp] theorem State.mapLanes_freeIndex (s : State) (f : LaneRec → LaneRec) :
    (s.mapLanes f).freeIndex = s.freeIndex := by rw [State.mapLanes, State.setMap_freeIndex]
@[simp] theorem State.mapLanes_pending (s : State) (f : LaneRec → LaneRec) :
    (s.mapLanes f).pending = s.pending := by rw [State.mapLanes, State.setMap_pending]
@[simp] theorem State.mapLanes_shaft (s : State) (f : LaneRec → LaneRec) (sh : Shaft) :
    (s.mapLanes f).shaft sh = s.shaft sh := by rw [State.mapLanes, State.setMap_shaft]
@[simp] theorem State.mapLanes_reel (s : State) (f : LaneRec → LaneRec) (g : Handle) :
    (s.mapLanes f).reel g = s.reel g := by rw [State.mapLanes, State.setMap_reel]
@[simp] theorem State.mapLanes_watch (s : State) (f : LaneRec → LaneRec) (v : Watch) :
    (s.mapLanes f).watch v = s.watch v := by rw [State.mapLanes, State.setMap_watch]
@[simp] theorem State.mapLanes_inReset (s : State) (f : LaneRec → LaneRec) :
    (s.mapLanes f).inReset = s.inReset := by rw [State.mapLanes, State.setMap_inReset]
@[simp] theorem State.mapLanes_tracking (s : State) (f : LaneRec → LaneRec) :
    (s.mapLanes f).tracking = s.tracking := by rw [State.mapLanes, State.setMap_tracking]

/-! ## setWatch -/

@[simp] theorem State.setWatch_map (s : State) (w : Watch) (x : Option Nat) : (s.setWatch w x).map = s.map := rfl
@[simp] theorem State.setWatch_table (s : State) (w : Watch) (x : Option Nat) :
    (s.setWatch w x).table = s.table := rfl
@[simp] theorem State.setWatch_freeMarks (s : State) (w : Watch) (x : Option Nat) :
    (s.setWatch w x).freeMarks = s.freeMarks := rfl
@[simp] theorem State.setWatch_travel (s : State) (w : Watch) (x : Option Nat) :
    (s.setWatch w x).travel = s.travel := rfl
@[simp] theorem State.setWatch_shafts (s : State) (w : Watch) (x : Option Nat) :
    (s.setWatch w x).shafts = s.shafts := rfl
@[simp] theorem State.setWatch_engine (s : State) (w : Watch) (x : Option Nat) :
    (s.setWatch w x).engine = s.engine := rfl
@[simp] theorem State.setWatch_hold (s : State) (w : Watch) (x : Option Nat) : (s.setWatch w x).hold = s.hold := rfl
@[simp] theorem State.setWatch_port (s : State) (w : Watch) (x : Option Nat) : (s.setWatch w x).port = s.port := rfl
@[simp] theorem State.setWatch_link (s : State) (w : Watch) (x : Option Nat) : (s.setWatch w x).link = s.link := rfl
@[simp] theorem State.setWatch_digest (s : State) (w : Watch) (x : Option Nat) :
    (s.setWatch w x).digest = s.digest := rfl
@[simp] theorem State.setWatch_store (s : State) (w : Watch) (x : Option Nat) :
    (s.setWatch w x).store = s.store := rfl
@[simp] theorem State.setWatch_encoder (s : State) (w : Watch) (x : Option Nat) :
    (s.setWatch w x).encoder = s.encoder := rfl
@[simp] theorem State.setWatch_now (s : State) (w : Watch) (x : Option Nat) : (s.setWatch w x).now = s.now := rfl
@[simp] theorem State.setWatch_freeIndex (s : State) (w : Watch) (x : Option Nat) :
    (s.setWatch w x).freeIndex = s.freeIndex := rfl
@[simp] theorem State.setWatch_pending (s : State) (w : Watch) (x : Option Nat) :
    (s.setWatch w x).pending = s.pending := rfl
@[simp] theorem State.setWatch_shaft (s : State) (w : Watch) (x : Option Nat) (sh : Shaft) :
    (s.setWatch w x).shaft sh = s.shaft sh := rfl
@[simp] theorem State.setWatch_lane (s : State) (w : Watch) (x : Option Nat) (m : Lane) :
    (s.setWatch w x).lane m = s.lane m := rfl
@[simp] theorem State.setWatch_reel (s : State) (w : Watch) (x : Option Nat) (g : Handle) :
    (s.setWatch w x).reel g = s.reel g := rfl
@[simp] theorem State.setWatch_inReset (s : State) (w : Watch) (x : Option Nat) :
    (s.setWatch w x).inReset = s.inReset := rfl
@[simp] theorem State.setWatch_tracking (s : State) (w : Watch) (x : Option Nat) :
    (s.setWatch w x).tracking = s.tracking := rfl

/-! ## report -/

@[simp] theorem State.report_map (s : State) (w : Watch) (x : Nat) : (s.report w x).map = s.map := rfl
@[simp] theorem State.report_table (s : State) (w : Watch) (x : Nat) : (s.report w x).table = s.table := rfl
@[simp] theorem State.report_freeMarks (s : State) (w : Watch) (x : Nat) :
    (s.report w x).freeMarks = s.freeMarks := rfl
@[simp] theorem State.report_travel (s : State) (w : Watch) (x : Nat) : (s.report w x).travel = s.travel := rfl
@[simp] theorem State.report_shafts (s : State) (w : Watch) (x : Nat) : (s.report w x).shafts = s.shafts := rfl
@[simp] theorem State.report_engine (s : State) (w : Watch) (x : Nat) : (s.report w x).engine = s.engine := rfl
@[simp] theorem State.report_hold (s : State) (w : Watch) (x : Nat) : (s.report w x).hold = s.hold := rfl
@[simp] theorem State.report_port (s : State) (w : Watch) (x : Nat) : (s.report w x).port = s.port := rfl
@[simp] theorem State.report_link (s : State) (w : Watch) (x : Nat) : (s.report w x).link = s.link := rfl
@[simp] theorem State.report_digest (s : State) (w : Watch) (x : Nat) : (s.report w x).digest = s.digest := rfl
@[simp] theorem State.report_store (s : State) (w : Watch) (x : Nat) : (s.report w x).store = s.store := rfl
@[simp] theorem State.report_encoder (s : State) (w : Watch) (x : Nat) : (s.report w x).encoder = s.encoder := rfl
@[simp] theorem State.report_now (s : State) (w : Watch) (x : Nat) : (s.report w x).now = s.now := rfl
@[simp] theorem State.report_freeIndex (s : State) (w : Watch) (x : Nat) :
    (s.report w x).freeIndex = s.freeIndex := rfl
@[simp] theorem State.report_pending (s : State) (w : Watch) (x : Nat) : (s.report w x).pending = s.pending := rfl
@[simp] theorem State.report_shaft (s : State) (w : Watch) (x : Nat) (sh : Shaft) :
    (s.report w x).shaft sh = s.shaft sh := rfl
@[simp] theorem State.report_lane (s : State) (w : Watch) (x : Nat) (m : Lane) :
    (s.report w x).lane m = s.lane m := rfl
@[simp] theorem State.report_reel (s : State) (w : Watch) (x : Nat) (g : Handle) :
    (s.report w x).reel g = s.reel g := rfl
@[simp] theorem State.report_inReset (s : State) (w : Watch) (x : Nat) : (s.report w x).inReset = s.inReset := rfl
@[simp] theorem State.report_tracking (s : State) (w : Watch) (x : Nat) : (s.report w x).tracking = s.tracking := rfl

/-! ## disarm -/

@[simp] theorem State.disarm_map (s : State) (w : Watch) : (s.disarm w).map = s.map := rfl
@[simp] theorem State.disarm_table (s : State) (w : Watch) : (s.disarm w).table = s.table := rfl
@[simp] theorem State.disarm_freeMarks (s : State) (w : Watch) : (s.disarm w).freeMarks = s.freeMarks := rfl
@[simp] theorem State.disarm_travel (s : State) (w : Watch) : (s.disarm w).travel = s.travel := rfl
@[simp] theorem State.disarm_shafts (s : State) (w : Watch) : (s.disarm w).shafts = s.shafts := rfl
@[simp] theorem State.disarm_engine (s : State) (w : Watch) : (s.disarm w).engine = s.engine := rfl
@[simp] theorem State.disarm_hold (s : State) (w : Watch) : (s.disarm w).hold = s.hold := rfl
@[simp] theorem State.disarm_port (s : State) (w : Watch) : (s.disarm w).port = s.port := rfl
@[simp] theorem State.disarm_link (s : State) (w : Watch) : (s.disarm w).link = s.link := rfl
@[simp] theorem State.disarm_digest (s : State) (w : Watch) : (s.disarm w).digest = s.digest := rfl
@[simp] theorem State.disarm_store (s : State) (w : Watch) : (s.disarm w).store = s.store := rfl
@[simp] theorem State.disarm_encoder (s : State) (w : Watch) : (s.disarm w).encoder = s.encoder := rfl
@[simp] theorem State.disarm_now (s : State) (w : Watch) : (s.disarm w).now = s.now := rfl
@[simp] theorem State.disarm_freeIndex (s : State) (w : Watch) : (s.disarm w).freeIndex = s.freeIndex := rfl
@[simp] theorem State.disarm_pending (s : State) (w : Watch) : (s.disarm w).pending = s.pending := rfl
@[simp] theorem State.disarm_shaft (s : State) (w : Watch) (sh : Shaft) : (s.disarm w).shaft sh = s.shaft sh := rfl
@[simp] theorem State.disarm_lane (s : State) (w : Watch) (m : Lane) : (s.disarm w).lane m = s.lane m := rfl
@[simp] theorem State.disarm_reel (s : State) (w : Watch) (g : Handle) : (s.disarm w).reel g = s.reel g := rfl
@[simp] theorem State.disarm_inReset (s : State) (w : Watch) : (s.disarm w).inReset = s.inReset := rfl
@[simp] theorem State.disarm_tracking (s : State) (w : Watch) : (s.disarm w).tracking = s.tracking := rfl

/-! ## Reading back -/

@[simp] theorem State.setSettings_settings (s : State) (x : Settings) : (s.setSettings x).settings = x := rfl
@[simp] theorem State.setSettings_inReset (s : State) (x : Settings) : (s.setSettings x).inReset = s.inReset := rfl
@[simp] theorem State.setSettings_tracking (s : State) (x : Settings) : (s.setSettings x).tracking = s.tracking := rfl
@[simp] theorem State.setSettings_self (s : State) : s.setSettings s.settings = s := rfl
@[simp] theorem State.setShaft_shaft_self (s : State) (sh : Shaft) (x : ShaftRec) : (s.setShaft sh x).shaft sh = x :=
  Pair.get_set_self ..

theorem State.setShaft_shaft (s : State) (sh sh' : Shaft) (x : ShaftRec) :
    (s.setShaft sh x).shaft sh' = if sh' = sh then x else s.shaft sh' :=
  Pair.get_set ..

@[simp] theorem State.setShaft_shaft_other (s : State) (sh : Shaft) (x : ShaftRec) :
    (s.setShaft sh x).shaft (other sh) = s.shaft (other sh) :=
  Pair.get_set_other ..

@[simp] theorem State.setShaft_self (s : State) (sh : Shaft) : s.setShaft sh (s.shaft sh) = s := by
  cases sh <;> rfl

@[simp] theorem State.setShaft_setShaft (s : State) (sh : Shaft) (x y : ShaftRec) :
    (s.setShaft sh x).setShaft sh y = s.setShaft sh y := by
  cases sh <;> rfl

@[simp] theorem State.setLane_lane_self (s : State) (n : Lane) (x : LaneRec) : (s.setLane n x).lane n = x := by
  simp [State.setLane, State.lane, State.setMap]

theorem State.setLane_lane (s : State) (n m : Lane) (x : LaneRec) :
    (s.setLane n x).lane m = if m = n then x else s.lane m := by
  by_cases h : m = n
  · simp [h]
  · have : ¬ n.val = m.val := fun e => h (Fin.ext e.symm)
    simp [State.setLane, State.lane, State.setMap, h, this]

@[simp] theorem State.mapLanes_lane (s : State) (f : LaneRec → LaneRec) (n : Lane) :
    (s.mapLanes f).lane n = f (s.lane n) := by
  simp [State.mapLanes, State.lane, State.setMap]

@[simp] theorem State.setLane_order (s : State) (n : Lane) (x : LaneRec) : (s.setLane n x).map.order = s.map.order := rfl
@[simp] theorem State.setLane_trim (s : State) (n : Lane) (x : LaneRec) : (s.setLane n x).map.trim = s.map.trim := rfl
@[simp] theorem State.mapLanes_order (s : State) (f : LaneRec → LaneRec) : (s.mapLanes f).map.order = s.map.order := by
  rw [State.mapLanes, State.setMap_map]
@[simp] theorem State.mapLanes_trim (s : State) (f : LaneRec → LaneRec) : (s.mapLanes f).map.trim = s.map.trim := by
  rw [State.mapLanes, State.setMap_map]

@[simp] theorem State.setReel_reel_self (s : State) (h : Handle) (x : Option Reel) : (s.setReel h x).reel h = x := by
  simp [State.setReel, State.reel, State.setTable]

theorem State.setReel_reel (s : State) (h g : Handle) (x : Option Reel) :
    (s.setReel h x).reel g = if g = h then x else s.reel g := by
  by_cases e : g = h
  · simp [e]
  · have : ¬ h.val = g.val := fun e' => e (Fin.ext e'.symm)
    simp [State.setReel, State.reel, State.setTable, e, this]

@[simp] theorem State.mapReels_reel (s : State) (f : Reel → Reel) (h : Handle) :
    (s.mapReels f).reel h = (s.reel h).map f := by
  simp [State.mapReels, State.reel, State.setTable]

@[simp] theorem State.setReel_free (s : State) (h : Handle) (x : Option Reel) : (s.setReel h x).table.free = s.table.free := rfl
@[simp] theorem State.setReel_reserved (s : State) (h : Handle) (x : Option Reel) :
    (s.setReel h x).table.reserved = s.table.reserved := rfl
@[simp] theorem State.mapReels_free (s : State) (f : Reel → Reel) : (s.mapReels f).table.free = s.table.free := by
  rw [State.mapReels, State.setTable_table]
@[simp] theorem State.mapReels_reserved (s : State) (f : Reel → Reel) :
    (s.mapReels f).table.reserved = s.table.reserved := by
  rw [State.mapReels, State.setTable_table]

theorem WatchTable.get_set (t : WatchTable) (w v : Watch) (x : Option Nat) :
    (t.set w x).get v = if v = w then x else t.get v := by
  rcases w with _ | sh | ⟨sh, k⟩ | _ <;> rcases v with _ | sh' | ⟨sh', k'⟩ | _ <;>
    first
    | rfl
    | (cases sh <;> cases sh' <;> rfl)
    | (cases sh <;> cases sh' <;> cases k <;> cases k' <;> rfl)

theorem State.setWatch_watch (s : State) (w v : Watch) (x : Option Nat) :
    (s.setWatch w x).watch v = if v = w then x else s.watch v :=
  WatchTable.get_set ..

@[simp] theorem State.report_watch (s : State) (w v : Watch) (x : Nat) : (s.report w x).watch v = s.watch v := rfl

theorem State.disarm_watch (s : State) (w v : Watch) : (s.disarm w).watch v = if v = w then none else s.watch v :=
  WatchTable.get_set ..

/-- The tables of two states agree where their records and their counts do. -/
theorem ReelTable.ext_reel {s t : State} (hr : ∀ h, s.reel h = t.reel h) (hf : s.table.free = t.table.free)
    (hv : s.table.reserved = t.table.reserved) : s.table = t.table := by
  have : s.table.reels = t.table.reels := Vector.ext fun i hi => hr ⟨i, hi⟩
  cases hs : s.table; cases ht : t.table
  simp_all

/-- The lane tables of two states agree where their lanes do. -/
theorem KnifeMap.ext_lane {s t : State} (hl : ∀ n, s.lane n = t.lane n) : s.map.lanes = t.map.lanes :=
  Vector.ext fun i hi => hl ⟨i, hi⟩

end Sys2Proof.Machine
end

