-- ==== Sys2Proof/Laws/Frames.lean ====
section
/-! SUPPORT. What each shared operation can touch, said once: the operation gives the state it was given with new values
for the fields named, and for nothing else. A proof about any other field rewrites with the equation and is done. -/

namespace Sys2Proof.Machine

/-- A relation that is reflexive and transitive, and holds across one step of a fold, holds across the whole fold. -/
theorem foldl_rel {α : Type} {R : State → State → Prop} (refl : ∀ s, R s s) (trans : ∀ {s t u}, R s t → R t u → R s u)
    {f : State → α → State} (hf : ∀ s a, R s (f s a)) (as : List α) (s : State) : R s (as.foldl f s) := by
  induction as generalizing s with
  | nil => exact refl s
  | cons a as ih => exact trans (hf s a) (ih (f s a))

/-! ## Timers -/

/-- The one way in which an expiry stands. -/
theorem stands_iff {now : Nat} {timer : Option Nat} : stands now timer = true ↔ ∃ e ∈ timer, e ≤ now := by
  simp [stands, Option.any_eq_true]

/-- A stopped timer, or one that runs to a later time, has no expiry that stands. -/
theorem stands_eq_false {now : Nat} {timer : Option Nat} (h : ∀ e ∈ timer, now < e) : stands now timer = false := by
  rw [Bool.eq_false_iff, Ne, stands_iff]
  rintro ⟨e, he, le⟩
  exact absurd (h e he) (by omega)

/-! ## Alerts and watches -/

theorem State.updateDigest_frame (s : State) (d : DigestUnit) : ∃ x, s.updateDigest d = { s with digest := x } :=
  ⟨_, rfl⟩

theorem State.raise_frame (s : State) (a : Alert) : ∃ d, s.raise a = { s with digest := d } := ⟨_, rfl⟩

theorem State.raiseIf_frame (s : State) (c : Bool) (a : Alert) : ∃ d, s.raiseIf c a = { s with digest := d } := by
  unfold State.raiseIf
  split
  · exact s.raise_frame a
  · exact ⟨_, rfl⟩

/-- Arming touches the watch and the arrivals. -/
theorem State.arm_frame (s : State) (w : Watch) (x : Nat) :
    ∃ t l, s.arm w x = { s with position := { s.position with watches := t, arrivals := l } } := by
  unfold State.arm
  split <;> exact ⟨_, _, rfl⟩

theorem State.disarm_frame (s : State) (w : Watch) :
    ∃ t l, s.disarm w = { s with position := { s.position with watches := t, arrivals := l } } :=
  ⟨_, _, rfl⟩

theorem State.reportReached_frame (s : State) (w : Watch) :
    ∃ t l, s.reportReached w = { s with position := { s.position with watches := t, arrivals := l } } := by
  unfold State.reportReached
  split
  · exact ⟨_, _, rfl⟩
  · split <;> exact ⟨_, _, rfl⟩

/-- An operation on watches made for every element of a list touches the watches and the arrivals. -/
theorem foldl_watch_frame {α : Type} (f : State → α → State)
    (hf : ∀ s a, ∃ t l, f s a = { s with position := { s.position with watches := t, arrivals := l } }) (as : List α)
    (s : State) :
    ∃ t l, as.foldl f s = { s with position := { s.position with watches := t, arrivals := l } } := by
  induction as generalizing s with
  | nil => exact ⟨_, _, rfl⟩
  | cons a as ih =>
    obtain ⟨t, l, h⟩ := hf s a
    simpa [h] using ih { s with position := { s.position with watches := t, arrivals := l } }

theorem State.reportAll_frame (s : State) :
    ∃ t l, s.reportAll = { s with position := { s.position with watches := t, arrivals := l } } :=
  foldl_watch_frame _ State.reportReached_frame _ s

theorem State.disarmThresholds_frame (s : State) (sh : Shaft) :
    ∃ t l, s.disarmThresholds sh = { s with position := { s.position with watches := t, arrivals := l } } :=
  foldl_watch_frame _ (fun _ _ => State.disarm_frame _ _) _ s

theorem State.armSweep_frame (s : State) (x : Nat) :
    ∃ t l, s.armSweep x = { s with position := { s.position with watches := t, arrivals := l } } := by
  unfold State.armSweep
  split
  · exact s.disarm_frame _
  · exact s.arm_frame _ _

theorem State.setKnifeWatch_frame (s : State) :
    ∃ t l, s.setKnifeWatch = { s with position := { s.position with watches := t, arrivals := l } } := by
  unfold State.setKnifeWatch
  split
  · exact s.disarm_frame _
  · exact s.arm_frame _ _

theorem State.setNipWatch_frame (s : State) (sh : Shaft) :
    ∃ t l, s.setNipWatch sh = { s with position := { s.position with watches := t, arrivals := l } } := by
  unfold State.setNipWatch
  split
  · exact s.disarm_frame _
  · split
    · exact s.disarm_frame _
    · exact s.arm_frame _ _

/-! ## Counting -/

theorem State.moved_frame (s : State) (d : Direction) : ∃ u, s.moved d = { s with position := u } := ⟨_, rfl⟩

theorem State.positionLimit_frame (s : State) : ∃ u d, s.positionLimit = { s with position := u, digest := d } := by
  unfold State.positionLimit
  split <;> exact ⟨_, _, rfl⟩

theorem State.forwardCount_frame (s : State) : ∃ u d, s.forwardCount = { s with position := u, digest := d } := by
  have limit : ∀ (c : Bool) (t : State),
      ∃ u d, (if c then t.positionLimit else t) = { t with position := u, digest := d } := by
    intro c t
    split
    · exact t.positionLimit_frame
    · exact ⟨_, _, rfl⟩
  unfold State.forwardCount
  simp only []
  obtain ⟨u, d, h⟩ := limit (countUp s.settings.nEnc s.position.p s.position.r).2.2
    ((s.setPosition { s.position with
      p := (countUp s.settings.nEnc s.position.p s.position.r).1
      r := (countUp s.settings.nEnc s.position.p s.position.r).2.1 }).moved .forward)
  rw [h]
  split
  · obtain ⟨t, l, h'⟩ := State.reportAll_frame { s with position := u, digest := d }
    exact ⟨_, d, h'⟩
  · exact ⟨u, d, rfl⟩

theorem State.reverseCount_frame (s : State) : ∃ u, s.reverseCount = { s with position := u } := ⟨_, rfl⟩

/-- Decoding a pair touches the position unit, and the digest unit where the limit is met. -/
theorem State.decodePair_frame (s : State) (pair : Bool × Bool) :
    ∃ u d, s.decodePair pair = { s with position := u, digest := d } := by
  unfold State.decodePair
  simp only []
  split
  · obtain ⟨u, d, h⟩ := State.forwardCount_frame (s.setPosition { s.position with reference := pair })
    exact ⟨u, d, h⟩
  · split
    · obtain ⟨u, h⟩ := State.reverseCount_frame (s.setPosition { s.position with reference := pair })
      exact ⟨u, _, h⟩
    · exact ⟨_, _, rfl⟩

/-! ## The hold unit -/

theorem State.takeCauses_frame (s : State) (c : Causes) : ∃ h, s.takeCauses c = { s with hold := h } := by
  unfold State.takeCauses
  split <;> exact ⟨_, rfl⟩

theorem State.announce_frame (before after : State) : ∃ d, before.announce after = { after with digest := d } :=
  State.raiseIf_frame ..

/-- The hold unit's part of an event touches the hold unit and, for HOLD_CHANGED, the digest unit. -/
theorem State.settle_frame (before after : State) :
    ∃ h d, before.settle after = { after with hold := h, digest := d } := by
  unfold State.settle
  split
  · exact ⟨_, _, rfl⟩
  · obtain ⟨h, hh⟩ := State.takeCauses_frame (before.takeCounts after) (before.eventCauses after)
    rw [hh]
    obtain ⟨d, hd⟩ := before.announce_frame { before.takeCounts after with hold := h }
    exact ⟨h, d, hd⟩

/-! ## Landings and the knife map -/

/-- A landing touches the record, the mark pool and the alerts. -/
theorem State.land_frame (s : State) (h : Handle) (m : Mark) :
    ∃ t n d, s.land h m = { s with table := t, freeMarks := n, digest := d } := by
  unfold State.land
  split
  · exact ⟨_, _, _, rfl⟩
  · simp only [State.raiseIf]
    split <;> split <;> split <;> exact ⟨_, _, _, rfl⟩

theorem State.countTrim_frame (s : State) (lo hi : Nat) :
    ∃ n, s.countTrim lo hi = { s with map := { s.map with trim := n } } := by
  unfold State.countTrim
  split <;> exact ⟨_, rfl⟩

theorem State.countUntracked_frame (s : State) (n : Lane) :
    ∃ l, s.countUntracked n = { s with map := { s.map with lanes := l } } :=
  ⟨_, rfl⟩

/-! ## The travel list -/

theorem State.missed_frame (s : State) (n : Lane) (late : Bool) :
    ∃ l k, s.missed n late = { s with map := { s.map with lanes := l }, travel := { s.travel with tooLate := k } } := by
  unfold State.missed
  simp only []
  split <;> exact ⟨_, _, rfl⟩

/-- One lane released touches a record with the pool and the alerts, or the lane's tally and TOO_LATE. -/
theorem State.releaseLane_frame (s : State) (sh : Shaft) (e : NipEntry) (l : LaneHit) :
    ∃ ls t n k d, s.releaseLane sh e l = { s with
      map := { s.map with lanes := ls }
      table := t
      freeMarks := n
      travel := { s.travel with tooLate := k }
      digest := d } := by
  unfold State.releaseLane
  split
  · obtain ⟨t, n, d, h⟩ := s.land_frame ‹Handle› (e.mark l)
    exact ⟨_, t, n, _, d, h⟩
  · obtain ⟨ls, k, h⟩ := s.missed_frame l.lane e.late
    exact ⟨ls, _, _, k, _, h⟩

/-- One entry released: its lanes, then its slot and the shaft's current parent. -/
theorem State.releaseEntry_frame (s : State) (sh : Shaft) (e : NipEntry) :
    ∃ ls t n k d, State.releaseEntry sh s e = { s with
      map := { s.map with lanes := ls }
      table := t
      freeMarks := n
      travel := { s.travel with
        free := s.travel.free + 1
        tooLate := k
        current := (s.travel.release sh e.finding).current }
      digest := d } := by
  have key : ∀ (as : List LaneHit) (s : State), ∃ ls t n k d, as.foldl (fun t l => t.releaseLane sh e l) s = { s with
      map := { s.map with lanes := ls }
      table := t
      freeMarks := n
      travel := { s.travel with tooLate := k }
      digest := d } := by
    intro as
    induction as with
    | nil => intro s; exact ⟨_, _, _, _, _, rfl⟩
    | cons a as ih =>
      intro s
      obtain ⟨ls, t, n, k, d, h⟩ := s.releaseLane_frame sh e a
      rw [List.foldl_cons, h]
      obtain ⟨ls, t, n, k, d, h'⟩ := ih { s with
        map := { s.map with lanes := ls }, table := t, freeMarks := n, travel := { s.travel with tooLate := k },
        digest := d }
      exact ⟨ls, t, n, k, d, h'⟩
  obtain ⟨ls, t, n, k, d, h⟩ := key e.lanes s
  unfold State.releaseEntry
  simp only [h]
  exact ⟨ls, t, n, k, d, rfl⟩

/-- The entries a release pass takes: one slot each, and nothing else of the stages. -/
theorem State.releaseEntries_frame (sh : Shaft) (es : List NipEntry) (s : State) :
    ∃ ls t n c k d, es.foldl (State.releaseEntry sh) s = { s with
      map := { s.map with lanes := ls }
      table := t
      freeMarks := n
      travel := { s.travel with free := s.travel.free + es.length, tooLate := k, current := c }
      digest := d } := by
  induction es generalizing s with
  | nil => exact ⟨_, _, _, _, _, _, rfl⟩
  | cons e es ih =>
    obtain ⟨ls, t, n, k, d, h⟩ := s.releaseEntry_frame sh e
    rw [List.foldl_cons, h]
    obtain ⟨ls, t, n, c, k, d, h'⟩ := ih { s with
      map := { s.map with lanes := ls }
      table := t
      freeMarks := n
      travel := { s.travel with
        free := s.travel.free + 1
        tooLate := k
        current := (s.travel.release sh e.finding).current }
      digest := d }
    refine ⟨ls, t, n, c, k, d, h'.trans ?_⟩
    simp only [List.length_cons]
    congr 2
    omega

/-- A release pass takes the entries that stand at the stage's head, one slot each. -/
theorem State.releasePass_frame (s : State) (sh : Shaft) :
    ∃ w a ls t n c k d, s.releasePass sh = { s with
      position := { s.position with watches := w, arrivals := a }
      map := { s.map with lanes := ls }
      table := t
      freeMarks := n
      travel := { s.travel with
        free := s.travel.free + ((s.travel.nip.get sh).takeWhile (s.releases sh)).length
        nip := s.travel.nip.set sh ((s.travel.nip.get sh).dropWhile (s.releases sh))
        tooLate := k
        current := c }
      digest := d } := by
  unfold State.releasePass
  obtain ⟨ls, t, n, c, k, d, h⟩ := State.releaseEntries_frame sh ((s.travel.nip.get sh).takeWhile (s.releases sh))
    (s.setTravel { s.travel with nip := s.travel.nip.set sh ((s.travel.nip.get sh).dropWhile (s.releases sh)) })
  simp only [h]
  obtain ⟨w, a, h'⟩ := State.setNipWatch_frame { s with
    map := { s.map with lanes := ls }
    table := t
    freeMarks := n
    travel := { s.travel with
      free := s.travel.free + ((s.travel.nip.get sh).takeWhile (s.releases sh)).length
      nip := s.travel.nip.set sh ((s.travel.nip.get sh).dropWhile (s.releases sh))
      tooLate := k
      current := c }
    digest := d } sh
  exact ⟨w, a, ls, t, n, c, k, d, h'⟩

/-- An entry that passes the knife touches the slots, the nip stages and the trim tally. -/
theorem State.resolveEntry_frame (s : State) (e : ApproachEntry) :
    ∃ n f p, State.resolveEntry s e = { s with
      map := { s.map with trim := n }, travel := { s.travel with free := f, nip := p } } := by
  unfold State.resolveEntry
  simp only []
  split
  · rename_i f x w _
    obtain ⟨n, h⟩ := State.countTrim_frame (s.setTravel { s.travel with free := s.travel.free + 2 }) x
      (cutEnd s.settings.webWidth x w)
    simp only [State.addReport, h]
    split <;> split <;> exact ⟨n, _, _, rfl⟩
  · exact ⟨_, _, _, rfl⟩

theorem State.resolveEntries_frame (es : List ApproachEntry) (s : State) :
    ∃ n f p, es.foldl State.resolveEntry s = { s with
      map := { s.map with trim := n }, travel := { s.travel with free := f, nip := p } } := by
  induction es generalizing s with
  | nil => exact ⟨_, _, _, rfl⟩
  | cons e es ih =>
    obtain ⟨n, f, p, h⟩ := s.resolveEntry_frame e
    rw [List.foldl_cons, h]
    obtain ⟨n, f, p, h'⟩ := ih { s with map := { s.map with trim := n }, travel := { s.travel with free := f, nip := p } }
    exact ⟨n, f, p, h'⟩

/-- What a release pass may touch, with nothing said of the slots. -/
theorem State.passIfGained_frame (before s : State) (sh : Shaft) :
    ∃ w a ls t n f p c k d, before.passIfGained s sh = { s with
      position := { s.position with watches := w, arrivals := a }
      map := { s.map with lanes := ls }
      table := t
      freeMarks := n
      travel := { s.travel with free := f, nip := p, tooLate := k, current := c }
      digest := d } := by
  unfold State.passIfGained
  split
  · obtain ⟨w, a, ls, t, n, c, k, d, h⟩ := s.releasePass_frame sh
    exact ⟨w, a, ls, t, n, _, _, c, k, d, h⟩
  · exact ⟨_, _, _, _, _, _, _, _, _, _, rfl⟩

/-- A knife pass takes from the approach stage the entries that P has reached, and touches the position unit's watches,
the lanes' tallies, the trim tally, the records, the pool, the travel list and the alerts. -/
theorem State.knifePass_frame (s : State) :
    ∃ w a ls j t n f p c k d, s.knifePass = { s with
      position := { s.position with watches := w, arrivals := a }
      map := { s.map with lanes := ls, trim := j }
      table := t
      freeMarks := n
      travel := { s.travel with
        free := f
        approach := s.travel.approach.dropWhile s.passes
        nip := p
        tooLate := k
        current := c }
      digest := d } := by
  unfold State.knifePass
  simp only []
  obtain ⟨n, f, p, h⟩ := State.resolveEntries_frame (s.travel.approach.takeWhile s.passes)
    (s.setTravel { s.travel with approach := s.travel.approach.dropWhile s.passes })
  rw [h]
  obtain ⟨w, a, ls, t, fm, f, p, c, k, d, h⟩ := s.passIfGained_frame { s with
    map := { s.map with trim := n }
    travel := { s.travel with approach := s.travel.approach.dropWhile s.passes, free := f, nip := p } } .a
  erw [h]
  obtain ⟨w, a, ls, t, fm, f, p, c, k, d, h⟩ := s.passIfGained_frame { s with
    position := { s.position with watches := w, arrivals := a }
    map := { s.map with lanes := ls, trim := n }
    table := t
    freeMarks := fm
    travel := { s.travel with
      approach := s.travel.approach.dropWhile s.passes, free := f, nip := p, tooLate := k, current := c }
    digest := d } .b
  erw [h]
  obtain ⟨w, a, h⟩ := State.setKnifeWatch_frame { s with
    position := { s.position with watches := w, arrivals := a }
    map := { s.map with lanes := ls, trim := n }
    table := t
    freeMarks := fm
    travel := { s.travel with
      approach := s.travel.approach.dropWhile s.passes, free := f, nip := p, tooLate := k, current := c }
    digest := d }
  exact ⟨w, a, ls, n, t, fm, f, p, c, k, d, h⟩

/-- What a knife pass may touch, and an accepted entry with it. -/
theorem State.acceptEntry_frame (s : State) (e : ApproachEntry) :
    ∃ w a ls j t n f l p c k d, s.acceptEntry e = { s with
      position := { s.position with watches := w, arrivals := a }
      map := { s.map with lanes := ls, trim := j }
      table := t
      freeMarks := n
      travel := { s.travel with free := f, approach := l, nip := p, tooLate := k, current := c }
      digest := d } := by
  unfold State.acceptEntry
  simp only []
  split
  · obtain ⟨w, a, ls, j, t, n, f, p, c, k, d, h⟩ := State.knifePass_frame
      (s.setTravel { s.travel with free := s.travel.free - 2, approach := insertApproach e s.travel.approach })
    rw [h]
    exact ⟨w, a, ls, j, t, n, f, _, p, c, k, d, rfl⟩
  · obtain ⟨w, a, h⟩ := State.setKnifeWatch_frame
      (s.setTravel { s.travel with free := s.travel.free - 2, approach := insertApproach e s.travel.approach })
    rw [h]
    exact ⟨w, a, _, _, _, _, _, _, _, _, _, _, rfl⟩

/-- One lane of an operator mark touches a record with the pool and the alerts, or the lane's tally. -/
theorem State.flagLane_frame (s : State) (m : HeldMark) (l : LaneHit) :
    ∃ ls t n d, (s.flagLane m l).1 = { s with
      map := { s.map with lanes := ls }, table := t, freeMarks := n, digest := d } := by
  unfold State.flagLane
  split
  · rename_i h _
    obtain ⟨t, n, d, e⟩ := s.land_frame h
      { finding := .flag, arrival := m.arrival, offset := l.offset, width := l.width, late := false }
    exact ⟨_, t, n, d, e⟩
  · exact ⟨_, _, _, _, rfl⟩

theorem State.attribute_frame (s : State) (m : HeldMark) :
    ∃ ls t n d, (s.attribute m).1 = { s with
      map := { s.map with lanes := ls }, table := t, freeMarks := n, digest := d } := by
  have key : ∀ (as : List LaneHit) (s : State) (ids : List Nat), ∃ ls t n d,
      (as.foldl (fun acc l => ((acc.1.flagLane m l).1, acc.2 ++ [(acc.1.flagLane m l).2])) (s, ids)).1 = { s with
        map := { s.map with lanes := ls }, table := t, freeMarks := n, digest := d } := by
    intro as
    induction as with
    | nil => intro s ids; exact ⟨_, _, _, _, rfl⟩
    | cons a as ih =>
      intro s ids
      obtain ⟨ls, t, n, d, h⟩ := s.flagLane_frame m a
      rw [List.foldl_cons]
      obtain ⟨ls', t', n', d', h'⟩ := ih (s.flagLane m a).1 (ids ++ [(s.flagLane m a).2])
      refine ⟨ls', t', n', d', h'.trans ?_⟩
      rw [h]
  exact key m.lanes s []

end Sys2Proof.Machine
end

