-- ==== Sys2Proof/Laws/Holds.lean ====
section
/-! SUPPORT. What the hold unit does when the cause set changes, hold by hold (R140, R144, R148). -/

namespace Sys2Proof.Machine

/-! ## The two demands -/

/-- The causes of level STOP are those of R140's table. -/
theorem Causes.anyStop_iff (c : Causes) : c.anyStop = true ↔ c.demandsStop := by
  have both (p : Shaft → Prop) : (∃ sh, p sh) ↔ p .a ∨ p .b :=
    ⟨fun ⟨sh, h⟩ => by cases sh <;> simp [h], fun h => h.elim (⟨_, ·⟩) (⟨_, ·⟩)⟩
  simp only [Causes.anyStop, Causes.demandsStop, both, Pair.get, Bool.or_eq_true]
  tauto

/-- The SLOW hold's demand is that of R144. -/
theorem HoldUnit.slowDemand_iff (h : HoldUnit) : h.slowDemand = true ↔ h.demandsSlow := by
  simp only [HoldUnit.slowDemand, HoldUnit.demandsSlow, Causes.any, Bool.or_eq_true, Causes.anyStop_iff]
  tauto

/-! ## The holds after a change of the cause set -/

@[simp] theorem HoldUnit.follow_causes (h : HoldUnit) (expiry : Nat) : (h.follow expiry).causes = h.causes := by
  unfold HoldUnit.follow HoldUnit.releaseSlow HoldUnit.activateSlow HoldUnit.activateStop
  split_ifs <;> rfl

/-- The STOP hold becomes active where it is demanded, and otherwise stays as it is (R144). -/
theorem HoldUnit.follow_stop (h : HoldUnit) (expiry : Nat) :
    (h.follow expiry).stop = if h.stop.isNone && h.causes.anyStop then some expiry else h.stop := by
  unfold HoldUnit.follow HoldUnit.releaseSlow HoldUnit.activateSlow HoldUnit.activateStop
  split_ifs <;> simp_all

/-- An activation of the STOP hold counts one entry (R149). -/
theorem HoldUnit.follow_stopEntries (h : HoldUnit) (expiry : Nat) :
    (h.follow expiry).stopEntries =
      if h.stop.isNone && h.causes.anyStop then satInc h.stopEntries else h.stopEntries := by
  unfold HoldUnit.follow HoldUnit.releaseSlow HoldUnit.activateSlow HoldUnit.activateStop
  split_ifs <;> simp_all

@[simp] theorem HoldUnit.follow_override (h : HoldUnit) (expiry : Nat) : (h.follow expiry).override = h.override := by
  unfold HoldUnit.follow HoldUnit.releaseSlow HoldUnit.activateSlow HoldUnit.activateStop
  split_ifs <;> rfl

@[simp] theorem HoldUnit.follow_renewals (h : HoldUnit) (expiry : Nat) : (h.follow expiry).renewals = h.renewals := by
  unfold HoldUnit.follow HoldUnit.releaseSlow HoldUnit.activateSlow HoldUnit.activateStop
  split_ifs <;> rfl

/-- Taking a cause set: nothing where it stands already, and otherwise the holds follow it (R140, R144). -/
theorem State.takeCauses_hold (s : State) (c : Causes) :
    (s.takeCauses c).hold = if c = s.hold.causes then s.hold
      else HoldUnit.follow { s.hold with causes := c } (s.now + s.settings.quantum) := by
  unfold State.takeCauses
  split <;> rfl

@[simp] theorem State.takeCauses_causes (s : State) (c : Causes) : (s.takeCauses c).hold.causes = c := by
  rw [State.takeCauses_hold]
  split
  · next h => exact h.symm
  · exact HoldUnit.follow_causes _ _

/-- The end of an event leaves the causes as the event's reports leave them, and in a reset as they are (R140, R151). -/
theorem State.settle_causes (before after : State) :
    (before.settle after).hold.causes = if after.inReset then after.hold.causes else before.eventCauses after := by
  unfold State.settle
  split
  · rfl
  · unfold State.announce State.raiseIf
    split
    · exact State.takeCauses_causes _ _
    · exact State.takeCauses_causes _ _

end Sys2Proof.Machine
end

