-- ==== Sys2Proof/Laws/Memory.lean ====
section
/-! SUPPORT. The settings EEPROM: a byte written reads back, every other byte reads as before, and every write keeps the
canonical form. -/

namespace Sys2Proof.Machine

/-- A byte written reads back. -/
theorem Memory.read_write_self (m : Memory) (a : Nat) (b : Byte) (h : m.Pairwise (fun c d => c.1 < d.1)) :
    Memory.read (Memory.write m a b) a = b := by
  induction m with
  | nil =>
    unfold Memory.write
    split
    · rename_i e; simp [Memory.read, e]
    · simp [Memory.read]
  | cons c m ih =>
    obtain ⟨k, v⟩ := c
    have hm := List.pairwise_cons.1 h
    have absent : ∀ m : Memory, (∀ d ∈ m, a < d.1) → Memory.read m a = Config.erasedByte := by
      intro m hd
      induction m with
      | nil => rfl
      | cons d m ih' =>
        have := hd d (by simp)
        rw [Memory.read, if_neg (by omega)]
        exact ih' fun e he => hd e (by simp [he])
    unfold Memory.write
    by_cases h1 : a < k
    · by_cases h2 : b = Config.erasedByte
      · rw [if_pos h1, if_pos h2, h2]
        exact absent _ (by simpa [h1] using fun x y hy => Nat.lt_trans h1 (hm.1 (x, y) hy))
      · simp [h1, h2, Memory.read]
    · by_cases h3 : a = k
      · subst h3
        by_cases h2 : b = Config.erasedByte
        · rw [if_neg h1, if_pos rfl, if_pos h2, h2]
          exact absent _ fun d hd => hm.1 d hd
        · simp [h2, Memory.read]
      · rw [if_neg h1, if_neg h3, Memory.read, if_neg (fun e => h3 e.symm)]
        exact ih hm.2

/-- A write leaves every other byte alone. -/
theorem Memory.read_write_ne (m : Memory) (a x : Nat) (b : Byte) (h : x ≠ a) (hs : m.Pairwise (fun c d => c.1 < d.1)) :
    Memory.read (Memory.write m a b) x = Memory.read m x := by
  induction m with
  | nil =>
    unfold Memory.write
    split
    · rfl
    · simp [Memory.read, Ne.symm h]
  | cons c m ih =>
    obtain ⟨k, v⟩ := c
    have hm := List.pairwise_cons.1 hs
    unfold Memory.write
    by_cases h1 : a < k
    · by_cases h2 : b = Config.erasedByte
      · simp [h1, h2]
      · simp [h1, h2, Memory.read, Ne.symm h]
    · by_cases h3 : a = k
      · subst h3
        by_cases h2 : b = Config.erasedByte <;> simp [h2, Memory.read, Ne.symm h]
      · simp only [if_neg h1, if_neg h3, Memory.read]
        rw [ih hm.2]

/-- The cells after a write: the one written, or cells that stood before. -/
theorem Memory.mem_write {m : Memory} {a : Nat} {b : Byte} {c : Host.Cell} (h : c ∈ Memory.write m a b) :
    (c = (a, b) ∧ b ≠ Config.erasedByte) ∨ c ∈ m := by
  induction m with
  | nil =>
    unfold Memory.write at h
    split at h
    · cases h
    · simp_all
  | cons d m ih =>
    obtain ⟨k, v⟩ := d
    unfold Memory.write at h
    split at h
    · split at h
      · exact .inr h
      · rcases List.mem_cons.1 h with e | e
        · exact .inl ⟨e, ‹_›⟩
        · exact .inr e
    · split at h
      · split at h
        · exact .inr (List.mem_cons_of_mem _ h)
        · rcases List.mem_cons.1 h with e | e
          · exact .inl ⟨e, ‹_›⟩
          · exact .inr (List.mem_cons_of_mem _ e)
      · rcases List.mem_cons.1 h with e | e
        · exact .inr (by simp [e])
        · rcases ih e with e | e
          · exact .inl e
          · exact .inr (List.mem_cons_of_mem _ e)

/-- A write below the EEPROM's size keeps the canonical form. -/
theorem Memory.write_wf (m : Memory) (a : Nat) (b : Byte) (h : Memory.wf m) (ha : a < Config.eepromSize) :
    Memory.wf (Memory.write m a b) := by
  constructor
  · have hs := h.1
    clear h
    induction m with
    | nil => unfold Memory.write; split <;> simp
    | cons c m ih =>
      obtain ⟨k, v⟩ := c
      have hm := List.pairwise_cons.1 hs
      unfold Memory.write
      split
      · split
        · exact hs
        · rename_i h1 _
          exact List.pairwise_cons.2 ⟨by simpa [h1] using fun x y hy => Nat.lt_trans h1 (hm.1 (x, y) hy), hs⟩
      · split
        · rename_i _ h3
          split
          · exact hm.2
          · exact List.pairwise_cons.2 ⟨fun d hd => h3 ▸ hm.1 d hd, hm.2⟩
        · refine List.pairwise_cons.2 ⟨fun d hd => ?_, ih hm.2⟩
          rcases Memory.mem_write hd with e | e
          · simp only [e.1]; omega
          · exact hm.1 d e
  · intro c hc
    rcases Memory.mem_write hc with e | e
    · simpa [e.1] using ⟨e.2, ha⟩
    · exact h.2 c e

/-- Writing bytes that end within the EEPROM keeps the canonical form. -/
theorem Memory.writeBytes_wf (bs : List Byte) (m : Memory) (a : Nat) (h : Memory.wf m)
    (ha : a + bs.length ≤ Config.eepromSize) : Memory.wf (Memory.writeBytes m a bs) := by
  induction bs generalizing m a with
  | nil => exact h
  | cons b bs ih =>
    simp only [List.length_cons] at ha
    exact ih _ _ (Memory.write_wf m a b h (by omega)) (by omega)

/-- Writing bytes leaves the bytes outside them alone. -/
theorem Memory.read_writeBytes_outside (bs : List Byte) (m : Memory) (a x : Nat) (h : Memory.wf m)
    (ha : a + bs.length ≤ Config.eepromSize) (hx : x < a ∨ a + bs.length ≤ x) :
    Memory.read (Memory.writeBytes m a bs) x = Memory.read m x := by
  induction bs generalizing m a with
  | nil => rfl
  | cons b bs ih =>
    simp only [List.length_cons] at ha hx
    rw [Memory.writeBytes, ih _ _ (Memory.write_wf m a b h (by omega)) (by omega) (by omega),
      Memory.read_write_ne m a x b (by omega) h.1]

/-- Bytes written read back. -/
theorem Memory.read_writeBytes (bs : List Byte) (m : Memory) (a i : Nat) (h : Memory.wf m)
    (ha : a + bs.length ≤ Config.eepromSize) (hi : i < bs.length) :
    Memory.read (Memory.writeBytes m a bs) (a + i) = bs[i] := by
  induction bs generalizing m a i with
  | nil => simp at hi
  | cons b bs ih =>
    simp only [List.length_cons] at ha hi
    have hw := Memory.write_wf m a b h (by omega)
    cases i with
    | zero =>
      rw [Memory.writeBytes, Memory.read_writeBytes_outside _ _ _ _ hw (by omega) (by omega)]
      exact Memory.read_write_self m a b h.1
    | succ i =>
      have := ih (Memory.write m a b) (a + 1) i hw (by omega) (by omega)
      rw [Memory.writeBytes, show a + (i + 1) = a + 1 + i by omega, this]
      rfl

/-- The EEPROM that nothing has written has the canonical form. -/
theorem Memory.wf_empty : Memory.wf [] := ⟨.nil, by simp⟩

theorem Memory.readBytes_length (m : Memory) (a n : Nat) : (Memory.readBytes m a n).length = n := by
  simp [Memory.readBytes]

end Sys2Proof.Machine
end

