-- ==== Sys2Proof/Laws/Image.lean ====
section
/-! SUPPORT. What a load reads from an image that has been written whole. -/

namespace Sys2Proof.Machine

/-- Bytes read where bytes have been written are those bytes. -/
theorem Memory.readBytes_writeBytes (bs : List Byte) (m : Memory) (a k n : Nat) (h : Memory.wf m)
    (ha : a + bs.length ≤ Config.eepromSize) (hk : k + n ≤ bs.length) :
    Memory.readBytes (Memory.writeBytes m a bs) (a + k) n = (bs.drop k).take n := by
  apply List.ext_getElem
  · simp [Memory.readBytes]; omega
  · intro i hi _
    have hn : i < n := by simpa [Memory.readBytes] using hi
    have := Memory.read_writeBytes bs m a (k + i) h ha (by omega)
    simp [Memory.readBytes, Nat.add_assoc, this]

/-- The parts of an image's header. -/
theorem fieldAt_imageHeader (body : List Byte) (h : body.length < 65536) :
    fieldAt (imageHeader body) 0 2 = body.length ∧ fieldAt (imageHeader body) 2 1 = 1 ∧
      fieldAt (imageHeader body) 3 4 = (crc32 body).toNat := by
  have lengths := fieldAt_append [] (beBytes 2 body.length) ([1] ++ beBytes 4 (crc32 body).toNat)
  have formats := fieldAt_append (beBytes 2 body.length) [1] (beBytes 4 (crc32 body).toNat)
  have checks := fieldAt_append (beBytes 2 body.length ++ [1]) (beBytes 4 (crc32 body).toNat) []
  rw [ofBE_beBytes 2 _ (by omega)] at lengths
  rw [ofBE_beBytes 4 _ (by have := (crc32 body).isLt; omega)] at checks
  simp only [beBytes_length, List.length_append, List.length_cons, List.length_nil, List.nil_append,
    List.append_nil, List.append_assoc] at lengths formats checks
  refine ⟨?_, ?_, ?_⟩
  · simpa [imageHeader] using lengths
  · simpa [imageHeader, ofBE] using formats
  · simpa [imageHeader] using checks

/-- A load after a whole image has been written accepts exactly what its body spells. -/
theorem loadImage_writeImage (m : Memory) (body : List Byte) (h : Memory.wf m) (hb : body.length = bodyLength) :
    loadImage true (writeImage m (imageHeader body ++ body)) = settingsOfBody body := by
  have hh : (imageHeader body).length = headerLength := by simp [imageHeader]
  have fits : 0 + (imageHeader body ++ body).length ≤ Config.eepromSize := by
    simp [hh, hb, Config.eepromSize, headerLength, bodyLength]
  have header : Memory.readBytes (writeImage m (imageHeader body ++ body)) 0 headerLength = imageHeader body := by
    have := Memory.readBytes_writeBytes (imageHeader body ++ body) m 0 0 headerLength h fits (by simp [hh])
    simpa [writeImage, ← hh] using this
  have bytes : Memory.readBytes (writeImage m (imageHeader body ++ body)) headerLength bodyLength = body := by
    have := Memory.readBytes_writeBytes (imageHeader body ++ body) m 0 headerLength bodyLength h fits
      (by simp [hh, hb])
    rw [Nat.zero_add] at this
    rw [writeImage, this, ← hh, List.drop_left, ← hb, List.take_length]
  obtain ⟨lengths, formats, checks⟩ := fieldAt_imageHeader body (by rw [hb]; decide)
  unfold loadImage
  simp only [header, bytes, lengths, formats, checks, hb, decide_true, Bool.and_self, if_true]

end Sys2Proof.Machine
end

