-- ==== Sys2Proof/Laws/Lists.lean ====
section
/-! SUPPORT. The four ordered insertions of the manual (R50, R65, R80, R81): each adds its element, keeps the others in
their order and keeps the list ascending. All four are one insertion by a key. -/

namespace Sys2Proof.Machine

/-- An element inserted after every element whose key is at most its own. -/
def insertBy {α : Type} (key : α → Nat) (e : α) : List α → List α
  | [] => [e]
  | x :: xs => if key x ≤ key e then x :: insertBy key e xs else e :: x :: xs

variable {α : Type} {key : α → Nat} {e : α}

theorem insertBy_perm (l : List α) : (insertBy key e l).Perm (e :: l) := by
  induction l with
  | nil => exact .refl _
  | cons x xs ih =>
    unfold insertBy
    split
    · exact (ih.cons x).trans (.swap e x xs)
    · exact .refl _

theorem sublist_insertBy (l : List α) : l.Sublist (insertBy key e l) := by
  induction l with
  | nil => simp
  | cons x xs ih =>
    unfold insertBy
    split
    · exact ih.cons_cons x
    · exact List.sublist_cons_self _ _

theorem insertBy_sorted {l : List α} (h : l.Pairwise fun a b => key a ≤ key b) :
    (insertBy key e l).Pairwise fun a b => key a ≤ key b := by
  induction l with
  | nil => simp [insertBy]
  | cons x xs ih =>
    obtain ⟨hx, hs⟩ := List.pairwise_cons.mp h
    unfold insertBy
    split
    · rename_i le
      refine List.pairwise_cons.mpr ⟨fun b hb => ?_, ih hs⟩
      rcases List.mem_cons.mp ((insertBy_perm xs).mem_iff.mp hb) with rfl | hb
      · exact le
      · exact hx b hb
    · rename_i lt
      refine List.pairwise_cons.mpr ⟨fun b hb => ?_, h⟩
      rcases List.mem_cons.mp hb with rfl | hb
      · omega
      · have := hx b hb; omega

/-! ## The four insertions -/

theorem insertApproach_eq (e : ApproachEntry) (l : List ApproachEntry) :
    insertApproach e l = insertBy ApproachEntry.knife e l := by
  induction l with
  | nil => rfl
  | cons x xs ih => simp [insertApproach, insertBy, ih]

theorem insertNip_eq (e : NipEntry) (l : List NipEntry) : insertNip e l = insertBy NipEntry.arrival e l := by
  induction l with
  | nil => rfl
  | cons x xs ih => simp [insertNip, insertBy, ih]

theorem insertMark_eq (m : Mark) (l : List Mark) : insertMark m l = insertBy Mark.arrival m l := by
  induction l with
  | nil => rfl
  | cons x xs ih => simp [insertMark, insertBy, ih]

theorem insertParent_eq (e : ParentEntry) (l : List ParentEntry) :
    insertParent e l = insertBy ParentEntry.footage e l := by
  induction l with
  | nil => rfl
  | cons x xs ih => simp [insertParent, insertBy, ih]

@[simp] theorem insertApproach_length (e : ApproachEntry) (l : List ApproachEntry) :
    (insertApproach e l).length = l.length + 1 := by
  rw [insertApproach_eq]; exact (insertBy_perm l).length_eq

@[simp] theorem insertNip_length (e : NipEntry) (l : List NipEntry) : (insertNip e l).length = l.length + 1 := by
  rw [insertNip_eq]; exact (insertBy_perm l).length_eq

@[simp] theorem insertMark_length (m : Mark) (l : List Mark) : (insertMark m l).length = l.length + 1 := by
  rw [insertMark_eq]; exact (insertBy_perm l).length_eq

@[simp] theorem insertParent_length (e : ParentEntry) (l : List ParentEntry) :
    (insertParent e l).length = l.length + 1 := by
  rw [insertParent_eq]; exact (insertBy_perm l).length_eq

end Sys2Proof.Machine
end

