-- ==== Sys2Proof/Laws/Watches.lean ====
section
/-! SUPPORT. What the threshold service does to one watch and to every other (R13, R14). -/

namespace Sys2Proof.Machine

@[simp] theorem ThresholdWatches.get_set_same (t : ThresholdWatches) (k : Threshold) (x : Option Nat) :
    (t.set k x).get k = x := by
  cases k <;> rfl

theorem ThresholdWatches.get_set_ne (t : ThresholdWatches) {j k : Threshold} (x : Option Nat) (h : j ≠ k) :
    (t.set k x).get j = t.get j := by
  cases j <;> cases k <;> first | rfl | exact absurd rfl h

/-- A watch set reads as it was set. -/
@[simp] theorem WatchTable.get_set_same (t : WatchTable) (w : Watch) (x : Option Nat) : (t.set w x).get w = x := by
  rcases w with _ | sh | ⟨sh, k⟩ | _ <;> (try cases sh) <;> (try cases k) <;> rfl

/-- Setting one watch leaves every other as it was. -/
theorem WatchTable.get_set_ne (t : WatchTable) {v w : Watch} (x : Option Nat) (h : v ≠ w) :
    (t.set w x).get v = t.get v := by
  rcases v with _ | sv | ⟨sv, j⟩ | _ <;> rcases w with _ | sw | ⟨sw, k⟩ | _ <;>
    (try cases sv) <;> (try cases sw) <;> (try cases j) <;> (try cases k) <;> first | rfl | exact absurd rfl h

/-- Arming at X beyond P arms the watch, and otherwise leaves it disarmed (R13). -/
theorem State.watch_arm (s : State) (w : Watch) (x : Nat) :
    (s.arm w x).watch w = if s.position.p < x then some x else none := by
  unfold State.arm
  split <;> simp [State.watch, State.setWatch, State.report]

/-- Arming a watch leaves every other as it was. -/
theorem State.watch_arm_ne (s : State) {v w : Watch} (x : Nat) (h : v ≠ w) : (s.arm w x).watch v = s.watch v := by
  unfold State.arm
  split <;> simp [State.watch, State.setWatch, State.report, WatchTable.get_set_ne _ _ h]

/-- Arming at X hands over an arrival exactly where P has reached X (R13). -/
theorem State.arrivals_arm (s : State) (w : Watch) (x : Nat) : (s.arm w x).position.arrivals =
    if s.position.p < x then s.position.arrivals else s.position.arrivals ++ [⟨w, x, s.position.p⟩] := by
  unfold State.arm
  split <;> simp [State.setWatch, State.report]

@[simp] theorem State.watch_disarm (s : State) (w : Watch) : (s.disarm w).watch w = none := by
  simp [State.disarm, State.watch, State.setWatch]

theorem State.watch_disarm_ne (s : State) {v w : Watch} (h : v ≠ w) : (s.disarm w).watch v = s.watch v := by
  simp [State.disarm, State.watch, State.setWatch, WatchTable.get_set_ne _ _ h]

/-- An arrival taken is the oldest of its watch, and the others stay. -/
theorem State.takeArrival_cases (s : State) (w : Watch) :
    (s.takeArrival w = none ∧ s.position.arrivals.find? (fun a => decide (a.watch = w)) = none) ∨
    ∃ a, s.position.arrivals.find? (fun a => decide (a.watch = w)) = some a ∧ s.takeArrival w = some (a,
      { s with position := { s.position with
        arrivals := s.position.arrivals.eraseP (fun a => decide (a.watch = w)) } }) := by
  unfold State.takeArrival
  split
  · rename_i h; exact .inl ⟨rfl, h⟩
  · rename_i a h; exact .inr ⟨a, h, rfl⟩

end Sys2Proof.Machine
end

