-- ==== Sys2Proof/Laws/Passes.lean ====
section
/-! SUPPORT. How a pass leaves the watches of the travel list (R13, R82), and what the closing list holds and gives up
(R127, R130, R132). -/

namespace Sys2Proof.Machine

/-! ## Watches -/

/-- An owner's request leaves the watch at X, or its arrival handed over (R13). -/
theorem State.armedAt_arm (s : State) (w : Watch) (x : Nat) : (s.arm w x).armedAt w x := by
  unfold State.arm State.armedAt
  split <;> simp_all [State.watch, State.setWatch, State.report]

/-- The knife watch after an event that has changed the approach stage (R82). -/
theorem State.setKnifeWatch_set (s : State) : s.setKnifeWatch.knifeWatchSet := by
  cases h : s.travel.approach with
  | nil => simp [State.setKnifeWatch, State.knifeWatchSet, h, State.disarm, State.setWatch, State.watch]
  | cons e es =>
    have kept : (s.arm .knife e.knife).travel = s.travel := by unfold State.arm; split <;> rfl
    simp only [State.setKnifeWatch, h, State.knifeWatchSet, kept]
    exact s.armedAt_arm _ _

/-- A nip watch after an event that has changed its stage or its latch (R82, R93). -/
theorem State.setNipWatch_set (s : State) (sh : Shaft) : (s.setNipWatch sh).nipWatchSet sh := by
  cases h : s.travel.nip.get sh with
  | nil => simp [State.setNipWatch, State.nipWatchSet, h, State.disarm, State.setWatch, State.watch]
  | cons e es =>
    by_cases held : s.held sh e.arrival = true
    · have still : (s.disarm (.nip sh)).held sh e.arrival = true := held
      have kept : (s.disarm (.nip sh)).travel = s.travel := rfl
      simp only [State.setNipWatch, h, State.nipWatchSet, held, if_true, kept, still, State.watch_disarm]
    · have kept : (s.arm (.nip sh) e.arrival).travel = s.travel := by unfold State.arm; split <;> rfl
      have still : (s.arm (.nip sh) e.arrival).held sh e.arrival = s.held sh e.arrival := by
        unfold State.arm; split <;> rfl
      simp only [State.setNipWatch, h, State.nipWatchSet, if_neg held, kept, still]
      exact s.armedAt_arm _ _

/-! ## The closing list -/

/-- Entries of distinct handles stand behind those of the list whose handle is not among theirs (R127). -/
theorem addClosing_eq (list new : List ClosingEntry) (distinct : new.Pairwise fun d e => d.handle ≠ e.handle) :
    addClosing list new = list.filter (fun o => new.all fun e => decide (o.handle ≠ e.handle)) ++ new := by
  induction new generalizing list with
  | nil => simp [addClosing]
  | cons e es ih =>
    obtain ⟨first, rest⟩ := List.pairwise_cons.mp distinct
    have own : (es.all fun d => decide (e.handle ≠ d.handle)) = true := by simpa using first
    simp only [addClosing, List.foldl_cons]
    rw [← addClosing, ih _ rest]
    simp only [List.filter_append, List.filter_filter, List.filter_cons, own, if_true, List.filter_nil,
      List.append_assoc, List.singleton_append, List.all_cons]
    congr 1
    exact List.filter_congr fun o _ => Bool.and_comm _ _

/-- The engine drops stale entries and takes up the first that is not stale (R130, R132). -/
theorem State.nextClosing_eq (s : State) {old later : List ClosingEntry} {e : ClosingEntry} {r : Reel}
    (stale : ∀ o ∈ old, s.stale o) (there : s.reel e.handle = some r) (same : r.id = e.id) :
    s.nextClosing (old ++ e :: later) = some (r.readings e.handle r.footage, later) := by
  induction old with
  | nil => simp [State.nextClosing, there, same]
  | cons o os ih =>
    have rest := ih fun p hp => stale p (List.mem_cons_of_mem _ hp)
    cases found : s.reel o.handle with
    | none => simpa [State.nextClosing, found] using rest
    | some q =>
      have other : q.id ≠ o.id := stale o List.mem_cons_self q found
      simpa [State.nextClosing, found, other] using rest

end Sys2Proof.Machine
end

