-- ==== Sys2Proof/Laws/PerInstr.lean ====
section
/-! SUPPORT. For every command: the payload of its request has the length that the catalogue gives its code (R183). -/

namespace Sys2Proof.Laws.Encoding

open Sys2Proof Sys2Proof.Machine

/-- Where the command is a request of the port, its payload has the length of the catalogue (R153, R183). -/
def Statement (i : Instr) : Prop :=
  ∀ q, encodeRequest i = some q → payloadLength q.code.toNat = some q.payload.length

/-- A command that is no request of the port satisfies the statement. -/
theorem of_none {i : Instr} (h : encodeRequest i = none) : Statement i := by
  intro q e; rw [h] at e; cases e

/-- A request whose payload has the catalogue's length satisfies the statement. -/
theorem of_some {i : Instr} {q : Request} (h : encodeRequest i = some q)
    (l : payloadLength q.code.toNat = some q.payload.length) : Statement i := by
  intro r e; rw [h] at e; cases e; exact l

theorem powerOn : Statement .powerOn := of_none rfl

theorem warmReset : Statement .warmReset := of_none rfl

theorem resetEnd : Statement .resetEnd := of_none rfl

theorem settingsLoadComplete (acknowledged : Bool) : Statement (.settingsLoadComplete acknowledged) := of_none rfl

theorem quadratureChange (encA encB : Bool) : Statement (.quadratureChange encA encB) := of_none rfl

theorem stopTimerExpiry : Statement .stopTimerExpiry := of_none rfl

theorem splicePulse : Statement .splicePulse := of_none rfl

theorem cutPulse (shaft : Shaft) : Statement (.cutPulse shaft) := of_none rfl

theorem cutTaken (shaft : Shaft) : Statement (.cutTaken shaft) := of_none rfl

theorem knifeWatchArrival : Statement .knifeWatchArrival := of_none rfl

theorem nipWatchArrival (shaft : Shaft) : Statement (.nipWatchArrival shaft) := of_none rfl

theorem thresholdArrival (shaft : Shaft) (kind : Threshold) : Statement (.thresholdArrival shaft kind) := of_none rfl

theorem automaticRetry (shaft : Shaft) : Statement (.automaticRetry shaft) := of_none rfl

theorem sweepWatchArrival : Statement .sweepWatchArrival := of_none rfl

theorem visitComplete : Statement .visitComplete := of_none rfl

theorem closingComplete : Statement .closingComplete := of_none rfl

theorem holdTimerExpiry (hold : HoldLine) : Statement (.holdTimerExpiry hold) := of_none rfl

theorem overrideExpiry : Statement .overrideExpiry := of_none rfl

theorem uartCharacter (char : Byte) (framingError : Bool) : Statement (.uartCharacter char framingError) := of_none rfl

theorem gapTimerExpiry : Statement .gapTimerExpiry := of_none rfl

theorem requestTransaction (frame : List Byte) : Statement (.requestTransaction frame) := of_none rfl

theorem ignoredTransaction : Statement .ignoredTransaction := of_none rfl

theorem answerStart : Statement .answerStart := of_none rfl

theorem answerEnd (clocked : Nat) : Statement (.answerEnd clocked) := of_none rfl

theorem readDigest : Statement .readDigest := of_some rfl rfl

theorem ackDigest (tag : Word16) : Statement (.ackDigest tag) := of_some rfl rfl

theorem clearAlerts (tag : Word16) (alerts : BitVec 24) : Statement (.clearAlerts tag alerts) := of_some rfl rfl

theorem setAlertMask (alerts : BitVec 24) : Statement (.setAlertMask alerts) := of_some rfl rfl

theorem queryReel (id : Word32) : Statement (.queryReel id) := of_some rfl rfl

theorem findReel (lane shaft : Byte) (position : Word32) : Statement (.findReel lane shaft position) := of_some rfl rfl

theorem listReels (selection handle : Byte) : Statement (.listReels selection handle) := of_some rfl rfl

theorem readMarks (id : Word32) (page : Byte) : Statement (.readMarks id page) := of_some rfl rfl

theorem queryShaft (shaft : Byte) : Statement (.queryShaft shaft) := of_some rfl rfl

theorem queryLane (lane : Byte) : Statement (.queryLane lane) := of_some rfl rfl

theorem mapSummary : Statement .mapSummary := of_some rfl rfl

theorem readSettings : Statement .readSettings := of_some rfl rfl

theorem setLaneGeometry (lane : Byte) (edge width : Word16) : Statement (.setLaneGeometry lane edge width) := of_some rfl rfl

theorem setLaneShaft (lane : Byte) (shaft : Word16) : Statement (.setLaneShaft lane shaft) := of_some rfl rfl

theorem setLaneEnable (lane : Byte) : Statement (.setLaneEnable lane) := of_some rfl rfl

theorem setLaneDisable (lane : Byte) : Statement (.setLaneDisable lane) := of_some rfl rfl

theorem setLaneReference (lane : Byte) (on : Word16) : Statement (.setLaneReference lane on) := of_some rfl rfl

theorem setLaneClearTally (lane : Byte) : Statement (.setLaneClearTally lane) := of_some rfl rfl

theorem setJob (job : JobFields) : Statement (.setJob job) := of_some rfl rfl

theorem setPlanStep (shaft number : Byte) (step : StepFields) : Statement (.setPlanStep shaft number step) := of_some rfl rfl

theorem clearPlan (shaft : Byte) : Statement (.clearPlan shaft) := of_some rfl rfl

theorem setGradeTable (index : Byte) (table : GradeTable) : Statement (.setGradeTable index table) := of_some rfl rfl

theorem stageParent (parent : Word32) : Statement (.stageParent parent) := of_some rfl rfl

theorem startShaft (shaft : Byte) : Statement (.startShaft shaft) := of_some rfl rfl

theorem stopShaft (shaft : Byte) : Statement (.stopShaft shaft) := of_some rfl rfl

theorem change (shaft force : Byte) : Statement (.change shaft force) := of_some rfl rfl

theorem cancelChange (shaft : Byte) : Statement (.cancelChange shaft) := of_some rfl rfl

theorem unloaded (shaft spindle : Byte) : Statement (.unloaded shaft spindle) := of_some rfl rfl

theorem addMark (shaft : Byte) (lanes : BitVec 24) (back : Word32) : Statement (.addMark shaft lanes back) := of_some rfl rfl

theorem overrideGrade (id : Word32) (grade : Byte) : Statement (.overrideGrade id grade) := of_some rfl rfl

theorem retire (id : Word32) (revision : Word16) : Statement (.retire id revision) := of_some rfl rfl

theorem sweep : Statement .sweep := of_some rfl rfl

theorem holdOverride : Statement .holdOverride := of_some rfl rfl

theorem resetRun : Statement .resetRun := of_some rfl rfl

theorem setSettingsNEnc (value : Word32) : Statement (.setSettingsNEnc value) := of_some rfl rfl

theorem setSettingsStopTimeout (value : Word32) : Statement (.setSettingsStopTimeout value) := of_some rfl rfl

theorem setSettingsSpliceDebounce (value : Word32) : Statement (.setSettingsSpliceDebounce value) := of_some rfl rfl

theorem setSettingsDIk (value : Word32) : Statement (.setSettingsDIk value) := of_some rfl rfl

theorem setSettingsDSk (value : Word32) : Statement (.setSettingsDSk value) := of_some rfl rfl

theorem setSettingsDKw (shaft : Shaft) (value : Word32) : Statement (.setSettingsDKw shaft value) := by
  cases shaft <;> exact of_some rfl rfl

theorem setSettingsHoldQuantum (value : Word32) : Statement (.setSettingsHoldQuantum value) := of_some rfl rfl

theorem setSettingsSweepInterval (value : Word32) : Statement (.setSettingsSweepInterval value) := of_some rfl rfl

theorem setSettingsReelIdCounter (value : Word32) : Statement (.setSettingsReelIdCounter value) := of_some rfl rfl

theorem setSettingsTravelWatermarks (lower upper : Word32) : Statement (.setSettingsTravelWatermarks lower upper) := of_some rfl rfl

theorem setSettingsMarkWatermarks (lower upper : Word32) : Statement (.setSettingsMarkWatermarks lower upper) := of_some rfl rfl

theorem saveSettings : Statement .saveSettings := of_some rfl rfl

theorem saveComplete (outcome : SaveOutcome) : Statement (.saveComplete outcome) := of_none rfl

theorem preserve : Statement .preserve := of_some rfl rfl

theorem cancelPreserve : Statement .cancelPreserve := of_some rfl rfl

theorem resetPart : Statement .resetPart := of_some rfl rfl

end Sys2Proof.Laws.Encoding
end

