-- ==== Sys2Proof/Laws/Reels.lean ====
section
/-! SUPPORT. What an opening gives, and what the searches of the reel table find (R39, R40, R51, R53). -/

namespace Sys2Proof.Machine

/-- An opening takes a FREE record of the lowest handle, fills it as a new reel, charges the pool and moves the id
counter on (R39, R40, R41). -/
theorem State.openRecord_spec {s t : State} {n : Lane} {sh : Shaft} {sp : Spindle} {x : Nat} {pool : Pool}
    {flags : ReelFlags} {h : Handle} (e : s.openRecord n sh sp x pool flags = some (h, t)) :
    ∃ st, s.poolMeets sh pool = true ∧ (s.shaft sh).currentStep = some st ∧ s.reel h = none ∧
      (∀ g, g < h → (s.reel g).isSome) ∧
      t.table = {
        reels := s.table.reels.set h (some (s.newReel n sh sp x flags st))
        free := s.table.free - 1
        reserved := match pool with
          | .unreserved => s.table.reserved
          | .reservation => s.table.reserved.set sh (s.table.reserved.get sh - 1) } ∧
      t.settings = { s.settings with reelIdCounter := stepId (s.newReel n sh sp x flags st).id } := by
  unfold State.openRecord at e
  split at e
  · rename_i st g met step found
    simp only [Option.some.injEq, Prod.mk.injEq] at e
    obtain ⟨rfl, rfl⟩ := e
    refine ⟨st, met, step, ?_, ?_, ?_, rfl⟩
    · simpa using List.find?_some found
    · intro k hk
      obtain ⟨_, as, bs, split, before⟩ := List.find?_eq_some_iff_append.mp found
      have sorted : (as ++ g :: bs).Pairwise (· < ·) := by
        rw [← split]; exact List.pairwise_lt_finRange 96
      have mem : k ∈ as ++ g :: bs := by rw [← split]; exact List.mem_finRange k
      rcases List.mem_append.mp mem with hm | hm
      · have := before k hm
        cases hr : s.reel k <;> simp_all
      · rcases List.mem_cons.mp hm with rfl | hm
        · exact absurd hk (lt_irrefl _)
        · have := (List.pairwise_cons.mp (List.pairwise_append.mp sorted).2.1).1 k hm
          exact absurd (lt_trans hk this) (lt_irrefl _)
    · cases pool <;> rfl
  · cases e

/-- A search over the handles gives a record that passes its test. -/
theorem State.find_reel {s : State} {f : Reel → Bool} {h : Handle}
    (e : (allHandles.find? fun h => (s.reel h).any f) = some h) : ∃ r, s.reel h = some r ∧ f r = true := by
  have := List.find?_some e
  cases hr : s.reel h with
  | none => simp [hr] at this
  | some r => exact ⟨r, rfl, by simpa [hr] using this⟩

/-- A search over the handles finds nothing exactly where no record passes its test. -/
theorem State.find_reel_none {s : State} {f : Reel → Bool} :
    (allHandles.find? fun h => (s.reel h).any f) = none ↔ ∀ h, ∀ r ∈ s.reel h, f r = false := by
  simp only [List.find?_eq_none, allHandles, List.mem_finRange, true_imp_iff]
  constructor
  · intro none h r hr
    have := none h
    rw [Option.mem_def] at hr
    simpa [hr] using this
  · intro all h
    cases hr : s.reel h with
    | none => simp
    | some r => simp [all h r (by simp [hr])]

end Sys2Proof.Machine
end

