-- ==== Sys2Proof/Laws/Requests.lean ====
section
/-! SUPPORT. What carrying out a request comes to for each standing of the port, and when the hold unit has no part in an
event. -/

namespace Sys2Proof.Machine

/-! ## The hold unit -/

@[simp] theorem reported_same (w c : Bool) : reported w w c = c := by simp [reported]

@[simp] theorem Causes.report_same (w c : Causes) : Causes.report w w c = c := by
  cases c; simp [Causes.report]

/-- What the blocks feed follows from the lanes, the shafts and the position-limit fault. -/
theorem State.feeds_congr {s t : State} (hm : t.map.lanes = s.map.lanes) (hs : t.shafts = s.shafts)
    (hp : t.position.fault = s.position.fault) (c : Causes) : t.feeds c = s.feeds c := by
  simp [State.feeds, State.feedsUntracked, hm, hs, hp]

/-- An event that leaves what the blocks feed, both counts and the output level as they were, ends as it stands. -/
theorem State.settle_same {before after : State} (hf : after.feeds .empty = before.feeds .empty)
    (ht : after.travel.free = before.travel.free) (hm : after.freeMarks = before.freeMarks)
    (hl : before.hold.level = after.hold.level) : before.settle after = after := by
  unfold State.settle
  split
  · rfl
  · have counts : before.takeCounts after = after := by
      unfold State.takeCounts; rw [if_pos ht, if_pos hm]; rfl
    have causes : before.eventCauses after = after.hold.causes := by simp [State.eventCauses, hf, ht, hm]
    simp [counts, causes, State.takeCauses, State.announce, State.raiseIf, hl]

/-- An event that leaves alone all that the hold unit looks at ends as it stands. -/
theorem State.settle_untouched {before after : State} (hl : after.map.lanes = before.map.lanes)
    (hs : after.shafts = before.shafts) (hp : after.position.fault = before.position.fault)
    (ht : after.travel.free = before.travel.free) (hm : after.freeMarks = before.freeMarks)
    (hh : after.hold = before.hold) : before.settle after = after :=
  State.settle_same (State.feeds_congr hl hs hp _) ht hm (by rw [hh])

@[simp] theorem State.settle_self (s : State) : s.settle s = s :=
  State.settle_untouched rfl rfl rfl rfl rfl rfl

/-- An event that ends in the port alone ends as it stands. -/
@[simp] theorem State.settle_setPort (s : State) (p : Port) : s.settle (s.setPort p) = s.setPort p :=
  State.settle_untouched rfl rfl rfl rfl rfl rfl

/-! ## Carrying out a request -/

/-- A request in a reset changes nothing. -/
theorem State.carryOut_reset {s : State} (h : s.inReset = true) (i : Instr) (act : State → Reply) :
    s.carryOut i act = s := by
  unfold State.carryOut
  split
  · rfl
  · simp [State.standing, h]

/-- A request during the settings load is answered LOADING. -/
theorem State.carryOut_loading {s : State} {i : Instr} {q : Request} (hq : encodeRequest i = some q)
    (hr : s.inReset = false) (hl : s.store.loading = true) (act : State → Reply) :
    s.carryOut i act = s.setPort (s.port.refuse .loading q.code) := by
  simp [State.carryOut, State.standing, hq, hr, hl]

/-- The buffer EMPTY or READY is the standing `free`. -/
theorem State.standing_free {s : State} (h : s.takesRequests) (i : Instr) : s.standing i = .free := by
  obtain ⟨hr, hl, hb⟩ := h
  unfold State.standing
  simp only [hr, hl, Bool.false_eq_true, if_false]
  split
  · rename_i e; exact absurd e hb
  · rfl
  · rfl

/-- A request that the port takes is carried out from the state in which it is in work. -/
theorem State.carryOut_free {s : State} {i : Instr} {q : Request} (hq : encodeRequest i = some q)
    (h : s.takesRequests) (act : State → Reply) :
    s.carryOut i act = (act (s.setPort (s.port.take q))).finish q.code := by
  simp [State.carryOut, State.standing_free h, hq]

/-- A request that a transaction has brought is carried out from the state as it stands. -/
theorem State.carryOut_inWork {s : State} {i : Instr} {q : Request} (hq : encodeRequest i = some q)
    (hr : s.inReset = false) (hl : s.store.loading = false) (hb : s.port.buffer = .working)
    (hh : s.port.held = none) (hw : s.port.inWork.bind decodeRequest = some i) (act : State → Reply) :
    s.carryOut i act = (act s).finish q.code := by
  simp [State.carryOut, State.standing, hq, hr, hl, hb, hh, hw]

/-- A request while another is in work leaves a busy notice. -/
theorem State.carryOut_busy {s : State} {i : Instr} {q : Request} (hq : encodeRequest i = some q)
    (hr : s.inReset = false) (hl : s.store.loading = false) (hb : s.port.buffer = .working)
    (hw : s.port.held.isSome ∨ s.port.inWork.bind decodeRequest ≠ some i) (act : State → Reply) :
    s.carryOut i act = s.setPort (s.port.turnAway q.code) := by
  have : (s.port.held.isNone && decide (s.port.inWork.bind decodeRequest = some i)) = false := by
    cases hw with
    | inl e => cases hp : s.port.held <;> simp_all
    | inr e => simp [e]
  simp [State.carryOut, State.standing, hq, hr, hl, hb, this]

/-- A request that is no request of the port is carried out as nothing. -/
theorem State.carryOut_none {s : State} {i : Instr} (hq : encodeRequest i = none) (act : State → Reply) :
    s.carryOut i act = s := by
  simp [State.carryOut, hq]

/-! ## Completion -/

@[simp] theorem Reply.finish_code (s : State) (c : AnswerCode) (r : Byte) :
    (Reply.code s c).finish r = s.setPort (s.port.complete r c []) := rfl

@[simp] theorem Reply.finish_ok (s : State) (p : List Byte) (r : Byte) :
    (Reply.ok s p).finish r = s.setPort (s.port.complete r .ok p) := rfl

/-- A request taken and completed leaves the port as `Port.answered` says. -/
@[simp] theorem Port.take_complete (p : Port) (q : Request) (r : Byte) (c : AnswerCode) (payload : List Byte) :
    (p.take q).complete r c payload = p.answered r c payload := rfl

/-- A reply that leaves the state it was given answers and does nothing else. -/
theorem State.carryOut_answer {s : State} {i : Instr} {q : Request} (hq : encodeRequest i = some q)
    (h : s.takesRequests) {act : State → Reply} {c : AnswerCode} {payload : List Byte}
    (ha : act (s.setPort (s.port.take q)) = ⟨s.setPort (s.port.take q), some (c, payload)⟩) :
    s.carryOut i act = s.setPort (s.port.answered q.code c payload) := by
  rw [State.carryOut_free hq h, ha]
  rfl

/-! ## Transactions -/

/-- The start of a transaction touches the port alone. -/
theorem State.startTransaction_frame (s : State) (k : TransactionKind) :
    ∃ p, s.startTransaction k = { s with port := p } := by
  unfold State.startTransaction
  split <;> exact ⟨_, rfl⟩

@[simp] theorem Port.shiftedOut_zero (p : Port) : p.shiftedOut 0 = 0 := rfl

@[simp] theorem Port.shiftedOut_request (p : Port) (place : Nat) : (p.start .request).shiftedOut place = 0 := by
  cases place <;> rfl

end Sys2Proof.Machine
end

