-- ==== Sys2Proof/Laws/ShaftFrames.lean ====
section
/-! SUPPORT. What the shared operations of the shaft controllers, of the reel table's openings and of the sweep engine can
touch, said once for each, as in Laws/Frames.lean. -/

namespace Sys2Proof.Machine

/-! ## Records -/

theorem State.closeReels_frame (s : State) (sh : Shaft) (x : Nat) (short : Bool) :
    ∃ v, s.closeReels sh x short = { s with table := { s.table with reels := v } } :=
  ⟨_, rfl⟩

theorem State.doff_frame (s : State) (sh : Shaft) (sp : Spindle) (assumed : Bool) :
    ∃ v, s.doff sh sp assumed = { s with table := { s.table with reels := v } } :=
  ⟨_, rfl⟩

theorem State.flagOverrun_frame (s : State) (sh : Shaft) (inCut : Bool) :
    ∃ v, s.flagOverrun sh inCut = { s with table := { s.table with reels := v } } :=
  ⟨_, rfl⟩

/-- Taking the counts on the spindles touches the two spindle states of the shaft. -/
theorem State.refreshSpindles_frame (s : State) (sh : Shaft) :
    ∃ x y, s.refreshSpindles sh =
      { s with shafts := s.shafts.set sh { s.shaft sh with spindle1 := x, spindle2 := y } } :=
  ⟨_, _, rfl⟩

/-- An opening touches the table and the id counter. -/
theorem State.openRecord_frame {s t : State} {n : Lane} {sh : Shaft} {sp : Spindle} {x : Nat} {pool : Pool}
    {flags : ReelFlags} {h : Handle} (e : s.openRecord n sh sp x pool flags = some (h, t)) :
    ∃ u c, t = { s with table := u, store := { s.store with settings := { s.settings with reelIdCounter := c } } } := by
  unfold State.openRecord at e
  split at e
  · simp only [Option.some.injEq, Prod.mk.injEq] at e
    exact ⟨_, _, e.2.symm⟩
  · cases e

/-- An opening for a lane touches the lane, the table, the id counter and the shaft's spindle states. -/
theorem State.openForLane_frame (s : State) (n : Lane) (sh : Shaft) (sp : Spindle) (x : Nat) (pool : Pool)
    (flags : ReelFlags) :
    ∃ ls u c p q, s.openForLane n sh sp x pool flags = { s with
      map := { s.map with lanes := ls }
      table := u
      store := { s.store with settings := { s.settings with reelIdCounter := c } }
      shafts := s.shafts.set sh { s.shaft sh with spindle1 := p, spindle2 := q } } := by
  unfold State.openForLane
  split
  · rename_i h t e
    obtain ⟨u, c, rfl⟩ := State.openRecord_frame e
    exact ⟨_, u, c, _, _, rfl⟩
  · refine ⟨s.map.lanes.set n { s.lane n with current := none, untracked := true }, s.table, s.settings.reelIdCounter,
      (s.shaft sh).spindle1, (s.shaft sh).spindle2, ?_⟩
    have : s.shafts.set sh (s.shaft sh) = s.shafts := Pair.set_get s.shafts sh
    simp only [this]
    rfl

/-! ## Shafts -/

theorem State.releaseReserved_frame (s : State) (sh : Shaft) :
    ∃ n, s.releaseReserved sh = { s with
      table := { s.table with reserved := s.table.reserved.set sh 0 }
      shafts := s.shafts.set (other sh) { s.shaft (other sh) with retriesDue := n } } := by
  have same : s.shafts.set (other sh) (s.shaft (other sh)) = s.shafts := Pair.set_get s.shafts (other sh)
  unfold State.releaseReserved
  simp only []
  split
  · refine ⟨(s.shaft (other sh)).retriesDue, ?_⟩
    simp only [same]
    rfl
  · simp only [ShaftRec.retryRaised]
    split
    · exact ⟨_, rfl⟩
    · refine ⟨(s.shaft (other sh)).retriesDue, ?_⟩
      simp only [same]
      simp [State.setReserved, State.setShaft, State.setShafts, State.setTable, State.shaft]

theorem State.reportFreed_frame (s : State) : ∃ p, s.reportFreed = { s with shafts := p } := ⟨_, rfl⟩

/-- Entering CHANGE_PENDING reserves a record for each enabled lane, and is not done where they do not suffice. -/
theorem State.enterPending_cases (s : State) (sh : Shaft) (unasked : Bool) :
    (s.unreserved < (s.enabledLanes sh).length ∧ s.enterPending sh unasked = none) ∨
      ((s.enabledLanes sh).length ≤ s.unreserved ∧ s.enterPending sh unasked = some { s with
        table := { s.table with
          reserved := s.table.reserved.set sh (s.table.reserved.get sh + (s.enabledLanes sh).length) }
        shafts := s.shafts.set sh ((s.shaft sh).pend unasked) }) := by
  unfold State.enterPending State.reserve
  by_cases h : (s.enabledLanes sh).length ≤ s.unreserved
  · exact .inr ⟨h, by simp [h, State.setReserved, State.setShaft, State.setShafts, State.setTable, State.shaft]⟩
  · exact .inl ⟨by omega, by simp [h]⟩

/-- An attempt touches the shaft's own record and its reservation. -/
theorem State.attempt_frame (s : State) (sh : Shaft) :
    ∃ r n, s.attempt sh = { s with
      table := { s.table with reserved := s.table.reserved.set sh n }, shafts := s.shafts.set sh r } := by
  have same : s.table.reserved.set sh (s.table.reserved.get sh) = s.table.reserved := Pair.set_get _ sh
  unfold State.attempt
  simp only []
  split
  · refine ⟨{ s.shaft sh with retry := true }, s.table.reserved.get sh, ?_⟩
    simp only [same]
    rfl
  · obtain ⟨_, h⟩ | ⟨_, h⟩ := s.enterPending_cases sh true
    · refine ⟨{ s.shaft sh with retry := true, records := true }, s.table.reserved.get sh, ?_⟩
      rw [h]
      simp only [same]
      rfl
    · rw [h]
      exact ⟨_, _, rfl⟩

theorem State.retryAttempt_frame (s : State) (sh : Shaft) :
    ∃ r n, s.retryAttempt sh = { s with
      table := { s.table with reserved := s.table.reserved.set sh n }, shafts := s.shafts.set sh r } := by
  have same : s.table.reserved.set sh (s.table.reserved.get sh) = s.table.reserved := Pair.set_get _ sh
  have kept : s.shafts.set sh (s.shaft sh) = s.shafts := Pair.set_get _ sh
  unfold State.retryAttempt
  simp only []
  split
  · refine ⟨s.shaft sh, s.table.reserved.get sh, ?_⟩
    simp only [same, kept]
  · split
    · exact s.attempt_frame sh
    · refine ⟨(s.shaft sh).clearRetry, s.table.reserved.get sh, ?_⟩
      simp only [same]
      rfl

/-- A change-due event touches the shaft's own record, its reservation and the alerts. -/
theorem State.changeDue_frame (s : State) (sh : Shaft) (event : DueReason) (attempts : Bool) :
    ∃ r n d, s.changeDue sh event attempts = { s with
      table := { s.table with reserved := s.table.reserved.set sh n }, shafts := s.shafts.set sh r, digest := d } := by
  have same : s.table.reserved.set sh (s.table.reserved.get sh) = s.table.reserved := Pair.set_get _ sh
  unfold State.changeDue
  simp only []
  obtain ⟨d, h⟩ := State.raiseIf_frame (s.setShaft sh { s.shaft sh with reason := event.after (s.shaft sh).reason })
    (decide (event.after (s.shaft sh).reason ≠ (s.shaft sh).reason)) (.changeDue sh)
  rw [h]
  split
  · obtain ⟨r, n, h'⟩ := State.attempt_frame { s with
      shafts := s.shafts.set sh { s.shaft sh with reason := event.after (s.shaft sh).reason }, digest := d } sh
    refine ⟨r, n, d, h'.trans ?_⟩
    simp
  · refine ⟨{ s.shaft sh with reason := event.after (s.shaft sh).reason }, s.table.reserved.get sh, d, ?_⟩
    simp only [same]
    rfl

/-- A threshold that fires touches its shaft, the shaft's reservation, the records' flags and the alerts. -/
theorem State.fire_frame (s : State) (sh : Shaft) (inCut : Bool) (k : Threshold) :
    ∃ r n v d, s.fire sh inCut k = { s with
      table := { s.table with reserved := s.table.reserved.set sh n, reels := v }
      shafts := s.shafts.set sh r
      digest := d } := by
  have same : s.table.reserved.set sh (s.table.reserved.get sh) = s.table.reserved := Pair.set_get _ sh
  unfold State.fire
  cases k
  · refine ⟨(s.shaft sh).markFired .approach, s.table.reserved.get sh, s.table.reels,
      ((s.setShaft sh ((s.shaft sh).markFired .approach)).raise (.approach sh)).digest, ?_⟩
    simp only [same]
    rfl
  · refine ⟨(s.shaft sh).markFired .window, s.table.reserved.get sh, s.table.reels, s.digest, ?_⟩
    simp only [same]
    rfl
  · obtain ⟨r, n, d, h⟩ := State.changeDue_frame (s.setShaft sh ((s.shaft sh).markFired .due)) sh .length (!inCut)
    refine ⟨r, n, s.table.reels, d, h.trans ?_⟩
    simp [State.setShaft]
  · obtain ⟨v, h⟩ := State.flagOverrun_frame (s.setShaft sh ((s.shaft sh).markFired .overrun)) sh inCut
    obtain ⟨d, h'⟩ := State.raise_frame ((s.setShaft sh ((s.shaft sh).markFired .overrun)).flagOverrun sh inCut)
      (.overrun sh)
    refine ⟨(s.shaft sh).markFired .overrun, s.table.reserved.get sh, v, d, h'.trans ?_⟩
    rw [h]
    simp only [same]
    rfl

/-- Thresholds that fire in a row touch what one of them touches. -/
theorem State.fireUpTo_frame (s : State) (sh : Shaft) (x : Nat) (inCut : Bool) (ks : List Threshold) :
    ∃ r n v d, s.fireUpTo sh x inCut ks = { s with
      table := { s.table with reserved := s.table.reserved.set sh n, reels := v }
      shafts := s.shafts.set sh r
      digest := d } := by
  have idle (s : State) : ∃ r n v d, s = { s with
      table := { s.table with reserved := s.table.reserved.set sh n, reels := v }
      shafts := s.shafts.set sh r
      digest := d } := by
    refine ⟨s.shafts.get sh, s.table.reserved.get sh, s.table.reels, s.digest, ?_⟩
    simp only [Pair.set_get]
  refine foldl_rel (R := fun s t => ∃ r n v d, t = { s with
    table := { s.table with reserved := s.table.reserved.set sh n, reels := v }
    shafts := s.shafts.set sh r
    digest := d }) idle ?_ ?_ ks s
  · rintro s _ _ ⟨r, n, v, d, rfl⟩ ⟨r', n', v', d', rfl⟩
    refine ⟨r', n', v', d', ?_⟩
    simp only [Pair.set_set]
  · intro s k
    split
    · exact idle s
    · split
      · exact s.fire_frame sh inCut k
      · exact idle s

theorem State.takeThreshold_frame (s : State) (sh : Shaft) (k : Threshold) (x : Nat) :
    ∃ r n v d, s.takeThreshold sh k x = { s with
      table := { s.table with reserved := s.table.reserved.set sh n, reels := v }
      shafts := s.shafts.set sh r
      digest := d } := by
  unfold State.takeThreshold
  split
  · obtain ⟨r, n, v, d, h⟩ := s.fireUpTo_frame sh x false (earlierThresholds k)
    rw [h]
    obtain ⟨r', n', v', d', h'⟩ := State.fire_frame { s with
      table := { s.table with reserved := s.table.reserved.set sh n, reels := v }
      shafts := s.shafts.set sh r
      digest := d } sh false k
    refine ⟨r', n', v', d', h'.trans ?_⟩
    simp only [Pair.set_set]
  · refine ⟨s.shafts.get sh, s.table.reserved.get sh, s.table.reels, s.digest, ?_⟩
    simp only [Pair.set_get]

/-- The thresholds of a new set touch the shaft's record, the watches and the arrivals. -/
theorem State.openThresholds_frame (s : State) (sh : Shaft) (start : Nat) :
    ∃ w a t, s.openThresholds sh start = { s with
      position := { s.position with watches := w, arrivals := a }
      shafts := s.shafts.set sh { s.shaft sh with thresholds := t } } := by
  unfold State.openThresholds
  split
  · refine ⟨s.position.watches, s.position.arrivals, (s.shaft sh).thresholds, ?_⟩
    have : s.shafts.set sh (s.shaft sh) = s.shafts := Pair.set_get s.shafts sh
    simp only [this]
  · rename_i st _
    obtain ⟨w, a, h⟩ := foldl_watch_frame
      (fun (u : State) k => u.arm (.threshold sh k)
        ((thresholdsOf start st.target (s.settings.rho.get sh) (s.settings.job.get sh)).get k).position)
      (fun _ _ => State.arm_frame _ _ _) allThresholds (s.setShaft sh { s.shaft sh with
        thresholds := some (thresholdsOf start st.target (s.settings.rho.get sh) (s.settings.job.get sh)) })
    exact ⟨w, a, _, h⟩

/-! ## The sweep engine -/

/-- What the end of a sweep and the choice of work can touch: records, reservations, shafts, the engine and alerts. -/
def State.engineTouch (s t : State) : Prop :=
  ∃ v p q e d, t = { s with
    table := { s.table with reels := v, reserved := p }, shafts := q, engine := e, digest := d }

theorem State.engineTouch_refl (s : State) : s.engineTouch s := ⟨_, _, _, _, _, rfl⟩

theorem State.engineTouch_trans {s t u : State} (h : s.engineTouch t) (h' : t.engineTouch u) : s.engineTouch u := by
  obtain ⟨_, _, _, _, _, rfl⟩ := h
  obtain ⟨v, p, q, e, d, rfl⟩ := h'
  exact ⟨v, p, q, e, d, rfl⟩

theorem State.examineLimits_touch (s : State) : s.engineTouch s.examineLimits := by
  have one (t : State) (g : Bool) (sh : Shaft) : t.engineTouch (t.announceLimit g sh) := by
    unfold State.announceLimit
    split
    · obtain ⟨r, n, d, h⟩ := State.changeDue_frame (t.raise (.diaLimit sh)) sh .diameter true
      rw [h]
      exact ⟨_, _, _, _, _, rfl⟩
    · exact t.engineTouch_refl
  exact State.engineTouch_trans (State.engineTouch_trans ⟨_, _, _, _, _, rfl⟩ (one s.flagLimits _ .a)) (one _ _ .b)

theorem State.writeTension_touch (s : State) (sh : Shaft) : s.engineTouch (s.writeTension sh) := by
  unfold State.writeTension
  split
  · exact s.engineTouch_refl
  · split
    · exact s.engineTouch_refl
    · exact ⟨_, _, _, _, _, rfl⟩

theorem State.endSweep_touch (s : State) : s.engineTouch s.endSweep :=
  State.engineTouch_trans
    (State.engineTouch_trans (State.engineTouch_trans s.examineLimits_touch (State.writeTension_touch _ .a))
      (State.writeTension_touch _ .b))
    ⟨_, _, _, _, _, rfl⟩

theorem State.beginVisit_touch (s : State) (h : Handle) : s.engineTouch (s.beginVisit h) := by
  unfold State.beginVisit
  split
  · exact s.engineTouch_refl
  · exact ⟨_, _, _, _, _, rfl⟩

theorem State.goOn_touch (s : State) (cursor : Nat) : s.engineTouch (s.goOn cursor) := by
  unfold State.goOn
  split
  · exact s.beginVisit_touch _
  · exact s.endSweep_touch

theorem State.startOwed_touch (s : State) : s.engineTouch s.startOwed := by
  unfold State.startOwed
  split
  · exact State.engineTouch_trans ⟨_, _, _, _, _, rfl⟩ (State.goOn_touch _ 0)
  · exact s.engineTouch_refl

theorem State.chooseSweep_touch (s : State) : s.engineTouch s.chooseSweep := by
  unfold State.chooseSweep
  split
  · exact s.startOwed_touch
  · split
    · exact s.beginVisit_touch _
    · exact State.engineTouch_trans s.endSweep_touch (State.startOwed_touch _)

theorem State.chooseWork_touch (s : State) : s.engineTouch s.chooseWork := by
  unfold State.chooseWork
  simp only []
  split
  · exact ⟨_, _, _, _, _, rfl⟩
  · exact State.engineTouch_trans ⟨_, _, _, _, _, rfl⟩ (State.chooseSweep_touch _)

theorem State.workArrives_touch (s : State) : s.engineTouch s.workArrives := by
  unfold State.workArrives
  split
  · exact s.chooseWork_touch
  · exact s.engineTouch_refl

theorem State.trigger_touch (s : State) : s.engineTouch s.trigger := by
  unfold State.trigger
  split
  · exact s.engineTouch_refl
  · exact State.engineTouch_trans ⟨_, _, _, _, _, rfl⟩ (State.workArrives_touch _)

theorem State.queueClosing_touch (s : State) (new : List ClosingEntry) : s.engineTouch (s.queueClosing new) := by
  unfold State.queueClosing
  split
  · exact s.engineTouch_refl
  · exact State.engineTouch_trans ⟨_, _, _, _, _, rfl⟩ (State.workArrives_touch _)

theorem State.closeSet_touch (s : State) (sh : Shaft) (x : Nat) (short : Bool) :
    s.engineTouch (s.closeSet sh x short) :=
  State.engineTouch_trans ⟨_, _, _, _, _, rfl⟩ (State.queueClosing_touch _ _)

theorem State.writeVisit_frame (s : State) (x : Readings) :
    ∃ v, s.writeVisit x = { s with table := { s.table with reels := v } } := by
  unfold State.writeVisit
  split
  · exact ⟨_, rfl⟩
  · split <;> exact ⟨_, rfl⟩

theorem State.writeClosing_frame (s : State) (x : Readings) :
    ∃ v, s.writeClosing x = { s with table := { s.table with reels := v } } := by
  unfold State.writeClosing
  split
  · exact ⟨_, rfl⟩
  · split <;> exact ⟨_, rfl⟩

/-! ## Unloading -/

/-- Unloading a spindle touches the records, the shaft's own record, its reservation and the alerts. -/
theorem State.unload_frame (s : State) (sh : Shaft) (sp : Spindle) :
    ∃ v n r d, s.unload sh sp = { s with
      table := { s.table with reels := v, reserved := s.table.reserved.set sh n }
      shafts := s.shafts.set sh r
      digest := d } := by
  have same : s.table.reserved.set sh (s.table.reserved.get sh) = s.table.reserved := Pair.set_get _ sh
  unfold State.unload
  simp only []
  split
  · obtain ⟨v, hv⟩ := s.doff_frame sh sp false
    obtain ⟨d, hd⟩ := State.raise_frame ((s.doff sh sp false).refreshSpindles sh) .reelDoffed
    obtain ⟨x, y, hx⟩ := State.refreshSpindles_frame (s.doff sh sp false) sh
    obtain ⟨r, n, h⟩ := State.retryAttempt_frame (((s.doff sh sp false).refreshSpindles sh).raise .reelDoffed) sh
    refine ⟨v, n, r, d, h.trans ?_⟩
    rw [hd, hx, hv]
    simp only [Pair.set_set]
  · obtain ⟨v, hv⟩ := s.doff_frame sh sp false
    obtain ⟨d, hd⟩ := State.raise_frame ((s.doff sh sp false).refreshSpindles sh) .reelDoffed
    obtain ⟨x, y, hx⟩ := State.refreshSpindles_frame (s.doff sh sp false) sh
    refine ⟨v, s.table.reserved.get sh, { s.shaft sh with spindle1 := x, spindle2 := y }, d, hd.trans ?_⟩
    rw [hx, hv]
    simp only [same]
    rfl

end Sys2Proof.Machine
end

