-- ==== Sys2Proof/Tests/Slice0.lean ====
section
/-! SUPPORT. Tests of single commands against the manual's worked examples, and for every statement a state and operands
that meet its hypotheses. Each test names where its expected values come from. -/

namespace Sys2Proof.Tests

set_option Elab.async false

open Sys2Proof Sys2Proof.Machine

/-! ## Small states -/

/-- The state that a command leads to. -/
def after (c : Instr) (s : State) : State :=
  match exec c s with
  | .next t => t
  | _ => s

/-- The part with the settings load behind it. -/
def ready : State :=
  State.reset.setStore { SettingsStore.initial with loading := false }

/-- A reel of the worked examples: ρ of 1,000,000, parent 80, no marks. -/
def reel (id : Nat) (state : ReelState) (lane : Lane) (shaft : Shaft) (spindle : Spindle) (start : Nat)
    (stopAt : Option Nat) : Reel :=
  { id := id
    state := state
    lane := lane
    shaft := shaft
    spindle := spindle
    start := start
    stopAt := stopAt
    rho := 1000000
    thickness := 20
    packing := 1050
    core := 76200
    limit := 500000
    table := 0
    step := 1
    ordinal := 65534
    footage := stopAt.elim 0 fun e => e - start
    diameter := 76200
    parents := [⟨80, 0⟩]
    tallies := ⟨0, 0, 0, 0, 0, 0, 0⟩
    computed := .a
    override := none
    chain := []
    dropped := 0
    revision := 0
    flags := .none }

/-- The step of the worked run: FOREVER, with T = 2,000,000 (12.5); T0, τ, Dc and Dspan are those of 7.6.2. -/
def step1 : PlanStep :=
  ⟨0, 2000000, 76200, 500000, 0, 1200, 300, 800000⟩

/-- A shaft that winds on spindle 1 (12.5). -/
def windingShaft (spindle2 : SpindleState) (start : Nat) : ShaftRec :=
  { ShaftRec.initial with
    phase := .winding
    spindle1 := .active
    spindle2 := spindle2
    plan := [step1]
    step := 1
    counter := 65534
    thresholds := some (thresholdsOf start 2000000 1000000 .default)
    tension := 1200 }

/-- The watches of the set that opened at 20,000,000 (12.5). -/
def setWatches (start : Nat) : ThresholdWatches :=
  let t := thresholdsOf start 2000000 1000000 .default
  ⟨some t.approach.position, some t.window.position, some t.due.position, some t.overrun.position⟩

/-- The worked run of 12.5.1 after the splice has passed the knife, at P = 21,006,000: report 1 waits in the approach
stage and the splice in both nip stages. A cut pulse of shaft A waits in the queue. -/
def run : State :=
  { ready with
    position := { PositionUnit.initial with
      p := 21006000
      line := .running
      stopTimer := some 300
      spliceStamp := some ⟨21004000, 1500⟩
      watches := ⟨some 21008500, ⟨some 21009200, some 21010100⟩, ⟨setWatches 20000000, setWatches 20500000⟩,
        some 21010000⟩ }
    map := { KnifeMap.initial with
      lanes := (KnifeMap.initial.lanes.set 2 ⟨true, 10000, 2500, .a, true, some 10, 0, false⟩).set 3
        ⟨true, 12500, 2500, .b, true, some 11, 0, false⟩
      order := [0, 1] ++ (List.finRange 24).drop 4 ++ [2, 3] }
    table := ⟨((ReelTable.initial.reels.set 10 (some (reel 300 .winding 2 .a .one 20000000 none))).set 6
        (some (reel 250 .doffing 2 .a .two 18000000 (some 20000000)))).set 11
          (some (reel 301 .winding 3 .b .one 20500000 none)), 93, ⟨0, 0⟩⟩
    travel := ⟨252, [⟨.report (.defect 0) 11000 20, 21008500, 21000000⟩],
      ⟨[⟨.splice 81, 21009200, [⟨2, 0, 2500⟩], false⟩], [⟨.splice 81, 21010100, [⟨3, 0, 2500⟩], false⟩]⟩, none,
      ⟨80, 80⟩, 0, 0⟩
    shafts := ⟨windingShaft .full 20000000, windingShaft .empty 20500000⟩
    hold := { HoldUnit.initial with lastTravel := 252 }
    store := { ready.store with settings := { Settings.default with
      dIk := 8500, dSk := 2000, dKw := ⟨3200, 4100⟩, reelIdCounter := 302 } }
    pending := [.cutPulse .a] }

/-! ## The laws hold in the worked run -/

theorem run_slots : SlotLaw run ∧ StageLaw run := by
  unfold SlotLaw StageLaw; decide +kernel

theorem run_marks : MarkLaw run ∧ ChainLaw run := by
  unfold MarkLaw ChainLaw; decide +kernel

theorem run_records : RecordLaw run := by
  unfold RecordLaw; decide +kernel

theorem run_spindles : SpindleLaw run := by
  intro sh sp; cases sh <;> cases sp <;> decide +kernel

theorem run_plan : PlanLaw run := by
  intro sh; cases sh <;> decide +kernel

theorem run_order : OrderLaw run := by
  unfold OrderLaw; decide +kernel

theorem run_position : PositionLaw run := by
  unfold PositionLaw; decide +kernel

theorem run_watch : WatchLaw run := by
  intro w
  rcases w with _ | sh | ⟨sh, k⟩ | _ <;> (try cases sh) <;> (try cases k) <;> decide +kernel

theorem run_stages : StageWatchLaw run :=
  ⟨Or.inl (by decide +kernel), fun sh => by cases sh <;> exact Or.inl (by decide +kernel)⟩

theorem run_lines : CutRequestLaw run ∧ LineLaw run := by
  refine ⟨fun sh => ?_, ?_⟩
  · cases sh <;> decide +kernel
  · unfold LineLaw; decide +kernel

theorem run_blank : BlankLaw run := by
  have idle : run.store.reset = .none := by decide +kernel
  have loaded : run.store.loading = false := by decide +kernel
  simp [BlankLaw, idle, loaded]

theorem run_held : BlankLaw run ∧ HeldCounts run := by
  refine ⟨run_blank, ?_⟩
  unfold HeldCounts; decide +kernel

theorem run_causes : CauseLaw run ∧ OverrideLaw run := by
  unfold CauseLaw OverrideLaw
  refine ⟨fun _ => ⟨by decide +kernel, by decide +kernel, fun sh => ?_, by decide +kernel⟩,
    fun _ runs => absurd runs (by decide +kernel)⟩
  cases sh <;> exact ⟨by decide +kernel, by decide +kernel, ⟨by decide +kernel, by decide +kernel⟩, by decide +kernel⟩

theorem run_attention : AttnLaw run := by
  refine ⟨run_blank, ?_⟩
  decide +kernel

theorem run_eeprom : EepromLaw run := by
  unfold EepromLaw Memory.wf; decide +kernel

theorem run_lanes : LaneLaw run := by
  refine ⟨run_blank, ?_⟩
  decide +kernel

/-- The three reels of the worked run. -/
theorem run_reel (h : Handle) : run.reel h =
    if h = 10 then some (reel 300 .winding 2 .a .one 20000000 none)
    else if h = 6 then some (reel 250 .doffing 2 .a .two 18000000 (some 20000000))
    else if h = 11 then some (reel 301 .winding 3 .b .one 20500000 none) else none := by
  revert h; decide +kernel

/-- What holds of the three reels holds of every record in use. -/
theorem run_each {Q : Handle → Reel → Prop} (h10 : Q 10 (reel 300 .winding 2 .a .one 20000000 none))
    (h6 : Q 6 (reel 250 .doffing 2 .a .two 18000000 (some 20000000)))
    (h11 : Q 11 (reel 301 .winding 3 .b .one 20500000 none)) : ∀ h, ∀ r ∈ run.reel h, Q h r := by
  intro h r e
  rw [run_reel, Option.mem_def] at e
  split at e
  · subst h; cases e; exact h10
  · split at e
    · subst h; cases e; exact h6
    · split at e
      · subst h; cases e; exact h11
      · cases e

theorem run_ids : IdLaw run :=
  ⟨by decide +kernel, run_each (by decide) (by decide) (by decide), fun g h n q hq r hr =>
    run_each (Q := fun g q => g ≠ h → q.id ≠ r.id)
      (run_each (Q := fun h r => (10 : Handle) ≠ h → 300 ≠ r.id) (by decide) (by decide) (by decide) h r hr)
      (run_each (Q := fun h r => (6 : Handle) ≠ h → 250 ≠ r.id) (by decide) (by decide) (by decide) h r hr)
      (run_each (Q := fun h r => (11 : Handle) ≠ h → 301 ≠ r.id) (by decide) (by decide) (by decide) h r hr) g q hq n⟩

theorem run_current : CurrentLaw run := by
  refine ⟨fun n h e => ?_, run_each (by decide +kernel) (by decide +kernel) (by decide +kernel)⟩
  have : ∀ n h, h ∈ (run.lane n).current → (n = 2 ∧ h = 10) ∨ (n = 3 ∧ h = 11) := by decide +kernel
  rcases this n h e with ⟨rfl, rfl⟩ | ⟨rfl, rfl⟩ <;> exact ⟨_, run_reel _, by decide +kernel⟩

theorem run_wound : WoundLaw run := by
  refine run_each ⟨?_, ?_⟩ ⟨?_, ?_⟩ ⟨?_, ?_⟩ <;> (try unfold Reel.isWound) <;> decide +kernel

theorem run_ranges : RangeLaw run := by
  intro g h n q hq r hr
  revert n
  refine run_each (Q := fun g q => g ≠ h → q.lane = r.lane → q.shaft = r.shaft → q.flags.previousRun = false →
    r.flags.previousRun = false → (∃ e ∈ q.stopAt, e ≤ r.start) ∨ ∃ e ∈ r.stopAt, e ≤ q.start) ?_ ?_ ?_ g q hq
  all_goals
    revert h r
    refine run_each ?_ ?_ ?_ <;> decide +kernel

theorem run_tracking : TrackingLaw run := ⟨run_current, run_wound, run_ranges⟩

/-! ## Well-formed commands -/

/-- QUERY_LANE with lane number 0 is the row MAP_SUMMARY (R19). -/
theorem test_wf_refuses_queryLane_0 : Instr.wf (.queryLane 0) = false := by decide

/-- A failed save leaves at most the 2,048 bytes of the image (R174). -/
theorem test_wf_refuses_long_remains : Instr.wf (.saveComplete (.failed (List.replicate 2049 0))) = false := by
  decide +kernel

theorem test_wf_accepts : Instr.wf (.queryLane 24) = true ∧ Instr.wf (.saveComplete (.failed [1, 2])) = true := by
  decide

/-- The table gives no row any bits. -/
theorem test_decodeTableWord_none : decodeTableWord 32 5 = none := by decide

/-! ## The step -/

theorem test_step_takes_the_front :
    step (ready.setPending [.preserve, .sweep]) = exec .preserve (ready.setPending [.sweep]) := rfl

/-- A timer that expires at 1 ms is queued by the tick that reaches it (log entry 2). -/
theorem test_step_ticks :
    let s := ready.setPosition { ready.position with stopTimer := some 1 }
    s.tick.now = 1 ∧ s.tick.pending = [.stopTimerExpiry] ∧ s.tick.tick.pending = [.stopTimerExpiry] := by
  decide +kernel

/-! ## Checks and arithmetic -/

/-- The check values of the two CRCs over the digits 1 to 9, known from outside the manual (PRESUMED, log entry 30). -/
theorem test_crc_check_values :
    let digits : List Byte := [0x31, 0x32, 0x33, 0x34, 0x35, 0x36, 0x37, 0x38, 0x39]
    crc16 digits = 0x29B1 ∧ crc32 digits = 0xCBF43926 := by decide +kernel

/-- The diameter of 7.6.1. -/
theorem test_diameter : Readings.diameter ⟨3, 300, 6000000, 20, 1050, 76200⟩ = 407718 := by decide +kernel

/-- The tensions of 7.6.2. -/
theorem test_tension : tensionAt step1 407718 = 1036 ∧ tensionAt step1 800000 = 840 := by decide

/-- The thresholds of 6.11.1. -/
theorem test_thresholds : thresholdsOf 10000000 6000000 1002000 .default =
    ⟨⟨15688623, false⟩, ⟨14491018, false⟩, ⟨15988024, false⟩, ⟨16037925, false⟩⟩ := by decide +kernel

/-- The footages of 3.12.2 and 5.8.3. -/
theorem test_footage : footageAt 10400000 1002000 15012600 = 4621825 ∧ footageAt 15012000 1002000 15012600 = 601 := by
  decide

/-- Id assignment after a wrap (3.12.4). -/
theorem test_free_id : freeId [1, 2] 96 4294967295 = 4294967295 ∧ stepId 4294967295 = 1 ∧ freeId [1, 2] 96 1 = 3 := by
  decide

/-- The map of 2.6.1. -/
def slit : State :=
  { ready with
    map := { KnifeMap.initial with
      lanes := (((KnifeMap.initial.lanes.set 0 ⟨true, 500, 3000, .a, false, none, 0, false⟩).set 1
        ⟨true, 3500, 3000, .b, false, none, 0, false⟩).set 2 ⟨true, 6500, 3000, .a, false, none, 0, false⟩).set 3
          ⟨true, 9800, 3000, .b, false, none, 0, false⟩ }
    store := { ready.store with settings := { Settings.default with webWidth := 20000 } } }

/-- The lane sets and the trim of 2.6.1. -/
theorem test_resolution :
    slit.laneSet .a 3000 (cutEnd 20000 3000 4000) = [⟨0, 2500, 500⟩, ⟨2, 0, 500⟩] ∧
    slit.laneSet .b 9400 (cutEnd 20000 9400 500) = [⟨3, 0, 100⟩] ∧
    slit.laneSet .a 3450 (cutEnd 20000 3450 0) = [⟨0, 2950, 1⟩] ∧ slit.isTrim 9400 9900 = true ∧
    slit.isTrim 3000 7000 = false ∧ cutEnd 20000 19990 200 = 20000 ∧ slit.isTrim 19990 20000 = true := by
  decide +kernel

/-- Grading with the default table (4.7.1). -/
theorem test_grades : gradeResult ⟨1, 0, 0, 0, 0, 0, 0⟩ defaultGradeTable = .b ∧
    gradeResult ⟨2, 0, 1, 0, 1, 0, 1⟩ defaultGradeTable = .reject ∧
    gradeResult ⟨0, 0, 0, 0, 0, 0, 9⟩ defaultGradeTable = .a := by decide

/-- The position search of 3.12.3. -/
theorem test_search :
    let previous := { reel 640 .doffed 3 .b .one 9000000 (some 12000000) with
      flags := { ReelFlags.none with previousRun := true } }
    let s := { ready with table := ⟨((ReelTable.initial.reels.set 2 (some previous)).set 7
      (some (reel 901 .doffed 3 .b .one 4000000 (some 10400000)))).set 19
        (some (reel 955 .winding 3 .b .two 10400000 none)), 93, ⟨0, 0⟩⟩ }
    s.coveringReel 3 .b 3999999 = none ∧ s.coveringReel 3 .b 4000000 = some 7 ∧
      s.coveringReel 3 .b 10399999 = some 7 ∧ s.coveringReel 3 .b 10400000 = some 19 ∧
      s.coveringReel 3 .b 90000000 = some 19 := by decide +kernel

/-! ## Power, resets and settings -/

theorem test_powerOn : (after .powerOn run).store.loading = true ∧ (after .powerOn run).position.p = 0 ∧
    (after .powerOn run).reel 10 = none := by decide +kernel

/-- The part with the preserve flag set. -/
def preserving : State :=
  { run with store := { run.store with preserve := true } }

/-- The flag governs one reset (R180, 11.5). -/
theorem test_warmReset : (after .warmReset preserving).store.lastReset = .preserved ∧
    (after .warmReset preserving).store.preserve = false ∧ (after .warmReset preserving).reel 10 = run.reel 10 ∧
    (after .warmReset run).store.lastReset = .warm ∧ (after .warmReset run).reel 10 = none := by decide +kernel

/-- Outside a preserving reset the load begins at the rising edge (R175), and after one a sweep is owed (R139). -/
theorem test_resetEnd : (after .resetEnd (after .warmReset run)).store.loading = true ∧
    (after .resetEnd (after .warmReset preserving)).engine.activity =
      .visiting ((reel 300 .winding 2 .a .one 20000000 none).readings 10 1006000) := by decide +kernel

/-- A rejected image raises SETTINGS_DEFAULTED: the change tag is 1 and ATTN is high (R172). -/
theorem test_settingsLoadComplete_rejects :
    let t := after (.settingsLoadComplete true) State.reset
    t.digest.changeTag = 1 ∧ t.digest.attn = true ∧ t.store.defaulted = true ∧ t.watch .sweep = some 5000 := by
  decide +kernel

/-- The settings that 11.5 saves. -/
def saved : Settings :=
  { Settings.default with reelIdCounter := 7402 }

/-- A load accepts the image of a save that was done (R174). -/
theorem test_loadImage_accepts : loadImage true (writeImage [] saved.image) = some saved :=
  (loadImage_writeImage [] saved.toBody Memory.wf_empty (by decide +kernel)).trans (by decide +kernel)

/-- The part after power-on with the image of 11.5 in the EEPROM. -/
def stored : State :=
  State.reset.setStore { SettingsStore.initial with eeprom := writeImage [] saved.image }

theorem stored_loads : after (.settingsLoadComplete true) stored = stored.completeLoad (some saved) := by
  have image : stored.store.eeprom = writeImage [] saved.image := by simp [stored]
  have loading : stored.store.loading = true := by decide +kernel
  simp [after, exec, execSettingsLoadComplete, image, loading, test_loadImage_accepts]

theorem test_settingsLoadComplete_accepts :
    (after (.settingsLoadComplete true) stored).settings.reelIdCounter = 7402 ∧
      (after (.settingsLoadComplete true) stored).store.defaulted = false := by
  rw [stored_loads]; decide +kernel

/-! ## Inputs and timers -/

/-- The part at a resolution, P and residual. -/
def counting (n p r : Nat) : State :=
  { ready with
    position := { ready.position with p := p, r := r }
    store := { ready.store with settings := { Settings.default with nEnc := n } } }

/-- The fifth count of 1.9.1, the first of 1.9.2 and the seventh of 1.9.4. -/
theorem test_quadratureChange_forward :
    let fine := after (.quadratureChange true false) (counting 5000 12 4000)
    let coarse := after (.quadratureChange true false) (counting 400 12 200)
    let limit := after (.quadratureChange true false) (counting 5000 4294967295 4500)
    (fine.position.p = 13 ∧ fine.position.r = 0) ∧ (coarse.position.p = 15 ∧ coarse.position.r = 0) ∧
      limit.position.p = 4294967295 ∧ limit.position.r = 0 ∧ limit.position.fault = true ∧
      limit.hold.stopLine = true := by decide +kernel

/-- The reverse counts of 1.9.1, 1.9.2 and 1.9.3 (count 6). -/
theorem test_quadratureChange_reverse :
    let fine := after (.quadratureChange false true) (counting 5000 13 0)
    let coarse := after (.quadratureChange false true) (counting 400 17 200)
    let start := after (.quadratureChange false true) (counting 5000 0 0)
    (fine.position.p = 12 ∧ fine.position.r = 4000 ∧ fine.position.direction = .reverse) ∧
      (coarse.position.p = 15 ∧ coarse.position.r = 0) ∧ start.position.p = 0 ∧ start.position.r = 0 := by
  decide +kernel

/-- The timer of the worked run stands until 300 ms; an expiry taken before then is none (R7). -/
theorem test_stopTimerExpiry : (after .stopTimerExpiry { run with now := 300 }).position.line = .stopped ∧
    after .stopTimerExpiry { run with now := 299 } = { run with now := 299 } := by decide +kernel

/-- The splice of 12.5.1 goes in front of the report; its parent leaves the staging place. -/
theorem test_splicePulse :
    let s := { run with
      position := { run.position with p := 21004000, spliceStamp := none }
      travel := { run.travel with free := 254, nip := ⟨[], []⟩, staged := some 81 } }
    let t := after .splicePulse s
    t.travel.approach.map ApproachEntry.knife = [21006000, 21008500] ∧ t.travel.free = 252 ∧
      t.travel.staged = none ∧ t.watch .knife = some 21006000 := by decide +kernel

/-- A pulse below the stamp plus the debounce distance is ignored (R9). -/
theorem test_splicePulse_debounced :
    let s := { run with position := { run.position with p := 21005499 } }
    after .splicePulse s = s := by decide +kernel

/-- The stamp takes the distance in force at its pulse, and the old stamp keeps its own (R5). -/
theorem test_splicePulse_keeps_its_debounce :
    let s := after (.setSettingsSpliceDebounce 100000) { run with position := { run.position with p := 21005500 } }
    (after .splicePulse s).position.spliceStamp = some ⟨21005500, 100000⟩ := by decide +kernel

/-- 1.9.5. -/
theorem test_cutPulse :
    let t := after (.cutPulse .a) { run with position := { run.position with p := 16002310 } }
    t.position.latch = ⟨some 16002310, none⟩ ∧
      (after (.cutPulse .a) t).position.bounces.a = 1 ∧
      (after (.cutPulse .a) t).position.latch = ⟨some 16002310, none⟩ := by decide +kernel

/-! ## The shafts -/

/-- Shaft A of the worked run with CHANGE_PENDING and a cut stamped at 22,000,500 (12.5.2). -/
def cutting : State :=
  { run with
    position := { run.position with p := 22000500, latch := ⟨some 22000500, none⟩ }
    table := { run.table with
      reels := run.table.reels.set 6 (some (reel 250 .doffed 2 .a .two 18000000 (some 20000000))), reserved := ⟨1, 0⟩ }
    travel := { run.travel with approach := [], nip := ⟨[], []⟩, free := 256, current := ⟨81, 81⟩ }
    shafts := { run.shafts with a := { windingShaft .empty 20000000 with
      phase := .changePending, cutReq := true, reason := .length } } }

/-- The cut of 12.5.2; handle 0 is the lowest FREE one here. -/
theorem test_cutTaken :
    let t := after (.cutTaken .a) cutting
    (t.reel 10).map (fun r => (r.state, r.stopAt, r.footage)) = some (.doffing, some 22000500, 2000500) ∧
      (t.reel 0).map (fun r => (r.id, r.start, r.parents, r.spindle)) = some (302, 22000500, [⟨81, 0⟩], .two) ∧
      (t.shaft .a).counter = 65533 ∧ (t.shaft .a).thresholds = some (thresholdsOf 22000500 2000000 1000000 .default) ∧
      t.table.free = 92 ∧ t.table.reserved = ⟨0, 0⟩ ∧ t.shaft .a = { t.shaft .a with
        phase := .winding, spindle1 := .full, spindle2 := .active, cutReq := false, reason := .none } ∧
      t.engine.activity = .closing ⟨10, 300, 2000500, 20, 1050, 76200⟩ ∧ t.engine.closing = [] ∧
      t.watch (.threshold .a .due) = some 24000500 := by
  decide +kernel

/-- The new thresholds of 12.5.2. -/
theorem test_thresholds_after_cut : thresholdsOf 22000500 2000000 1000000 .default =
    ⟨⟨23900500, false⟩, ⟨23500500, false⟩, ⟨24000500, false⟩, ⟨24050500, false⟩⟩ := by decide +kernel

/-- Cut 3 of 6.11.3: the counter stands at 1 on the last step, and the new set is EXTRA. -/
theorem test_cutTaken_runout :
    let s := { cutting with shafts := { cutting.shafts with a := { cutting.shafts.a with
      plan := [{ step1 with count := 1 }], counter := 1 } } }
    let t := after (.cutTaken .a) s
    (t.shaft .a).phase = .runout ∧ (t.shaft .a).counter = 0 ∧ t.hold.causes.planEnd = ⟨true, false⟩ ∧
      t.hold.stop = some 2000 ∧ t.hold.slow = some 2000 ∧ t.hold.stopEntries = 1 ∧ (t.reel 0).map (fun r => (r.ordinal, r.flags)) =
      some (0, { ReelFlags.none with extra := true }) := by decide +kernel

/-- The state with P at a position and one arrival of a watch handed over there. -/
def arriving (s : State) (w : Watch) (x : Nat) : State :=
  { s with position := { s.position with p := x, watches := s.position.watches.set w none, arrivals := [⟨w, x, x⟩] } }

/-- The report of 12.5.1 passes the knife: lane 3, offset 1,000, width 20. -/
theorem test_knifeWatchArrival :
    let t := after .knifeWatchArrival (arriving run .knife 21008500)
    t.travel.nip.a = [⟨.splice 81, 21009200, [⟨2, 0, 2500⟩], false⟩, ⟨.defect 0, 21011700, [⟨2, 1000, 20⟩], false⟩] ∧
      t.travel.nip.b.length = 1 ∧ t.travel.approach = [] ∧ t.travel.free = 253 := by decide +kernel

/-- The splice of 12.5.1 released on shaft A. -/
theorem test_nipWatchArrival :
    let t := after (.nipWatchArrival .a) (arriving run (.nip .a) 21009200)
    (t.reel 10).map (fun r => (r.tallies.splice, r.parents, r.computed, r.revision)) =
        some (1, [⟨80, 0⟩, ⟨81, 1009200⟩], .b, 1) ∧
      t.travel.current = ⟨81, 80⟩ ∧ t.travel.free = 253 ∧ t.freeMarks = 2047 := by decide +kernel

/-- The worked run with the approach and window thresholds of shaft A fired and auto-change on. -/
def nearDue : State :=
  { run with
    shafts := { run.shafts with a := { run.shafts.a with
      thresholds := (run.shafts.a.thresholds.map fun t => t.set .approach ⟨21900000, true⟩).map fun t =>
        t.set .window ⟨21500000, true⟩ } }
    store := { run.store with
      settings := { run.settings with job := ⟨{ ShaftJob.default with auto := true }, .default⟩ } } }

/-- The due threshold of 12.5.2: the attempt finds spindle 2 FULL. -/
theorem test_thresholdArrival :
    let t := after (.thresholdArrival .a .due) (arriving nearDue (.threshold .a .due) 22000000)
    (t.shaft .a).reason = .length ∧ (t.shaft .a).retry = true ∧ (t.shaft .a).phase = .winding ∧
      t.hold.causes.notUnloaded = ⟨true, false⟩ ∧ t.hold.stopLine = true ∧
      (t.digest.alerts[Alert.index (.changeDue .a)]).isSet = true := by decide +kernel

/-- 6.11.4, first order: the latch holds a stamp below the position, and the arrival is discarded. -/
theorem test_thresholdArrival_discarded :
    let s := arriving { nearDue with position := { nearDue.position with latch := ⟨some 22049975, none⟩ } }
      (.threshold .a .overrun) 22050000
    (after (.thresholdArrival .a .overrun) s).shafts = s.shafts := by decide +kernel

/-- Shaft A waits with an automatic retry, its other spindle unloaded (12.5.2). -/
def waiting : State :=
  { nearDue with
    shafts := { nearDue.shafts with a := { nearDue.shafts.a with
      reason := .length, retry := true, retriesDue := 1, spindle2 := .empty } } }

theorem test_automaticRetry :
    let t := after (.automaticRetry .a) waiting
    (t.shaft .a).phase = .changePending ∧ (t.shaft .a).cutReq = true ∧ (t.shaft .a).short = false ∧
      t.table.reserved = ⟨1, 0⟩ := by decide +kernel

/-- UNLOADED of 12.5.2: reel 250 is DOFFED and the waiting retry reserves one record. -/
theorem test_unloaded :
    let s := { waiting with shafts := { waiting.shafts with a := { waiting.shafts.a with spindle2 := .full } } }
    let t := after (.unloaded 1 2) s
    (t.reel 6).map Reel.state = some .doffed ∧ (t.shaft .a).spindle2 = .empty ∧
      (t.shaft .a).phase = .changePending ∧ t.table.reserved = ⟨1, 0⟩ := by decide +kernel

/-! ## The sweep engine -/

/-- The first row of 7.6.3, with the records of the worked run: the visit of handle 10 begins. -/
theorem test_sweepWatchArrival :
    let t := after .sweepWatchArrival (arriving run .sweep 21010000)
    t.engine.sweep = some 11 ∧ t.engine.activity =
        .visiting ((reel 300 .winding 2 .a .one 20000000 none).readings 10 1010000) ∧
      t.watch .sweep = some 21015000 := by decide +kernel

/-- The engine visits the reel of shaft A. -/
def visiting : State :=
  { run with engine := ⟨.visiting ⟨10, 300, 6000000, 20, 1050, 76200⟩, some 11, false, []⟩ }

/-- The sum lies one beyond the greatest position, and the watch has been armed again before (R128, entry 39). -/
theorem test_sweepWatchArrival_beyond_the_greatest :
    let t := after .sweepWatchArrival ((arriving visiting .sweep 4294962296).setWatch .sweep (some 4294962300))
    t.watch .sweep = none ∧ t.engine.owed = true := by decide +kernel

/-- The diameter of 7.6.1 is written and the next visit begins. -/
theorem test_visitComplete :
    let t := after .visitComplete visiting
    (t.reel 10).map Reel.diameter = some 407718 ∧ t.engine.sweep = some 12 ∧
      (t.reel 10).map Reel.revision = some 0 := by decide +kernel

/-- The last visit of a sweep with another owed: a clamped diameter at the limit, on a reel that starts beyond P. The
write, the sweep end and the next visit's read each move the revision (R43, R131, R134, entry 43). -/
theorem test_visitComplete_three_events :
    let s := { visiting with engine := ⟨.visiting ⟨10, 300, 100000000, 20, 1050, 76200⟩, some 12, true, []⟩ }
    let t := after .visitComplete (s.setReel 10 (some (reel 300 .winding 2 .a .one 4000000000 none)))
    (t.reel 10).map (fun r => (r.revision, r.flags)) =
      some (3, { ReelFlags.none with limited := true, diaLimit := true, reversed := true }) := by decide +kernel

/-- The engine computes the final diameter of reel 250. -/
def closing : State :=
  { run with engine := ⟨.closing ⟨6, 250, 6000000, 20, 1050, 76200⟩, none, false, []⟩ }

theorem test_closingComplete :
    let t := after .closingComplete closing
    (t.reel 6).map (fun r => (r.diameter, r.revision)) = some (407718, 1) ∧ t.engine.activity = .idle := by
  decide +kernel

/-! ## Holds -/

/-- The hold unit of 8.5.1 after 900 ms. -/
def holding : State :=
  { ready with
    hold := { HoldUnit.initial with
      causes := { Causes.empty with travelLow := true }
      slow := some 2100
      stop := some 2900
      slowEntries := 1
      stopEntries := 1
      slowLine := true
      stopLine := true }
    now := 1500 }

/-- 8.5.1 at 2,100 and at 2,900. -/
theorem test_holdTimerExpiry :
    let slow := after (.holdTimerExpiry .slow) { holding with now := 2100 }
    let stop := after (.holdTimerExpiry .stop) { holding with now := 2900 }
    slow.hold.slow = some 4100 ∧ slow.hold.renewals = 1 ∧ slow.hold.level = .stop ∧ stop.hold.stopLine = false ∧
      stop.hold.slow = some 2100 ∧ stop.hold.level = .slow ∧ after (.holdTimerExpiry .slow) holding = holding := by decide +kernel

/-- A SLOW hold without demand and an override that runs until 2,500 (8.5.2). -/
def released : State :=
  { ready with hold := { HoldUnit.initial with slow := some 2000, slowLine := true, override := some 2500 } }

theorem test_overrideExpiry : (after .overrideExpiry { released with now := 2500 }).hold.override = none ∧
    (after .overrideExpiry { released with now := 2500 }).hold.slow = some 2000 ∧
    after .overrideExpiry released = released := by decide +kernel

theorem test_holdOverride : (after .holdOverride released).hold.slowLine = false ∧
    (after .holdOverride released).hold.override = some 2000 := by decide +kernel

/-! ## The two ports -/

/-- The answer code in the buffer, with the request it answers. -/
def answerOf (s : State) : Option (AnswerCode × Byte) :=
  match s.port.buffer with
  | .ready a => some (a.code, a.request)
  | _ => none

/-- The payload in the buffer. -/
def payloadOf (s : State) : List Byte :=
  match s.port.buffer with
  | .ready a => a.payload
  | _ => []

/-- Length byte and body of report 1 of 12.5.1: DEFECT 1, lag 0, x 11,000, w 20. -/
def report1 : List Byte := [10, 1, 0, 0, 0x2A, 0xF8, 0, 20, 1, 0, 0]

/-- The receiver one character before the end of report 1, at P = 21,000,000 with the travel list empty. -/
def receiving : State :=
  { run with
    position := { run.position with p := 21000000, watches := { run.position.watches with knife := none } }
    travel := { run.travel with approach := [], nip := ⟨[], []⟩, free := 256 }
    hold := { run.hold with lastTravel := 256 }
    link := { Receiver.initial with
      phase := .receiving, bytes := report1 ++ [byteOf ((crc16 report1).toNat / 256)], gap := some 2 } }

/-- The first row of 12.5.1. -/
theorem test_uartCharacter_takes_a_report :
    let t := after (.uartCharacter (byteOf (crc16 report1).toNat) false) receiving
    t.travel.approach = [⟨.report (.defect 0) 11000 20, 21008500, 21000000⟩] ∧ t.travel.free = 254 ∧
      t.watch .knife = some 21008500 ∧ t.link.phase = .hunt := by decide +kernel

/-- A frame with a wrong CRC is refused BAD_FRAME (R163, R164). -/
theorem test_uartCharacter_refuses_a_bad_frame :
    let t := after (.uartCharacter (byteOf (crc16 report1).toNat + 1) false) receiving
    t.link.badFrame = 1 ∧ t.travel.approach = [] ∧ (t.digest.alerts[Alert.index .reportsRefused]).isSet = true := by
  decide +kernel

/-- The gap timer stands until 2 ms; an expiry taken before then is none (R162). -/
theorem test_gapTimerExpiry : (after .gapTimerExpiry { receiving with now := 2 }).link.phase = .hunt ∧
    (after .gapTimerExpiry { receiving with now := 2 }).link.badFrame = 1 ∧
    after .gapTimerExpiry { receiving with now := 1 } = { receiving with now := 1 } := by decide +kernel

/-- The frame of SWEEP: length 1, code 0x38 and its CRC-16. -/
theorem test_requestTransaction_takes : frameValid (requestFrame ⟨0x38, []⟩) = true ∧
    (after (.requestTransaction (requestFrame ⟨0x38, []⟩)) ready).port.inWork = some ⟨0x38, []⟩ := by decide +kernel

/-- A frame of no byte at all is BAD_FRAME with request code 0 (R153). -/
theorem test_requestTransaction_refuses : answerOf (after (.requestTransaction []) ready) = some (.badFrame, 0) := by
  decide +kernel

theorem test_ignoredTransaction : after .ignoredTransaction run = run := by decide +kernel

/-- The first byte received decides what a transaction is; with none at all it is ignored (R152). -/
theorem test_transactionCommands : transactionCommands [0xA7, 0, 0] = [.answerStart, .answerEnd 2] ∧
    transactionCommands [0xA6, 1, 0x38] = [.requestTransaction [1, 0x38]] ∧
    transactionCommands [0x00, 0xA6] = [.ignoredTransaction] ∧
    transactionCommands [] = [.ignoredTransaction] := by decide

/-- An EMPTY buffer answers NONE: length 0, code 1, flags 0, request code 0 (R157, R183). -/
theorem test_answerStart :
    let composed := ready.port.composed
    (after .answerStart ready).port.transaction = .answer .empty composed.2 ∧ composed.2.take 4 = [0, 1, 0, 0] ∧
      composed.2.length = 6 := by decide +kernel

/-- SDO is 0x00 while the first byte is received and behind the CRC (R152, R157). -/
theorem test_shiftedOut :
    let p := (after .answerStart ready).port
    p.shiftedOut 0 = 0 ∧ p.shiftedOut 2 = 1 ∧ p.shiftedOut 7 = 0 := by decide +kernel

/-- An answer stays until its whole frame has been shifted out (R157). -/
theorem test_answerEnd :
    let s := after .answerStart (after .preserve ready)
    answerOf (after (.answerEnd 5) s) = some (.ok, 0x42) ∧ (after (.answerEnd 6) s).port.buffer = .empty := by
  decide +kernel

/-! ## Digest and attention (10.7) -/

/-- The digest unit of 10.7 after CHANGE_DUE_A. -/
def alerted : State :=
  { ready with
    digest := { DigestUnit.initial with
      changeTag := 43
      ackedTag := 42
      alerts := ((DigestUnit.initial.alerts.set 12 ⟨true, 42, false⟩).set 0 ⟨true, 43, false⟩).set 17 ⟨false, 0, true⟩
      attn := true } }

theorem test_readDigest : (payloadOf (after .readDigest run)).length = 127 ∧
    fieldAt (payloadOf (after .readDigest run)) 50 4 = 21006000 := by decide +kernel

theorem test_ackDigest : (after (.ackDigest 43) alerted).digest.attn = false ∧
    (after (.ackDigest 43) alerted).digest.ackedTag = 43 := by decide +kernel

/-- The clear with tag 42 leaves CHANGE_DUE_A, whose raise tag is newer, and lists it. -/
theorem test_clearAlerts : payloadOf (after (.clearAlerts 42 0x1001) alerted) = [0, 0, 1] ∧
    (after (.clearAlerts 42 0x1001) alerted).digest.attn = true := by decide +kernel

theorem test_setAlertMask : (after (.setAlertMask 0x1001) alerted).digest.attn = false := by decide +kernel

/-! ## Queries -/

/-- A WINDING reel whose start lies beyond P reads footage 0 with REVERSED, once (3.12.2). -/
theorem test_queryReel :
    let s := { run with position := { run.position with p := 19999000 } }
    let t := after (.queryReel 300) s
    (t.reel 10).map (fun r => (r.flags.reversed, r.revision)) = some (true, 1) ∧ fieldAt (payloadOf t) 18 4 = 0 ∧
      (after (.queryReel 300) t).reel 10 = t.reel 10 ∧ (payloadOf t).length = 101 := by decide +kernel

/-- FIND_REEL of lane 3, shaft A: the reel id, its handle, its state and the footage there. -/
theorem test_findReel : payloadOf (after (.findReel 3 1 20001000) run) = [0, 0, 1, 44, 10, 1, 0, 0, 3, 232] ∧
    answerOf (after (.findReel 3 1 17999999) run) = some (.unknownReel, 0x11) := by decide +kernel

/-- LIST_REELS of ANY lists the three records in ascending handle order, without a continuation. -/
theorem test_listReels : (payloadOf (after (.listReels 0 0) run)).take 11 = [3, 0xFF, 6, 0, 0, 0, 250, 3, 3, 1, 0] ∧
    (payloadOf (after (.listReels 1 11) run)).take 3 = [1, 0xFF, 11] := by decide +kernel

/-- The mark of 5.8.1 reads footage 4,621,825. -/
theorem test_readMarks :
    let marked := { reel 955 .winding 3 .b .one 10400000 none with
      rho := 1002000, chain := [⟨.defect 1, 15012600, 50, 30, false⟩] }
    let t := after (.readMarks 955 0) (ready.setReel 19 (some marked))
    fieldAt (payloadOf t) 27 4 = 4621825 ∧ (payloadOf t).length = 185 ∧
      ((payloadOf t).drop 9).take 4 = [1, 2, 1, 0] := by decide +kernel

theorem test_queryShaft : (payloadOf (after (.queryShaft 1) run)).length = 235 ∧
    (payloadOf (after (.queryShaft 1) run)).take 5 = [1, 1, 1, 2, 1] ∧
    answerOf (after (.queryShaft 3) run) = some (.range, 0x14) := by decide +kernel

theorem test_queryLane : payloadOf (after (.queryLane 3) run) = [3, 1, 39, 16, 9, 196, 1, 1, 10, 0, 0, 0] := by
  decide +kernel

theorem test_mapSummary : (payloadOf (after .mapSummary run)).length = 172 ∧
    (payloadOf (after .mapSummary run)).take 4 = [156, 64, 0, 0] := by decide +kernel

/-- N_enc, the stop timeout and the status byte with SETTINGS_DEFAULTED. -/
theorem test_readSettings :
    let t := after .readSettings { ready with store := { ready.store with defaulted := true } }
    (payloadOf t).length = 252 ∧ (payloadOf t).take 5 = [0, 39, 16, 1, 44] ∧ (payloadOf t).getLast? = some 8 := by
  decide +kernel

/-! ## Lanes -/

/-- The line at rest with the two shafts IDLE and lane 3 enabled (12.5). -/
def resting : State :=
  { ready with
    map := { KnifeMap.initial with
      lanes := KnifeMap.initial.lanes.set 2 ⟨true, 10000, 2500, .a, false, none, 7, false⟩
      order := [0, 1] ++ (List.finRange 24).drop 3 ++ [2] } }

/-- The lane moves in the map order, and a range that meets lane 3 is OVERLAP only on an enabled lane (R27). -/
theorem test_setLaneGeometry :
    let t := after (.setLaneGeometry 1 12400 500) resting
    (t.lane 0).edge = 12400 ∧ t.map.order = [1] ++ (List.finRange 24).drop 3 ++ [2, 0] ∧
      answerOf (after (.setLaneGeometry 3 39900 200) resting) = some (.range, 0x20) ∧
      answerOf (after (.setLaneEnable 1) t) = some (.overlap, 0x20) := by decide +kernel

theorem test_setLaneShaft : ((after (.setLaneShaft 3 2) resting).lane 2).shaft = .b ∧
    answerOf (after (.setLaneShaft 3 2) run) = some (.state, 0x20) := by decide +kernel

/-- The re-enable of 2.6.3: the new reel starts at the ended reel's end, with LATE_START. -/
theorem test_setLaneEnable :
    let s := after (.setLaneDisable 3) run
    let t := after (.setLaneEnable 3) { s with position := { s.position with p := 21004700 } }
    (t.reel 0).map (fun r => (r.start, r.flags)) = some (21006000, { ReelFlags.none with lateStart := true }) ∧
      (t.lane 2).current = some 0 := by decide +kernel

/-- Without an unreserved record the lane becomes UNTRACKED, and SLOW is asserted (2.6.3). -/
theorem test_setLaneEnable_untracked :
    let t := after (.setLaneEnable 6) { run with table := { run.table with reserved := ⟨0, 93⟩ } }
    (t.lane 5).untracked = true ∧ t.hold.causes.untracked = true ∧ t.hold.slowLine = true := by decide +kernel

/-- The disable of 2.6.3. -/
theorem test_setLaneDisable :
    let t := after (.setLaneDisable 3) run
    (t.reel 10).map (fun r => (r.state, r.stopAt, r.flags.laneClosed, r.revision)) =
        some (.ended, some 21006000, true, 1) ∧ (t.lane 2).current = none ∧ (t.lane 2).enabled = false := by
  decide +kernel

theorem test_setLaneReference : ((after (.setLaneReference 3 1) resting).lane 2).reference = true ∧
    answerOf (after (.setLaneReference 1 1) resting) = some (.state, 0x20) := by decide +kernel

theorem test_setLaneClearTally : ((after (.setLaneClearTally 3) resting).lane 2).tally = 0 := by decide +kernel

/-! ## Jobs, plans and shafts -/

/-- A SET_JOB with the built-in defaults and another thickness. -/
def job : JobFields :=
  ⟨40000, 25, 1000, 1000000, 1000000, ⟨950, 750, 50000, 0⟩, ⟨950, 750, 50000, 1⟩⟩

/-- A new web width needs the line STOPPED (R20, R160). -/
theorem test_setJob : (after (.setJob job) run).settings.thickness = 25 ∧
    (after (.setJob job) run).settings.job.b.auto = true ∧
    answerOf (after (.setJob { job with webWidth := 30000 }) run) = some (.lineMoving, 0x21) := by decide +kernel

/-- The fields of the step of the worked run. -/
def stepFields : StepFields := ⟨0, 2000000, 76200, 500000, 0, 1200, 300, 800000⟩

theorem test_setPlanStep : ((after (.setPlanStep 1 1 stepFields) resting).shaft .a).plan = [step1] ∧
    answerOf (after (.setPlanStep 1 2 stepFields) resting) = some (.range, 0x22) ∧
    answerOf (after (.setPlanStep 1 1 stepFields) run) = some (.state, 0x22) := by decide +kernel

theorem test_clearPlan : answerOf (after (.clearPlan 1) run) = some (.state, 0x23) ∧
    ((after (.clearPlan 1) (after (.setPlanStep 1 1 stepFields) resting)).shaft .a).plan = [] := by decide +kernel

theorem test_setGradeTable :
    (after (.setGradeTable 2 ⟨⟨3, 0, 0, 0, 0, 0⟩, ⟨1, 2, 0, 0, 3, 1⟩⟩) run).settings.tables[2] =
    ⟨⟨3, 0, 0, 0, 0, 0⟩, ⟨1, 2, 0, 0, 3, 1⟩⟩ := by decide +kernel

theorem test_stageParent : (after (.stageParent 81) run).travel.staged = some 81 ∧
    (after (.stageParent 0) run).travel.staged = none := by decide +kernel

/-- The start of 6.11.3: step 1 with count 2. -/
theorem test_startShaft :
    let s := after (.setPlanStep 1 1 { stepFields with count := 2 }) resting
    let t := after (.startShaft 1) s
    (t.shaft .a).phase = .winding ∧ (t.shaft .a).step = 1 ∧ (t.shaft .a).counter = 2 ∧
      (t.reel 0).map (fun r => (r.id, r.ordinal, r.flags)) = some (1, 2, .none) ∧ (t.lane 2).current = some 0 := by
  decide +kernel

theorem test_stopShaft :
    let s := { run with position := { run.position with line := .stopped } }
    let t := after (.stopShaft 1) s
    (t.shaft .a).phase = .idle ∧ (t.reel 10).map (fun r => (r.state, r.footage)) = some (.doffing, 1006000) ∧
      (t.lane 2).current = none ∧ answerOf (after (.stopShaft 1) run) = some (.lineMoving, 0x31) := by decide +kernel

/-- Before the window a change must be forced (R113), and then the set is short (R114). -/
theorem test_change : answerOf (after (.change 2 0) run) = some (.early, 0x32) ∧
    ((after (.change 2 1) run).shaft .b).short = true ∧ ((after (.change 2 1) run).shaft .b).cutReq = true ∧
    answerOf (after (.change 1 1) run) = some (.notUnloaded, 0x32) := by decide +kernel

theorem test_cancelChange : ((after (.cancelChange 2) (after (.change 2 1) run)).shaft .b).phase = .winding ∧
    (after (.cancelChange 2) (after (.change 2 1) run)).table.reserved = ⟨0, 0⟩ := by decide +kernel

/-! ## Reels and runs -/

/-- An operator mark on lane 3, 1,000 mm back. -/
theorem test_addMark :
    let t := after (.addMark 1 4 1000) run
    (t.reel 10).map (fun r => (r.chain, r.tallies.flag)) = some ([⟨.flag, 21005000, 0, 2500, false⟩], 1) ∧
      (payloadOf t).take 9 = [1, 0, 0, 1, 44, 0, 0, 0, 0] := by decide +kernel

/-- The worked run with reel 250 off the machine, at revision 5. -/
def doffed : State :=
  run.setReel 6 (some { reel 250 .doffed 2 .a .two 18000000 (some 20000000) with revision := 5 })

/-- The override and the two retirements of 3.12.1. -/
theorem test_overrideGrade :
    let t := after (.overrideGrade 250 2) doffed
    (t.reel 6).map (fun r => (r.override, r.revision)) = some (some .b, 6) ∧
      answerOf (after (.retire 250 5) t) = some (.changed, 0x37) ∧ (after (.retire 250 6) t).reel 6 = none := by
  decide +kernel

theorem test_retire : (after (.retire 250 5) doffed).table.free = 94 ∧
    answerOf (after (.retire 300 0) doffed) = some (.state, 0x37) := by decide +kernel

theorem test_sweep : (after .sweep run).engine.sweep = some 11 ∧ (after .sweep closing).engine.owed = true := by
  decide +kernel

theorem test_resetRun :
    let s := { ready with
      position := { ready.position with p := 22020000, spliceStamp := some ⟨21004000, 1500⟩ }
      table := ⟨ReelTable.initial.reels.set 6 (some (reel 250 .doffed 2 .a .two 18000000 (some 20000000))), 95,
        ⟨0, 0⟩⟩ }
    let t := after .resetRun s
    t.position.p = 0 ∧ (t.reel 6).map (fun r => (r.flags.previousRun, r.revision)) = some (true, 1) ∧
      t.watch .sweep = some 5000 ∧ t.position.spliceStamp = none ∧
      answerOf (after .resetRun run) = some (.state, 0x3A) := by decide +kernel

/-! ## Settings -/

theorem test_setSettingsNEnc :
    let s := { ready with position := { ready.position with p := 12, r := 9000 } }
    (after (.setSettingsNEnc 5000) s).settings.nEnc = 5000 ∧ (after (.setSettingsNEnc 5000) s).position.r = 0 ∧
      (after (.setSettingsNEnc 5000) s).position.p = 12 ∧
      answerOf (after (.setSettingsNEnc 199) s) = some (.range, 0x40) := by decide +kernel

theorem test_setSettingsStopTimeout : (after (.setSettingsStopTimeout 5000) ready).settings.stopTimeout = 5000 ∧
    answerOf (after (.setSettingsStopTimeout 49) ready) = some (.range, 0x40) := by decide +kernel

theorem test_setSettingsSpliceDebounce : (after (.setSettingsSpliceDebounce 0) ready).settings.debounce = 0 := by
  decide +kernel

theorem test_setSettingsDIk : (after (.setSettingsDIk 8500) ready).settings.dIk = 8500 ∧
    answerOf (after (.setSettingsDIk 9000) run) = some (.state, 0x40) := by decide +kernel

theorem test_setSettingsDSk : (after (.setSettingsDSk 100000) ready).settings.dSk = 100000 ∧
    answerOf (after (.setSettingsDSk 100001) ready) = some (.range, 0x40) := by decide +kernel

theorem test_setSettingsDKw : (after (.setSettingsDKw .b 4100) ready).settings.dKw = ⟨5000, 4100⟩ := by decide +kernel

theorem test_setSettingsHoldQuantum : (after (.setSettingsHoldQuantum 3000) ready).settings.quantum = 3000 ∧
    answerOf (after (.setSettingsHoldQuantum 3000) (after .saveSettings ready)) = some (.busy, 0x40) := by
  decide +kernel

theorem test_setSettingsSweepInterval :
    (after (.setSettingsSweepInterval 100) run).watch .sweep = some 21006100 ∧
      (after (.setSettingsSweepInterval 0) run).watch .sweep = none := by decide +kernel

theorem test_setSettingsReelIdCounter :
    (after (.setSettingsReelIdCounter 4294967295) ready).settings.reelIdCounter = 4294967295 ∧
      answerOf (after (.setSettingsReelIdCounter 0) ready) = some (.range, 0x40) := by decide +kernel

/-- The count held is tested at once (R141). -/
theorem test_setSettingsTravelWatermarks :
    let t := after (.setSettingsTravelWatermarks 255 256) run
    t.hold.causes.travelLow = true ∧ t.hold.slowLine = true ∧ t.settings.travelUpper = 256 := by decide +kernel

theorem test_setSettingsMarkWatermarks :
    let s := { run with hold := { run.hold with lastMarks := 2047 } }
    (after (.setSettingsMarkWatermarks 2047 2048) s).hold.causes.marksLow = true := by decide +kernel

/-- Saves and the image (R178, 11.5). -/
theorem test_saveSettings : (after .saveSettings ready).store.save.map List.length = some 258 ∧
    answerOf (after .saveSettings (after .saveSettings ready)) = some (.busy, 0x41) := by decide +kernel

/-- A part with a save of three bytes in flight. -/
def saving : State :=
  { ready with store := { ready.store with save := some [1, 2, 3], defaulted := true } }

theorem test_saveComplete : (after (.saveComplete .done) saving).store.eeprom = [(0, 1), (1, 2), (2, 3)] ∧
    (after (.saveComplete .done) saving).store.defaulted = false ∧
    (after (.saveComplete (.failed [9])) saving).store.lastSave = .failed ∧
    (after (.saveComplete (.failed [9])) saving).store.eeprom = [(0, 9)] := by decide +kernel

theorem test_preserve : (after .preserve ready).store.preserve = true := by decide +kernel

theorem test_cancelPreserve : (after .cancelPreserve preserving).store.preserve = false := by decide +kernel

/-- RESET_PART reads the preserve flag (R180, 11.5). -/
theorem test_resetPart : (after .resetPart run).store.lastReset = .warm ∧ (after .resetPart run).store.loading = true ∧
    (after .resetPart preserving).store.lastReset = .preserved ∧
    (after .resetPart preserving).reel 11 = run.reel 11 := by decide +kernel

/-- A splice that lands on a full parent list beyond the greatest footage sets LIMITED as well (R43, R50). -/
theorem test_full_parent_list_clamps :
    let r := { reel 300 .winding 2 .a .one 0 none with rho := 1050000, parents := List.replicate 4 ⟨80, 0⟩ }
    let q := r.extendParents ⟨.splice 81, 4294967295, 0, 0, false⟩
    q.parents = r.parents ∧ q.flags.parentListFull = true ∧ q.flags.limited = true := by decide +kernel

/-! ## Hypotheses that can be met: the step, the laws, the port and the frames -/

theorem run_steps : ∃ t, step run = .next t := ⟨_, rfl⟩

theorem witness_StepTakesTheFront : run.pending = .cutPulse .a :: [] := rfl

/-- Every timer of the tick stands exactly at the next millisecond. -/
theorem witness_EmptyQueueTicks :
    let s := { ready with
      position := { ready.position with stopTimer := some 1 }
      link := { ready.link with gap := some 1 }
      hold := { ready.hold with slow := some 1, stop := some 1, override := some 1 } }
    s.pending = [] ∧ s.inReset = false ∧ s.tick.pending.length = 5 ∧ ready.tick.pending = [] := by decide +kernel

theorem witness_TravelListStaysSound : (SlotLaw run ∧ StageLaw run) ∧ ∃ t, step run = .next t :=
  ⟨run_slots, run_steps⟩

theorem witness_MarksStayAccounted : (MarkLaw run ∧ ChainLaw run) ∧ ∃ t, step run = .next t := ⟨run_marks, run_steps⟩

theorem witness_RecordsStayAccounted : (RecordLaw run ∧ ∃ t, step run = .next t) ∧
    let s := { run with engine := ⟨.idle, none, false, [⟨6, 250⟩, ⟨10, 300⟩]⟩ }
    ClosingLaw s ∧ ∃ t, step s = .next t :=
  ⟨⟨run_records, run_steps⟩, by unfold ClosingLaw; decide +kernel, _, rfl⟩

theorem witness_SpindlesFollowTheirRecords : ((SpindleLaw run ∧ TrackingLaw run) ∧ PlanLaw run) ∧
    ∃ t, step run = .next t := ⟨⟨⟨run_spindles, run_tracking⟩, run_plan⟩, run_steps⟩

theorem witness_LanesStayApart : (LaneLaw run ∧ OrderLaw run) ∧ ∃ t, step run = .next t :=
  ⟨⟨run_lanes, run_order⟩, run_steps⟩

theorem witness_PositionStaysInRange : PositionLaw run ∧ ∃ t, step run = .next t := ⟨run_position, run_steps⟩

/-- With the watches armed, and with an arrival of the knife watch waiting. -/
theorem witness_ArmedWatchesLieAhead : (WatchLaw run ∧ StageWatchLaw run ∧ ∃ t, step run = .next t) ∧
    StageWatchLaw (arriving run .knife 21008500) ∧ ∃ t, step (arriving run .knife 21008500) = .next t :=
  ⟨⟨run_watch, run_stages, run_steps⟩,
    ⟨Or.inr (by decide +kernel), fun sh => by cases sh <;> exact Or.inl (by decide +kernel)⟩, _, rfl⟩

theorem witness_OutputLinesShowTheState :
    ((CutRequestLaw run ∧ LineLaw run) ∧ (BlankLaw run ∧ HeldCounts run ∧ CauseLaw run ∧ OverrideLaw run)) ∧
    ∃ t, step run = .next t := ⟨⟨run_lines, run_held.1, run_held.2, run_causes⟩, run_steps⟩

theorem witness_AttentionFollowsTheAlerts : AttnLaw run ∧ ∃ t, step run = .next t := ⟨run_attention, run_steps⟩

theorem witness_EepromStaysCanonical : EepromLaw run ∧ ∃ t, step run = .next t := ⟨run_eeprom, run_steps⟩

theorem witness_ReelsNeverOverlap : TrackingLaw run ∧ ∃ t, step run = .next t := ⟨run_tracking, run_steps⟩

theorem witness_ReelIdsStayDistinct : IdLaw run ∧ ∃ t, step run = .next t := ⟨run_ids, run_steps⟩

/-- The records of the worked run stay in use through the step. -/
theorem witness_RecordsOnlyGrow : TrackingLaw run ∧ ∃ t, step run = .next t ∧ ∃ r q, run.reel 6 = some r ∧
    t.reel 6 = some q :=
  ⟨run_tracking, _, rfl, _, _, run_reel 6, run_reel 6⟩

theorem ready_takes : ready.takesRequests := by
  unfold State.takesRequests; decide +kernel

theorem run_takes : run.takesRequests := by
  unfold State.takesRequests; decide +kernel

/-- The part in a non-preserving reset. -/
def resetting : State := after .warmReset run

/-- The part with SWEEP in work, and with an operator mark in work that the latch holds. -/
def working : State :=
  { ready with port := { ready.port with buffer := .working, inWork := some ⟨0x38, []⟩ } }

/-- An operator mark of shaft A that the latch holds is in work. -/
def held : State :=
  { run with port := { run.port with
      buffer := .working, inWork := encodeRequest (.addMark 1 4 0), held := some ⟨.a, 21006000, [⟨2, 0, 2500⟩]⟩ } }

theorem witness_RequestsTurnedAway :
    encodeRequest .preserve = some ⟨0x42, []⟩ ∧ resetting.inReset = true ∧
    (State.reset.inReset = false ∧ State.reset.store.loading = true) ∧
    (working.inReset = false ∧ working.store.loading = false ∧ working.port.buffer = .working ∧
      working.port.inWork.bind decodeRequest ≠ some .preserve) ∧
    (held.inReset = false ∧ held.store.loading = false ∧ held.port.buffer = .working ∧ held.port.held.isSome) := by
  decide +kernel

theorem witness_RequestThroughThePort : encodeRequest (.queryLane 24) = some ⟨0x15, [24]⟩ ∧
    Instr.wf (.queryLane 24) = true ∧ run.takesRequests ∧ run.port.held = none :=
  ⟨rfl, rfl, run_takes, rfl⟩

theorem witness_RequestFramesRoundTrip : encodeRequest (.queryLane 255) = some ⟨0x15, [255]⟩ ∧
    Instr.wf (.queryLane 255) = true := by decide

theorem witness_SettingsImageRoundTrip : Memory.wf [(2047, 1)] ∧ run.settings.valid = true := by decide +kernel

/-- Twelve records in use at the highest handles, each with four parents and a chain of 64. -/
def crowded : State :=
  { ready with
    table := ⟨Vector.ofFn fun h => if 84 ≤ h.val then some { reel h.val .doffed 2 .a .two 0 (some 10) with
      parents := List.replicate 4 ⟨80, 0⟩, chain := List.replicate 64 ⟨.flag, 5, 0, 2500, false⟩ } else none, 84, ⟨0, 0⟩⟩
    freeMarks := 1280 }

/-- The last element of every list that a payload holds, and a shaft with and without thresholds. -/
theorem witness_AnswersHaveTheirLayout : OrderLaw run ∧ (run.shaft .a).plan.length ≤ 8 ∧
    (List.replicate 24 300).length ≤ 24 ∧ (List.replicate 24 300)[23]? = some 300 ∧
    (∃ r ∈ crowded.reel 95, r.parents[3]? = some ⟨80, 0⟩ ∧ r.chain[8 * 7 + 7]? = some ⟨.flag, 5, 0, 2500, false⟩) ∧
    ((allHandles.filter fun h => decide ((84 : Handle) ≤ h) &&
      (crowded.reel h).any fun r => (some ReelState.doffed).all fun st => decide (r.state = st)).take 12)[11]? = some 95 ∧
    run.map.order[23]? = some 3 ∧ (run.shaft .a).plan[0]? = some step1 ∧
    (run.shaft .a).thresholds = some (thresholdsOf 20000000 2000000 1000000 .default) ∧
    (ready.shaft .a).thresholds = none ∧ (ready.shaft .a).plan.length ≤ 8 :=
  ⟨run_order, by decide +kernel⟩

theorem saving_takes : saving.takesRequests := by
  unfold State.takesRequests; decide +kernel

/-- One value just outside each range of `outOfRange`, and a request that a save in flight does not make BUSY. -/
theorem witness_ValuesOutOfRangeAreRefused : (run.takesRequests ∧ run.store.save = none) ∧
    (saving.takesRequests ∧ saving.store.save ≠ none ∧ encodeRequest (.clearPlan 0) = some ⟨0x23, [0]⟩) ∧
    [Instr.clearAlerts 0 0x100000, .setAlertMask 0x100000, .findReel 25 1 0, .findReel 0 1 0, .findReel 1 3 0,
      .listReels 5 0, .listReels 0 96, .readMarks 1 8, .queryShaft 0, .queryShaft 3, .queryLane 25,
      .setLaneGeometry 1 39901 100, .setLaneGeometry 1 0 99, .setLaneGeometry 1 0 40001, .setLaneShaft 1 3,
      .setLaneEnable 25, .setLaneDisable 0, .setLaneReference 1 2, .setLaneClearTally 25,
      .setJob { job with thickness := 4 }, .setJob { job with thickness := 201 }, .setJob { job with packing := 999 },
      .setJob { job with packing := 1201 }, .setJob { job with rhoA := 949999 }, .setJob { job with rhoB := 1050001 },
      .setJob { job with shaftA := ⟨499, 750, 0, 0⟩ }, .setJob { job with shaftA := ⟨1000, 750, 0, 0⟩ },
      .setJob { job with shaftB := ⟨500, 1, 0, 0⟩ }, .setJob { job with shaftB := ⟨500, 0, 1000001, 0⟩ },
      .setJob { job with shaftB := ⟨500, 0, 0, 2⟩ }, .setPlanStep 3 1 stepFields, .setPlanStep 1 0 stepFields,
      .setPlanStep 1 9 stepFields, .setPlanStep 1 1 { stepFields with target := 999 },
      .setPlanStep 1 1 { stepFields with target := 4000000001 }, .setPlanStep 1 1 { stepFields with core := 24999 },
      .setPlanStep 1 1 { stepFields with core := 300001 }, .setPlanStep 1 1 { stepFields with limit := 76200 },
      .setPlanStep 1 1 { stepFields with limit := 1500001 }, .setPlanStep 1 1 { stepFields with table := 8 },
      .setPlanStep 1 1 { stepFields with taper := 801 }, .setPlanStep 1 1 { stepFields with span := 76200 },
      .clearPlan 0, .setGradeTable 8 defaultGradeTable, .startShaft 3, .stopShaft 0, .change 1 2, .change 3 0,
      .cancelChange 3, .unloaded 1 3, .unloaded 1 0, .addMark 1 0 0, .addMark 1 1 100001, .overrideGrade 1 4,
      .setSettingsNEnc 199, .setSettingsNEnc 200001, .setSettingsStopTimeout 49, .setSettingsStopTimeout 5001,
      .setSettingsSpliceDebounce 100001, .setSettingsDIk 100001, .setSettingsDSk 100001, .setSettingsDKw .a 100001,
      .setSettingsHoldQuantum 99, .setSettingsHoldQuantum 60001, .setSettingsSweepInterval 99,
      .setSettingsSweepInterval 100001, .setSettingsReelIdCounter 0, .setSettingsTravelWatermarks 1 256,
      .setSettingsTravelWatermarks 255 257, .setSettingsTravelWatermarks 64 64, .setSettingsMarkWatermarks 2048 2049,
      .setSettingsMarkWatermarks 128 128].all (fun i => (encodeRequest i).isSome && outOfRange i) = true :=
  ⟨⟨run_takes, rfl⟩, ⟨saving_takes, by decide +kernel, rfl⟩, by decide +kernel⟩

/-- The ends of the ranges themselves are in range. -/
theorem test_range_ends :
    [Instr.clearAlerts 0 0xFFFFF, .findReel 24 2 0, .listReels 4 95, .readMarks 1 7, .setLaneGeometry 24 39900 100,
      .setLaneGeometry 1 0 40000, .setJob { job with thickness := 5 }, .setJob { job with thickness := 200 },
      .setJob { job with packing := 1200 }, .setJob { job with rhoA := 950000 }, .setJob { job with rhoB := 1050000 },
      .setJob { job with shaftA := ⟨999, 900, 1000000, 1⟩ }, .setPlanStep 2 8 ⟨0, 1000, 25000, 25001, 7, 0, 800, 25001⟩,
      .setPlanStep 1 1 { stepFields with core := 300000, limit := 1500000, target := 4000000000 },
      .addMark 2 0xFFFFFF 100000, .overrideGrade 1 3, .setSettingsNEnc 200, .setSettingsNEnc 200000,
      .setSettingsStopTimeout 50, .setSettingsStopTimeout 5000, .setSettingsHoldQuantum 100,
      .setSettingsHoldQuantum 60000, .setSettingsSweepInterval 0, .setSettingsSweepInterval 100,
      .setSettingsSweepInterval 100000, .setSettingsTravelWatermarks 2 3, .setSettingsTravelWatermarks 255 256,
      .setSettingsMarkWatermarks 0 1, .setSettingsMarkWatermarks 2047 2048].all (fun i => outOfRange i) = false := by
  decide +kernel

/-! ## Hypotheses that can be met: arithmetic and shared parts -/

/-- The greatest readings, and the least. -/
theorem witness_DiameterIsExact :
    (let x : Readings := ⟨0, 1, 4294967295, 200, 1200, 300000⟩
     x.thickness ≤ 200 ∧ x.packing ≤ 1200 ∧ x.core ≤ 300000 ∧ x.footage ≤ maxPosition ∧ x.diameter = 1500000 ∧
        x.clamped = true) ∧
    (let x : Readings := ⟨0, 1, 0, 5, 1000, 25000⟩
     x.thickness ≤ 200 ∧ x.packing ≤ 1200 ∧ x.core ≤ 300000 ∧ x.footage ≤ maxPosition ∧ x.diameter = 25000) := by
  decide +kernel

/-- Tallies at the maxima of the A row, at those of the B row, and one above. -/
theorem witness_GradeFollowsTheTallies :
    gradeResult ⟨0, 0, 0, 0, 0, 0, 65535⟩ defaultGradeTable = .a ∧
    gradeResult ⟨5, 2, 0, 0, 3, 1, 0⟩ defaultGradeTable = .b ∧
    gradeResult ⟨5, 2, 0, 0, 3, 2, 0⟩ defaultGradeTable = .reject ∧ (run.reel 10).isSome = true := by decide +kernel

theorem witness_ReelSearchById :
    (run.reelById 300 = some 10 ∧ run.reelById 0 = none ∧ run.reelById 299 = none) ∧ IdLaw run ∧
      (∃ r, run.reel 10 = some r) ∧ run.takesRequests ∧ (7 : Byte).toNat ≤ 7 ∧ (3 : Byte).toNat ≤ 3 :=
  ⟨by decide +kernel, run_ids, ⟨_, run_reel 10⟩, run_takes, by decide⟩

/-- A landing with room, one on a chain of 64, one on an empty pool, and splices on a list with room and a full one. -/
theorem witness_LandingsCountEveryFinding :
    let m : Mark := ⟨.flag, 21005000, 0, 2500, true⟩
    let full := { reel 300 .doffed 2 .a .one 20000000 (some 21005001) with chain := List.replicate 64 m }
    let splice : Mark := ⟨.splice 81, 21005000, 0, 0, false⟩
    (run.freeMarks = 2048 ∧ run.reel 10 = some (reel 300 .winding 2 .a .one 20000000 none)) ∧
      (full.chain.length = 64 ∧ (run.setReel 10 (some full)).reel 10 = some full) ∧
      (run.setFreeMarks 0).freeMarks = 0 ∧ (splice.finding = .splice 81 ∧ ∀ parent, m.finding ≠ .splice parent) ∧
      (∃ r ∈ run.reel 10, r.parents.length < 4) ∧ ∃ r ∈ crowded.reel 84, 4 ≤ r.parents.length := by
  refine ⟨by decide +kernel, by decide +kernel, by decide +kernel, ⟨rfl, fun _ h => by cases h⟩, by decide +kernel⟩

/-! ## Hypotheses that can be met: resets, saves, inputs and timers -/

theorem witness_ClearingResetsStartAgain :
    (run.inReset = false ∧ run.store.preserve = false ∧ run.store.save = none) ∧
    (resetting.inReset = true ∧ resetting.store.reset = .clearing) ∧ run.takesRequests :=
  ⟨by decide +kernel, by decide +kernel, run_takes⟩

/-- The part in a preserving reset. -/
def inPreserving : State := after .warmReset preserving

theorem preserving_takes : preserving.takesRequests := by
  unfold State.takesRequests; decide +kernel

/-- An edge without and with a save in flight; an end with a closing computation abandoned, with a stale entry waiting
before one that is not, with stale entries alone, with a reel to visit and with none. -/
theorem witness_PreservingResetKeepsTracking :
    (preserving.inReset = false ∧ preserving.store.preserve = true ∧ preserving.store.save = none ∧
      preserving.takesRequests) ∧
    (let s := { preserving with store := { preserving.store with save := some [1, 2, 3] } }
     s.inReset = false ∧ s.store.preserve = true ∧ s.store.save = some [1, 2, 3] ∧ Memory.wf s.store.eeprom) ∧
    (inPreserving.store.reset = .preserving ∧ inPreserving.store.loading = false) ∧
    (let s := { inPreserving with engine := closing.engine }
     s.store.reset = .preserving ∧ s.store.loading = false ∧
      s.engine.activity = .closing ⟨6, 250, 6000000, 20, 1050, 76200⟩ ∧ (∀ e ∈ s.engine.closing, e.handle ≠ 6) ∧
      ∃ r, s.reel 6 = some r ∧ r.id = 250) ∧
    (let s := { inPreserving with engine := ⟨.idle, none, false, [⟨3, 5⟩, ⟨10, 299⟩, ⟨6, 250⟩]⟩ }
     s.store.reset = .preserving ∧ (∀ e ∈ [⟨3, 5⟩, ⟨10, 299⟩], ∀ r ∈ s.reel (ClosingEntry.handle e), r.id ≠ e.id) ∧
      ∃ r ∈ s.reel 6, r.id = 250) ∧
    (inPreserving.engine = .initial ∧ (∃ r, inPreserving.reel 10 = some r ∧ r.state = .winding) ∧
      ∀ g, g < 10 → ∀ q ∈ inPreserving.reel g, q.state ≠ .winding) ∧
    (let s := { inPreserving with table := .initial }
     s.store.reset = .preserving ∧ s.engine = .initial ∧ ∀ h, ∀ r ∈ s.reel h, r.state ≠ .winding) := by
  refine ⟨⟨rfl, rfl, rfl, preserving_takes⟩, ⟨rfl, rfl, rfl, by unfold Memory.wf; decide +kernel⟩, by decide +kernel,
    ⟨by decide +kernel, by decide +kernel, rfl, by decide +kernel,
      ⟨reel 250 .doffing 2 .a .two 18000000 (some 20000000), by decide +kernel, rfl⟩⟩, by decide +kernel,
    ⟨by decide +kernel, ⟨reel 300 .winding 2 .a .one 20000000 none, by decide +kernel, rfl⟩, by decide +kernel⟩,
    by decide +kernel⟩

/-- A load that accepts an image, and one that rejects a blank EEPROM. -/
theorem witness_SettingsLoadPutsTheImageInForce :
    (stored.store.loading = true ∧ stored.inReset = false ∧ stored.blank ∧
      (loadImage true stored.store.eeprom).isSome) ∧
    (State.reset.store.loading = true ∧ State.reset.inReset = false ∧ State.reset.blank ∧
      loadImage true State.reset.store.eeprom = none) := by
  have image : stored.store.eeprom = writeImage [] saved.image := by simp [stored]
  refine ⟨⟨by decide +kernel, by decide +kernel, ?_, by simp [image, test_loadImage_accepts]⟩,
    by decide +kernel, by decide +kernel, ?_, by decide +kernel⟩ <;> (unfold State.blank; decide +kernel)

theorem witness_SavesAndThePreserveFlag : (ready.takesRequests ∧ ready.store.save = none) ∧ saving.takesRequests ∧
    saving.store.save = some [1, 2, 3] :=
  ⟨⟨ready_takes, rfl⟩, saving_takes, rfl⟩

/-- A count in the middle of a run, and one at the limit with an increase due. -/
theorem witness_ForwardCountsAdvanceThePosition :
    (run.tracking = true ∧ PositionLaw run ∧ WatchLaw run ∧ LineLaw run ∧
      (true, false) = nextPair run.position.reference) ∧
    (let s := counting 5000 4294967295 4000
     s.tracking = true ∧ PositionLaw s ∧ WatchLaw s ∧ LineLaw s ∧ (true, false) = nextPair s.position.reference ∧
      ¬ s.position.p + (s.position.r + 1000) / s.settings.nEnc ≤ maxPosition) := by
  refine ⟨⟨rfl, run_position, run_watch, run_lines.2, rfl⟩, rfl, ?_, ?_, ?_, by decide +kernel, by decide +kernel⟩
  · unfold PositionLaw; decide +kernel
  · intro w
    rcases w with _ | sh | ⟨sh, k⟩ | _ <;> (try cases sh) <;> (try cases k) <;> decide +kernel
  · unfold LineLaw; decide +kernel

/-- A reverse count, a change of both lines, no change at all, and a change while the unit takes no inputs. -/
theorem witness_ReverseCountsTakeThePositionBack :
    (run.tracking = true ∧ PositionLaw run ∧ run.position.reference = nextPair (false, true)) ∧
    ((true, true) ≠ nextPair run.position.reference ∧ run.position.reference ≠ nextPair (true, true)) ∧
    ((false, false) ≠ nextPair run.position.reference ∧ run.position.reference ≠ nextPair (false, false)) ∧
    State.reset.tracking = false :=
  ⟨⟨rfl, run_position, by decide +kernel⟩, by decide +kernel⟩

theorem witness_TimersExpire :
    (run.position.stopTimer = some 300 ∧ run.now < 300 ∧ 300 ≤ ({ run with now := 300 } : State).now) ∧
    ready.position.stopTimer = none ∧
    (released.hold.override = some 2500 ∧ released.inReset = false ∧ released.now < 2500 ∧
      2500 ≤ ({ released with now := 2500 } : State).now) ∧ ready.hold.override = none ∧
    (receiving.link.gap = some 2 ∧ receiving.link.phase = .receiving ∧ receiving.inReset = false ∧ receiving.now < 2 ∧
      2 ≤ ({ receiving with now := 2 } : State).now) ∧ ready.link.gap = none := by decide +kernel

/-- UNTRACKED stands for lane 1 alone, and the override runs; disabling the lane ends the demand of the SLOW hold (8.3). -/
def overridden : State :=
  { run.setLane 0 { run.lane 0 with enabled := true, untracked := true } with
    hold := { run.hold with
      causes := { Causes.empty with untracked := true }
      slow := some 2000
      slowEntries := 1
      slowLine := true
      override := some 2500 } }

/-- A demanded and an undemanded hold of each kind at its expiry and before it, an override that takes the SLOW hold
along, and no hold. A hold that becomes active is that of `test_cutTaken_runout`; here a cause ends while the override
runs. -/
theorem witness_HoldsFallOrAreRenewed :
    (holding.now < 2100 ∧ 2100 ≤ ({ holding with now := 2900 } : State).now ∧
      2900 ≤ ({ holding with now := 2900 } : State).now) ∧
    (holding.inReset = false ∧ holding.hold.slow = some 2100 ∧ (holding.hold.causes.any ∨ holding.hold.stop.isSome)) ∧
    (holding.hold.stop = some 2900 ∧ holding.hold.causes.anyStop = false) ∧
    (released.hold.slow = some 2000 ∧ ¬ (released.hold.causes.any ∨ released.hold.stop.isSome)) ∧
    ({ Causes.empty with positionLimit := true }).anyStop = true ∧
    (let h := { released.hold with stop := some 2500, stopLine := true }
     h.slow.isSome ∧ h.causes.any = false ∧ h.override.isSome ∧ h.stop = some 2500) ∧
    (ready.hold.slow = none ∧ ready.hold.stop = none ∧ ready.inReset = false ∧ ready.store.loading = false ∧
      ready.port.buffer ≠ .working) ∧
    (LineLaw run ∧ OverrideLaw run ∧ BlankLaw run ∧ run.inReset = false ∧ (after (.cutPulse .a) run).inReset = false) ∧
    (LineLaw overridden ∧ OverrideLaw overridden ∧ BlankLaw overridden ∧ overridden.inReset = false) ∧
    (let t := after (.setLaneDisable 1) overridden
     t.inReset = false ∧ t.hold.slow = none ∧ t.hold.causes = .empty ∧ t.hold.override = some 2500 ∧ t.holdChanged) := by
  have idle : overridden.store.reset = .none := by decide +kernel
  have loaded : overridden.store.loading = false := by decide +kernel
  refine ⟨by decide +kernel, by decide +kernel, by decide +kernel, by decide +kernel, by decide +kernel,
    by decide +kernel, by decide +kernel, ⟨run_lines.2, run_causes.2, run_blank, by decide +kernel, by decide +kernel⟩,
    ⟨?_, fun _ _ _ => Or.inr (Or.inr (Or.inl (by decide +kernel))), ?_, by decide +kernel⟩, ?_⟩
  · unfold LineLaw; decide +kernel
  · simp [BlankLaw, idle, loaded]
  · unfold State.holdChanged; decide +kernel

/-- P just below the debounce distance and at it, the greatest position in reach and one beyond it, one free slot and
two, and a distance D_sk of 0 with every entry ahead of P. -/
theorem witness_SplicesEnterTheApproachStage :
    let accepted (s : State) := ∀ x ∈ s.position.spliceStamp, min (x.position + x.debounce) maxPosition ≤ s.position.p
    let reach (s : State) := s.position.p + s.settings.dSk + max s.settings.dKw.a s.settings.dKw.b
    let at_ (p : Nat) := { run with position := { run.position with p := p } }
    let zero := { run with store := { run.store with settings := { run.settings with dSk := 0 } } }
    State.reset.tracking = false ∧ ¬ accepted (at_ 21005499) ∧ (run.tracking = true ∧ accepted (at_ 21005500)) ∧
    (accepted (at_ 4294961196) ∧ maxPosition < reach (at_ 4294961196)) ∧ reach (at_ 4294961195) ≤ maxPosition ∧
    (accepted run ∧ reach run ≤ maxPosition ∧ 2 ≤ run.travel.free ∧ 0 < run.settings.dSk ∧ run.travel.staged = none) ∧
    ({ run.travel with free := 1 }).free < 2 ∧
    (accepted zero ∧ zero.tracking = true ∧ zero.settings.dSk = 0 ∧ (∀ e ∈ zero.travel.approach, 21006000 < e.knife) ∧
      ∀ sh, 0 < zero.settings.dKw.get sh ∧ ∀ e ∈ zero.travel.nip.get sh, 21006000 < e.arrival) := by
  refine ⟨by decide +kernel, by decide +kernel, by decide +kernel, by decide +kernel, by decide +kernel,
    by decide +kernel, by decide +kernel, by decide +kernel, rfl, rfl, by decide +kernel, fun sh => ?_⟩
  cases sh <;> decide +kernel

/-! ## Hypotheses that can be met: cuts -/

/-- Shaft A IDLE with a cut stamped, and an operator mark of a shaft held. -/
def idleCut (sh : Shaft) : State :=
  { resting with
    position := { resting.position with latch := ⟨some 0, none⟩ }
    port := { resting.port with
      buffer := .working, inWork := encodeRequest (.addMark 1 4 0), held := some ⟨sh, 0, [⟨2, 0, 2500⟩]⟩ } }

/-- A shaft's nip stage with one entry of lane 3. -/
def atNip (s : State) (x : Nat) : State :=
  { s with travel := { s.travel with nip := ⟨[⟨.defect 1, x, [⟨2, 0, 20⟩], false⟩], []⟩ } }

/-- Both states of the latch; an IDLE shaft with and without a held operator mark, and with an entry at P and one beyond P
at its nip. -/
theorem witness_CutPulsesAreStampedOnce :
    (run.tracking = true ∧ run.position.latch.get .a = none) ∧
    (cutting.tracking = true ∧ (cutting.position.latch.get .a).isSome) ∧ resetting.tracking = false ∧
    (((idleCut .a).position.latch.get .a).isSome ∧ ((idleCut .a).shaft .a).phase = .idle) ∧
    (∃ m, (idleCut .a).port.held = some m ∧ m.shaft = .a ∧ (m.lanes.map LaneHit.lane).Nodup ∧
      ∀ e ∈ (idleCut .a).travel.nip.get m.shaft, e.finding ≠ .flag) ∧
    (∀ m ∈ (idleCut .b).port.held, m.shaft ≠ .a) ∧
    (let p := (idleCut .b).position.p
     (after (.cutTaken .a) (atNip (idleCut .b) p)).travel.nip.a = [] ∧
      (after (.cutTaken .a) (atNip (idleCut .b) p)).coveringReel 2 .a p = none ∧
      (after (.cutTaken .a) (atNip (idleCut .b) (p + 1))).watch (.nip .a) = some (p + 1)) := by
  refine ⟨by decide +kernel, by decide +kernel, by decide +kernel, by decide +kernel, ⟨_, rfl, ?_⟩, by decide +kernel,
    by decide +kernel⟩
  decide +kernel

/-- A cut beyond the start of the WINDING reel, one below it, and an ENDED reel; thresholds that the cut catches up; a
short set; the rear spindle FULL with a DOFFING reel; an operator mark of the shaft held; an entry at the nip on the closed
reel and one on the new; no record to close, an engine at work, and an idle one with a stale entry waiting. -/
theorem witness_CutsCloseTheSet :
    let stamped (c : Nat) := { cutting with
      position := { cutting.position with latch := ⟨some c, none⟩ }
      shafts := { cutting.shafts with a := { cutting.shafts.a with
        reason := .none, short := true, spindle2 := .full } }
      table := run.table
      port := (idleCut .a).port }
    let caught (s : State) (c : Nat) (k : Threshold) := (s.shaft .a).thresholds.any fun th =>
      !(th.get k).fired && decide ((th.get k).position ≤ c)
    (cutting.position.latch.get .a = some 22000500 ∧ (cutting.shaft .a).phase ≠ .idle) ∧
    (∃ r ∈ cutting.reel 10, r.shaft = .a ∧ r.state = .winding ∧ r.start ≤ 22000500) ∧
    ((stamped 19999999).position.latch.get .a = some 19999999 ∧
      ∃ r ∈ (stamped 19999999).reel 10, r.state = .winding ∧ 19999999 < r.start) ∧
    (∃ r ∈ (after (.setLaneDisable 3) cutting).reel 10, r.shaft = .a ∧ r.state = .ended) ∧
    (∃ r ∈ cutting.reel 11, r.shaft ≠ .a) ∧
    (caught (stamped 22050000) 22050000 .approach = true ∧ caught (stamped 22050000) 22050000 .due = true ∧
      caught (stamped 22050000) 22050000 .overrun = true ∧ caught (stamped 22049999) 22049999 .overrun = false) ∧
    (((stamped 22050000).shaft .a).reason ≠ .length ∧ ((stamped 22050000).shaft .a).short = true ∧
      ((stamped 22050000).shaft .a).spindle ((stamped 22050000).shaft .a).active.other = .full ∧
      ∃ r ∈ (stamped 22050000).reel 6, r.shaft = .a ∧ r.state = .doffing ∧ r.spindle = .two) ∧
    (∃ m, (stamped 22050000).port.held = some m ∧ m.shaft = .a ∧ (m.lanes.map LaneHit.lane).Nodup ∧
      ∀ e ∈ (stamped 22050000).travel.nip.get m.shaft, e.finding ≠ .flag) ∧
    (∀ m ∈ cutting.port.held, m.shaft ≠ .a) ∧
    ((after (.cutTaken .a) (atNip cutting 22000499)).coveringReel 2 .a 22000499 = some 10 ∧
      (after (.cutTaken .a) (atNip cutting 22000500)).coveringReel 2 .a 22000500 = some 0 ∧
      (atNip cutting 22000500).position.p = 22000500) ∧
    (({ cutting with table := .initial }).woundEntries .a = [] ∧ cutting.woundEntries .a = [⟨10, 300⟩] ∧
      closing.engine.activity ≠ .idle ∧ cutting.engine.activity = .idle ∧ cutting.inReset = false ∧
      cutting.reel 3 = none ∧ ∃ r ∈ cutting.reel 10, r.id = 300) := by
  refine ⟨by decide +kernel, by decide +kernel, by decide +kernel, by decide +kernel, by decide +kernel,
    by decide +kernel, by decide +kernel, ⟨_, rfl, ?_⟩, by decide +kernel, by decide +kernel, by decide +kernel⟩
  decide +kernel

/-- FOREVER; a counter of 2; a counter of 1 with and without a later step; RUNOUT; a cut in WINDING; and a threshold that
stands at P. -/
theorem witness_CutsCountThePlan :
    let planned (plan : List PlanStep) (counter : Word16) : State :=
      { cutting with shafts := { cutting.shafts with a := { cutting.shafts.a with plan := plan, counter := counter } } }
    let once := { step1 with count := 1 }
    (cutting.position.latch.get .a = some 22000500 ∧ (cutting.shaft .a).phase ≠ .idle ∧
      (cutting.shaft .a).currentStep = some step1 ∧ step1.count = 0) ∧
    ((cutting.shaft .a).cutReq = true ∧ (cutting.shaft .a).phase = .changePending ∧
      (cutting.shaft .b).cutReq = decide ((cutting.shaft .b).phase = .changePending)) ∧
    (1 < ((planned [{ step1 with count := 2 }] 2).shaft .a).counter.toNat) ∧
    (((planned [once, step1] 1).shaft .a).currentStep = some once ∧ once.count ≠ 0 ∧
      ((planned [once, step1] 1).shaft .a).counter.toNat ≤ 1 ∧
      ((planned [once, step1] 1).shaft .a).plan[((planned [once, step1] 1).shaft .a).step]? = some step1) ∧
    (((planned [once] 1).shaft .a).currentStep = some once ∧
      ((planned [once] 1).shaft .a).plan[((planned [once] 1).shaft .a).step]? = none) ∧
    (let s := after (.cutTaken .a) (planned [once] 1)
     (s.shaft .a).phase = .runout ∧ (s.shaft .a).currentStep = some once) ∧ (run.shaft .a).phase = .winding ∧
    (let th := thresholdsOf 22000500 2000000 1000000 { ShaftJob.default with window := 0 }
     th.window.position = cutting.position.p ∧ cutting.position.p < th.approach.position) := by
  decide +kernel

theorem cutting_lines : CutRequestLaw cutting := by
  intro sh; cases sh <;> decide +kernel

theorem cutting_records : RecordLaw cutting := by
  unfold RecordLaw; decide +kernel

/-- A reservation that suffices, and one that does not; a splice before C that still waits at the nip
(notes/assumptions/41.md). -/
theorem witness_CutsOpenTheNextSet : RecordLaw cutting ∧ (cutting.position.latch.get .a = some 22000500 ∧
    (cutting.shaft .a).phase ≠ .idle ∧ (cutting.shaft .a).currentStep = some step1 ∧
    cutting.enabledLanes .a = [2] ∧ (cutting.enabledLanes .a).length ≤ cutting.table.free - 1 + 1) ∧
    (let t := after (.cutTaken .a) { cutting with table := { cutting.table with reserved := ⟨0, 93⟩ } }
     (t.lane 2).untracked = true ∧ (t.lane 2).current = none) ∧
    (let s := { cutting with travel := { cutting.travel with nip := ⟨[⟨.splice 82, 22000499, [⟨2, 0, 0⟩], false⟩], []⟩ } }
     let t := after (.cutTaken .a) s
     s.travel.current.get .a = 81 ∧ t.travel.current.get .a = 82 ∧ (t.reel 0).map Reel.parents = some [⟨81, 0⟩] ∧
      (t.reel 10).map Reel.parents = some [⟨80, 0⟩, ⟨82, 2000499⟩]) :=
  ⟨cutting_records, by decide +kernel, by decide +kernel, by decide +kernel⟩

/-! ## Hypotheses that can be met: findings, thresholds and sweeps -/

/-- A splice, a report on lane 3 and one on the trim at their knife positions, with the nips ahead. -/
theorem witness_KnifePassesTakeWhatTheWebHasReached :
    let s := { arriving run .knife 21008500 with travel := { run.travel with
      free := 250
      nip := ⟨[], []⟩
      approach := [⟨.splice 82, 21008000, 21006000⟩, ⟨.report (.defect 0) 11000 20, 21008500, 21000000⟩,
        ⟨.report (.register 5) 0 20, 21008500, 21000000⟩, ⟨.splice 83, 21008501, 21006501⟩] } }
    run.position.arrivals.find? (fun a => decide (a.watch = .knife)) = none ∧
    s.position.arrivals.find? (fun a => decide (a.watch = .knife)) ≠ none ∧
    (s.travel.approach.takeWhile fun e => decide (e.knife ≤ s.position.p)) = s.travel.approach.take 3 ∧
    s.isTrim 0 (cutEnd s.settings.webWidth 0 20) = true ∧ s.travel.nip = ⟨[], []⟩ ∧
    (∀ e ∈ s.travel.approach.take 3, s.position.p < e.knife + s.settings.dKw.get .a ∧
      s.position.p < e.knife + s.settings.dKw.get .b) := by decide +kernel

/-- A splice released onto its reel, a report whose lane has no reel, and an entry that the latch holds. -/
theorem witness_ReleasePassesTakeWhatTheNipHasReached :
    let s := arriving run (.nip .a) 21009200
    let bare := { s with travel := { s.travel with nip := ⟨[⟨.defect 1, 21009200, [⟨0, 0, 20⟩], true⟩], []⟩ } }
    let latched := { s with position := { s.position with latch := ⟨some 21009200, none⟩ } }
    run.position.arrivals.find? (fun a => decide (a.watch = .nip .a)) = none ∧
    s.position.arrivals.find? (fun a => decide (a.watch = .nip .a)) ≠ none ∧
    (s.travel.nip.get .a = [⟨.splice 81, 21009200, [⟨2, 0, 2500⟩], false⟩] ∧ 21009200 ≤ s.position.p ∧
      s.held .a 21009200 = false ∧ s.coveringReel 2 .a 21009200 = some 10) ∧
    (bare.travel.nip.get .a = [⟨.defect 1, 21009200, [⟨0, 0, 20⟩], true⟩] ∧ bare.held .a 21009200 = false ∧
      bare.coveringReel 0 .a 21009200 = none) ∧
    latched.held .a 21009200 = true := by decide +kernel

/-- Each of the four thresholds standing with the earlier ones fired, each ground for a discard, each outcome of an
attempt, and an earlier threshold that has not fired. -/
theorem witness_ThresholdsFireOnce :
    let fired (ks : List Threshold) (k : Threshold) (x : Nat) : State :=
      arriving { run with shafts := { run.shafts with a := ks.foldl ShaftRec.markFired run.shafts.a } }
        (.threshold .a k) x
    let stands (s : State) (k : Threshold) (x : Nat) := s.arrivalStands .a k x = true ∧
      s.position.arrivals.find? (fun b => decide (b.watch = .threshold .a k)) = some ⟨.threshold .a k, x, x⟩ ∧
      ∀ th ∈ (s.shaft .a).thresholds, ∀ j ∈ earlierThresholds k, (th.get j).fired = true
    stands (fired [] .approach 21900000) .approach 21900000 ∧
    stands (fired [.approach] .window 21500000) .window 21500000 ∧
    (stands (fired [.approach, .window] .due 22000000) .due 22000000 ∧ (run.settings.job.get .a).auto = false) ∧
    stands (fired [.approach, .window, .due] .overrun 22050000) .overrun 22050000 ∧
    (fired [.window] .window 21500000).arrivalStands .a .window 21500000 = false ∧
    (fired [] .window 21500001).arrivalStands .a .window 21500001 = false ∧
    (let s := fired [] .overrun 22050000
     let latched := { s with position := { s.position with latch := ⟨some 22049999, none⟩ } }
     latched.arrivalStands .a .overrun 22050000 = false) ∧
    (ready.shaft .a).thresholds = none ∧
    (let s := arriving nearDue (.threshold .a .due) 22000000
     let empty := { s with shafts := { s.shafts with a := { s.shafts.a with spindle2 := .empty } } }
     let scarce := { empty with table := { empty.table with reserved := ⟨0, 93⟩ } }
     stands s .due 22000000 ∧ ((s.shaft .a).phase = .winding ∧ (s.settings.job.get .a).auto = true) ∧
      (s.shaft .a).spindle (s.shaft .a).active.other ≠ .empty ∧
      ((empty.shaft .a).spindle (empty.shaft .a).active.other = .empty ∧ (empty.enabledLanes .a).length ≤ 93 - (0 + 0)) ∧
      93 - (0 + scarce.table.reserved.b) < (scarce.enabledLanes .a).length) ∧
    (let th := thresholdsOf 20000000 2000000 1000000 .default
     (fired [] .due 22000000).arrivalStands .a .due 22000000 = true ∧ Threshold.approach ∈ earlierThresholds .due ∧
      (th.get .approach).fired = false ∧ (th.get .approach).position ≤ 22000000) := by
  decide +kernel

/-- A retry that is taken, with the other spindle FULL or EMPTY and the records there or not, one that is cleared, and
none waiting. -/
theorem witness_AutomaticRetriesTestSpindleAndRecords :
    let full := { waiting with shafts := { waiting.shafts with a := { waiting.shafts.a with spindle2 := .full } } }
    let scarce := { waiting with table := { waiting.table with reserved := ⟨0, 93⟩ } }
    let off := { waiting with store := { waiting.store with
      settings := { waiting.settings with job := ⟨.default, .default⟩ } } }
    (run.shaft .a).retriesDue = 0 ∧
    ((waiting.shaft .a).retriesDue = 0 + 1 ∧ (waiting.shaft .a).retry = true ∧ (waiting.shaft .a).phase = .winding ∧
      (waiting.shaft .a).reason ≠ .none ∧ (waiting.settings.job.get .a).auto = true ∧
      (waiting.shaft .a).spindle (waiting.shaft .a).active.other = .empty ∧ (waiting.enabledLanes .a).length ≤ 93) ∧
    (full.shaft .a).spindle (full.shaft .a).active.other ≠ .empty ∧
    scarce.table.free - (scarce.table.reserved.a + scarce.table.reserved.b) < (scarce.enabledLanes .a).length ∧
    (off.settings.job.get .a).auto = false ∧
    (let none_ := { waiting.shafts.a with retry := false }
     none_.retry = false ∧ none_.retriesDue = 0 + 1) := by decide +kernel

/-- The engine idle, busy, owing a sweep and in a reset; an arrival of the sweep watch in an idle engine and in a busy
one; the interval 0, a watch beyond the limit, one ahead of P and one that P has passed. -/
theorem witness_TriggersOweOneSweep :
    (run.engine = .initial ∧ run.reel 10 = some (reel 300 .winding 2 .a .one 20000000 none) ∧
      ∀ g, g < 10 → ∀ q ∈ run.reel g, q.state ≠ .winding) ∧
    (doffed.engine = .initial ∧ ready.engine = .initial ∧ ∀ h, ∀ r ∈ ready.reel h, r.state ≠ .winding) ∧
    (visiting.engine.owed = false ∧ visiting.engine.activity ≠ .idle) ∧ resetting.inReset = true ∧
    run.position.arrivals.find? (fun a => decide (a.watch = .sweep)) = none ∧
    ((arriving run .sweep 21010000).engine = .initial ∧ (arriving run .sweep 21010000).inReset = false ∧
      (arriving run .sweep 21010000).position.arrivals = [⟨.sweep, 21010000, 21010000⟩] ∧
      (arriving ready .sweep 5000).engine = .initial ∧ (arriving ready .sweep 5000).inReset = false) ∧
    (let s := arriving visiting .sweep 21010000
     s.position.arrivals.find? (fun b => decide (b.watch = .sweep)) = some ⟨.sweep, 21010000, 21010000⟩ ∧
      s.inReset = false ∧ s.engine.activity ≠ .idle ∧ s.settings.sweepInterval ≠ 0 ∧
      s.position.p < 21010000 + s.settings.sweepInterval ∧
      ¬ ({ s.position with p := 21015000 }).p < 21010000 + s.settings.sweepInterval ∧
      maxPosition < 4294962296 + s.settings.sweepInterval) := by decide +kernel

theorem visiting_takes : visiting.takesRequests := by
  unfold State.takesRequests; decide +kernel

theorem witness_ComputationsWriteOnlyTheirReel :
    (visiting.inReset = false ∧ visiting.engine.activity = .visiting ⟨10, 300, 6000000, 20, 1050, 76200⟩ ∧
      ∃ r ∈ visiting.reel 10, r.id = 300 ∧ r.state = .winding) ∧
    (closing.inReset = false ∧ closing.engine.activity = .closing ⟨6, 250, 6000000, 20, 1050, 76200⟩ ∧
      ∃ r ∈ closing.reel 6, r.id = 250 ∧ r.state ≠ .winding) ∧ ready.engine.activity = .idle := by decide +kernel

/-- What the engine takes up next: a closing entry behind a stale one, a visit of the sweep, an owed sweep, nothing. -/
theorem witness_next_work :
    let at_ (sweep : Option Nat) (owed : Bool) (list : List ClosingEntry) : State :=
      { visiting with engine := ⟨visiting.engine.activity, sweep, owed, list⟩ }
    ((at_ none false [⟨3, 99⟩, ⟨6, 250⟩, ⟨10, 300⟩]).engine.closing = [⟨3, 99⟩] ++ ⟨6, 250⟩ :: [⟨10, 300⟩] ∧
      (∀ o ∈ [(⟨3, 99⟩ : ClosingEntry)], ∀ r ∈ visiting.reel o.handle, r.id ≠ o.id) ∧
      ∃ r, visiting.reel 6 = some r ∧ r.id = 250) ∧
    (visiting.engine.closing = [] ∧ visiting.engine.sweep = some 11 ∧
      (∃ r, visiting.reel 11 = some r ∧ r.state = .winding) ∧
      ∀ g : Handle, 11 ≤ g.val → g < 11 → ∀ q ∈ visiting.reel g, q.state ≠ .winding) ∧
    ((at_ none true []).engine.owed = true ∧ (∃ r, visiting.reel 10 = some r ∧ r.state = .winding) ∧
      ∀ g : Handle, 0 ≤ g.val → g < 10 → ∀ q ∈ visiting.reel g, q.state ≠ .winding) ∧
    ((at_ none false []).engine.sweep = none ∧ (at_ none false []).engine.owed = false) :=
  ⟨⟨rfl, by decide +kernel, _, run_reel 6, rfl⟩, ⟨rfl, rfl, ⟨_, run_reel 11, rfl⟩, by decide +kernel⟩,
    ⟨rfl, ⟨_, run_reel 10, rfl⟩, by decide +kernel⟩, rfl, rfl⟩

/-- A sweep that ends: shaft A gains DIA_LIMIT at its limit and shaft B does not; a reference lane, none, and a shaft
without a WINDING reel. -/
theorem witness_sweep_end :
    let last := { visiting with engine := { visiting.engine with sweep := some 12 } }
    let atLimit := { reel 300 .winding 2 .a .one 20000000 none with limit := 407718 }
    let limit := last.setReel 10 (some atLimit)
    let plain := last.setLane 2 { last.lane 2 with reference := false }
    let bare := { last with table := .initial }
    (last.engine.sweep = some 12 ∧ last.engine.owed = false ∧
      ∀ g : Handle, 12 ≤ g.val → ∀ q ∈ last.reel g, q.state ≠ .winding) ∧
    (407718 ≤ Readings.diameter ⟨10, 300, 6000000, 20, 1050, 76200⟩ ∧
      limit.reel 10 = some atLimit ∧ atLimit.id = 300 ∧ atLimit.flags.diaLimit = false) ∧
    ((limit.shaft .a).reason = .none ∧ (limit.shaft .a).currentStep = some step1 ∧ (limit.shaft .a).phase ≠ .idle ∧
      (ready.shaft .a).phase = .idle) ∧
    ((last.lane 2).shaft = .a ∧ (last.lane 2).reference = true ∧ (last.lane 2).current = some 10 ∧
      ∀ m, (last.lane m).shaft = .a → (last.lane m).reference = true → m = 2) ∧
    (∀ n, (plain.lane n).shaft = .a → (plain.lane n).reference = false) ∧
    (∀ h, ∀ r ∈ bare.reel h, r.state ≠ .winding) ∧
    (let s := { last with engine := { last.engine with owed := true } }
     s.engine.owed = true ∧ s.reel 10 = some (reel 300 .winding 2 .a .one 20000000 none) ∧
      (∀ g, g < 10 → ∀ q ∈ s.reel g, q.state ≠ .winding)) ∧
    (let s := { closing with engine := { closing.engine with owed := true }, table := .initial }
     s.engine.sweep = none ∧ s.engine.owed = true ∧ ∀ h, ∀ r ∈ s.reel h, r.state ≠ .winding) := by decide +kernel

/-! ## Hypotheses that can be met: the two ports and the queries -/

/-- A reset; the start byte, another character and a framing error in HUNT; an eleventh and a twelfth byte. -/
theorem witness_CharactersBuildAFrame : resetting.inReset = true ∧
    (ready.inReset = false ∧ ready.link.phase = .hunt) ∧
    (let s := { receiving with link := { receiving.link with bytes := report1 } }
     s.inReset = false ∧ s.link.phase = .receiving ∧ s.link.bytes.length = 11 ∧ s.link.bytes.length < 12) ∧
    (receiving.inReset = false ∧ receiving.link.phase = .receiving) := by decide +kernel

/-- A frame whose twelfth byte is collected, with a length, a body and its CRC. -/
def framing (body : List Byte) : State :=
  { receiving with link := { receiving.link with bytes := body ++ [byteOf ((crc16 body).toNat / 256)] } }

/-- The tests of a frame on its thirteenth byte, as the statement writes them. -/
def framedBy (s : State) (char : Byte) : Bool :=
  let bytes := s.link.bytes ++ [char]
  decide (byteAt bytes 0 = 10) && decide ((crc16 (bytes.take 11)).toNat = fieldAt bytes 11 2)
    && (decide (byteAt bytes 1 = 1) || decide (byteAt bytes 1 = 2))

/-- A frame in range and one with a wrong CRC, a wrong length or a wrong kind; x at the web width and just below it,
classes 0 and 4, a lag beyond P; one free slot; a lag that puts the knife position at P, and one that puts the nip of
shaft A there. -/
theorem witness_ReportsAreTestedInOrder :
    let last (body : List Byte) := byteOf (crc16 body).toNat
    let wide := [10, 2, 0, 0, 0x9C, 0x40, 0, 20, 0, 0, 0]
    let edge := [10, 2, 0xFF, 0xFF, 0x9C, 0x3F, 0, 20, 0, 0, 0]
    let class0 := [10, 1, 0, 0, 0, 0, 0, 20, 0, 0, 0]
    let long := [11, 1, 0, 0, 0, 0, 0, 20, 1, 0, 0]
    let kind3 := [10, 3, 0, 0, 0, 0, 0, 20, 1, 0, 0]
    (receiving.inReset = false ∧ receiving.link.phase = .receiving ∧ receiving.link.bytes.length = 12) ∧
    framedBy receiving (last report1) = true ∧ framedBy receiving (last report1 + 1) = false ∧
    framedBy (framing long) (last long) = false ∧ framedBy (framing kind3) (last kind3) = false ∧
    (framedBy (framing wide) (last wide) = true ∧ ¬ fieldAt (framing wide).link.bytes 4 2 < run.settings.webWidth) ∧
    (framedBy (framing edge) (last edge) = true ∧ fieldAt (framing edge).link.bytes 4 2 < run.settings.webWidth) ∧
    framedBy (framing class0) (last class0) = true ∧
    (receiving.position.p < receiving.position.p - 0 + receiving.settings.dIk ∧ 2 ≤ receiving.travel.free ∧
      receiving.position.p - 0 + receiving.settings.dIk + 4100 ≤ maxPosition) ∧
    (let body (lag : List Byte) := [10, 1] ++ lag ++ [0x2A, 0xF8, 0, 20, 1, 0, 0]
     let hi := cutEnd receiving.settings.webWidth 11000 20
     framedBy (framing (body [0x21, 0x34])) (last (body [0x21, 0x34])) = true ∧
      receiving.position.p - 0x2134 + receiving.settings.dIk ≤ receiving.position.p ∧
      receiving.travel.approach = [] ∧ receiving.travel.nip = ⟨[], []⟩ ∧
      receiving.laneSet .a 11000 hi = [⟨2, 1000, 20⟩] ∧ receiving.laneSet .b 11000 hi = [] ∧
      framedBy (framing (body [0x2D, 0xB4])) (last (body [0x2D, 0xB4])) = true ∧
      receiving.position.p - 0x2DB4 + receiving.settings.dIk + receiving.settings.dKw.get .a = receiving.position.p ∧
      receiving.held .a receiving.position.p = false ∧ receiving.coveringReel 2 .a receiving.position.p = some 10 ∧
      receiving.coveringReel 2 .b receiving.position.p = none) ∧
    (let s := { State.reset with link := receiving.link }
     s.inReset = false ∧ s.store.loading = true ∧ framedBy s (last report1) = true) ∧
    ({ receiving.travel with free := 1 }).free < 2 := by decide +kernel

/-- A buffer of every kind, a frame of every kind, and an answer transaction cut short and clocked out whole. -/
theorem witness_TransactionsAreTakenAsTheBufferStands :
    let answered := after .preserve ready
    let asked := after .answerStart answered
    let spells := requestFrame ⟨0x40, [13, 0, 0, 0, 0, 0, 0, 0, 0]⟩
    resetting.inReset = true ∧ (State.reset.inReset = false ∧ State.reset.store.loading = true) ∧
    (working.inReset = false ∧ working.store.loading = false ∧ working.port.buffer = .working ∧
      working.port.notice = none ∧ working.port.inWork = some ⟨0x38, []⟩) ∧
    (after .preserve working).port.notice = some 0x42 ∧ frameValid [] = false ∧
    (frameValid spells = true ∧ decodeRequest ⟨frameCode spells, framePayload spells⟩ = none ∧
      frameCode spells = 0x40 ∧ saving.store.save.isSome) ∧
    (ready.port.notice = none ∧ ready.port.buffer = .empty) ∧
    (answered.port.notice = none ∧ answered.port.buffer = .ready ⟨.ok, 0x42, [], false⟩) ∧
    ready.port.transaction = .none ∧ 5 < (answerFrame .ok 0 0x42 []).length ∧
    asked.port.transaction = .answer .answer (answerFrame .ok 0 0x42 []) ∧
      (answerFrame .ok 0 0x42 []).length = 6 := by decide +kernel

/-- The tag at an alert's raise tag, one before it and half the range away; the greatest set of alerts. -/
theorem witness_AlertRequestsAct : alerted.inReset = false ∧ alerted.store.loading = false ∧
    alerted.port.buffer ≠ .working ∧ (0xFFFFF : BitVec 24).toNat < 2 ^ 20 ∧
    newerTag (alerted.digest.alerts[(0 : Fin 20)]).tag 43 = false ∧
    newerTag (alerted.digest.alerts[(0 : Fin 20)]).tag 42 = true ∧
    newerTag (alerted.digest.alerts[(0 : Fin 20)]).tag 32812 = true ∧
    newerTag (alerted.digest.alerts[(0 : Fin 20)]).tag 32811 = false := by decide +kernel

theorem witness_QueriesOnlyAnswer : run.takesRequests ∧ (24 : Byte).toNat = (23 : Lane).val + 1 ∧
    (run.coveringReel 2 .a 20000000 = some 10 ∧ run.coveringReel 2 .a 19999999 = some 6 ∧
      run.coveringReel 2 .a 17999999 = none) ∧
    (run.reelById 300 = some 10 ∧ ∃ r ∈ run.reel 10, r.state = .winding) ∧
    (run.reelById 250 = some 6 ∧ ∃ r ∈ run.reel 6, r.state ≠ .winding) ∧ TrackingLaw run ∧
    (let r := { reel 300 .winding 2 .a .one 20000000 none with rho := 1050000 }
     let long := { r with start := 0 }
     r.footageOf 20000001 = 1 ∧ r.footageOf 19999999 = 0 ∧ long.footageOf 4294967295 = 4294967295 ∧
      4294967295 < (4294967295 * 1050000 + 500000) / 1000000) :=
  ⟨run_takes, by decide +kernel, by decide +kernel, by decide +kernel, by decide +kernel, run_tracking, by decide +kernel⟩

/-! ## Hypotheses that can be met: lanes, jobs and shafts -/

theorem resting_takes : resting.takesRequests := by
  unfold State.takesRequests; decide +kernel

/-- Each answer of a geometry edit at the edge of its test, and each other edit taken and refused. -/
theorem witness_LaneEditsFollowTheirRules :
    let moved : State := after (.setLaneGeometry 1 0 10000) resting
    (resting.takesRequests ∧ run.takesRequests ∧ (3 : Byte).toNat = (2 : Lane).val + 1) ∧
    ((39900 + 100 ≤ resting.settings.webWidth ∧ ¬ 39900 + 101 ≤ resting.settings.webWidth) ∧
      resting.position.line = .stopped ∧ (resting.lane 2).current = none ∧ (resting.lane 2).enabled = true) ∧
    run.position.line = .running ∧
    ((run.lane 2).current.isSome ∧ ({ run.position with line := .stopped }).line = .stopped) ∧
    ((after (.setLaneEnable 1) moved).lane 0).enabled = true ∧
      max 9999 10000 < min (9999 + 2500) (10000 + 2500) ∧ ¬ max 12500 10000 < min (12500 + 2500) (10000 + 2500) ∧
    (shaftCode .b = (2 : Word16).toNat ∧ (resting.shaft .a).phase = .idle ∧ (resting.shaft .b).phase = .idle) ∧
    ¬ (run.shaft .a).phase = .idle ∧ (resting.lane 0).enabled = false ∧
    answerOf (after (.setLaneGeometry 1 39900 101) resting) = some (.range, 0x20) :=
  ⟨⟨resting_takes, run_takes, rfl⟩, by decide +kernel⟩

/-- Lane 1 of the worked run, disabled, within the web, apart from the others and on a shaft that winds. -/
theorem witness_EnablingOpensALateReel :
    let wide := run.setLane 0 { run.lane 0 with edge := 39901, width := 100 }
    let meeting := run.setLane 0 { run.lane 0 with edge := 12499, width := 100 }
    let scarce := { run with table := { run.table with reserved := ⟨0, 93⟩ } }
    (run.takesRequests ∧ RecordLaw run ∧ LineLaw run) ∧ (run.lane 2).enabled = true ∧
    ((run.lane 0).enabled = false ∧ (run.lane 0).untracked = false ∧
      (run.lane 0).edge + (run.lane 0).width ≤ run.settings.webWidth ∧
      (∀ m, m ≠ 0 → (run.lane m).enabled = true →
        ¬ max (run.lane 0).edge (run.lane m).edge < min 100 ((run.lane m).edge + (run.lane m).width)) ∧
      (run.shaft (run.lane 0).shaft).phase ≠ .idle ∧ (run.shaft (run.lane 0).shaft).currentStep = some step1 ∧
      (∀ g, ∀ u ∈ run.reel g, u.id ≠ run.settings.reelIdCounter) ∧
      1 ≤ run.table.free - (run.table.reserved.a + run.table.reserved.b)) ∧
    ¬ (wide.lane 0).edge + (wide.lane 0).width ≤ wide.settings.webWidth ∧
    max (meeting.lane 0).edge (meeting.lane 2).edge <
      min (12499 + 100) ((meeting.lane 2).edge + (meeting.lane 2).width) ∧
    (scarce.table.free - (scarce.table.reserved.a + scarce.table.reserved.b) = 0 ∧ scarce.feedsUntracked = false) ∧
    (resting.shaft .a).phase = .idle ∧ (run.lane 2).current = some 10 :=
  ⟨⟨run_takes, run_records, run_lines.2⟩, by decide +kernel⟩

/-- A job in range, one whose web is short of an enabled lane, the next plan step, one beyond it, and the current
one. -/
theorem witness_JobsAndPlansAreWritten :
    (run.takesRequests ∧ resting.takesRequests ∧ saving.takesRequests) ∧
    (outOfRange (.setJob job) = false ∧ run.store.save = none ∧ saving.store.save.isSome ∧
      job.webWidth.toNat = run.settings.webWidth) ∧
    ((12500 : Word16).toNat ≠ resting.settings.webWidth ∧ resting.position.line = .stopped ∧
      ∀ n, (resting.lane n).enabled = true → (resting.lane n).edge + (resting.lane n).width ≤ 12500) ∧
    (¬ ∀ n, (resting.lane n).enabled = true → (resting.lane n).edge + (resting.lane n).width ≤ 12499) ∧
    run.position.line = .running ∧
    (outOfRange (.setPlanStep (shaftByte .a) 2 stepFields) = false ∧ stepFields.table.toNat = (0 : Fin 8).val ∧
      (2 : Byte).toNat ≤ (run.shaft .a).plan.length + 1 ∧ (run.shaft .a).step < (2 : Byte).toNat) ∧
    ((run.shaft .a).plan.length + 1 < (3 : Byte).toNat ∧ (1 : Byte).toNat ≤ (run.shaft .a).step ∧
      (run.shaft .a).phase ≠ .idle) ∧ (resting.shaft .a).phase = .idle :=
  ⟨⟨run_takes, resting_takes, saving_takes⟩, by decide +kernel⟩

theorem resting_records : RecordLaw resting := by
  unfold RecordLaw; decide +kernel

/-- A shaft that can start, one without a plan, one with both spindles FULL, one without records; a threshold that stands
at P; a shaft that can stop, with a reel to close. -/
theorem witness_ShaftsStartAndStop :
    let planned := { resting with shafts := { resting.shafts with a := { resting.shafts.a with plan := [step1] } } }
    let bothFull := { planned.shafts.a with spindle1 := .full, spindle2 := .full }
    (resting.takesRequests ∧ RecordLaw resting ∧ planned.table = resting.table) ∧
    ((planned.shaft .a).plan = step1 :: [] ∧ (planned.shaft .a).phase = .idle ∧ planned.position.latch.get .a = none ∧
      (planned.shaft .a).spindle1 = .empty ∧ (planned.enabledLanes .a).length ≤ 96 ∧ planned.enabledLanes .a = [2]) ∧
    (resting.shaft .a).plan = [] ∧ (bothFull.spindle1 ≠ .empty ∧ bothFull.spindle2 ≠ .empty) ∧
    (96 - (0 + 96) < (planned.enabledLanes .a).length) ∧
    ((run.shaft .a).phase ≠ .idle ∧ run.position.latch.get .a = none ∧ run.position.line = .running) ∧
    (∃ r ∈ run.reel 10, r.shaft = .a ∧ r.state = .winding) ∧
    (∃ r ∈ (after (.setLaneDisable 3) run).reel 10, r.shaft = .a ∧ r.state = .ended) ∧
    (cutting.position.latch.get .a).isSome ∧
    (thresholdsOf resting.position.p 2000000 1000000 { ShaftJob.default with window := 0 }).window.position =
      resting.position.p ∧
    (let s := { run with position := { run.position with line := .stopped } }
     s.woundEntries .a = [⟨10, 300⟩] ∧ s.engine.activity = .idle ∧ s.inReset = false ∧ s.port = ready.port) ∧
    (∃ r ∈ run.reel 10, r.start ≤ 20000000 ∧ ¬ r.start ≤ 19999999) :=
  ⟨⟨resting_takes, resting_records, rfl⟩, by decide +kernel⟩

/-- The worked run with a retry of shaft A waiting for its FULL spindle (12.5.2), and records reserved for shaft B. -/
def retrying (reserved : Nat) (reason : DueReason) : State :=
  { run with
    table := { run.table with reserved := ⟨0, reserved⟩ }
    shafts := { run.shafts with a := { run.shafts.a with retry := true, reason := reason } }
    store := { run.store with settings := { run.settings with
      job := { run.settings.job with a := { run.settings.job.a with auto := true } } } } }

theorem retrying_tracking (n : Nat) (reason : DueReason) : TrackingLaw (retrying n reason) := by
  refine ⟨run_current, fun h r hr => ⟨fun w => ?_, (run_wound h r hr).2⟩, run_ranges⟩
  have kept := (run_wound h r hr).1 w
  revert kept
  cases r.shaft <;> exact id

/-- Every phase, the window open or not, both spindle states and both counts of records; a FULL spindle. -/
theorem witness_ChangesAreAskedAndWithdrawn :
    let open_ := ShaftRec.markFired run.shafts.b .window
    let scarce := { run with table := { run.table with reserved := ⟨0, 93⟩ } }
    let runout := after (.cutTaken .a) { cutting with shafts := { cutting.shafts with a := { cutting.shafts.a with
      plan := [{ step1 with count := 1 }], counter := 1 } } }
    run.takesRequests ∧
    ((run.shaft .b).phase = .winding ∧ (run.shaft .b).windowOpen = false ∧ (run.shaft .b).firstFree = false ∧
      (run.shaft .b).spindle (run.shaft .b).active.other = .empty ∧ run.enabledLanes .b = [3] ∧
      (run.enabledLanes .b).length ≤ 93) ∧
    open_.windowOpen = true ∧ (run.shaft .a).spindle (run.shaft .a).active.other ≠ .empty ∧
    93 - (0 + scarce.table.reserved.b) < (scarce.enabledLanes .b).length ∧
    (cutting.shaft .a).phase = .changePending ∧ (ready.shaft .a).phase = .idle ∧ (runout.shaft .a).phase = .runout ∧
    ((run.shaft .a).spindle .two = .full ∧ (run.shaft .a).spindle .one ≠ .full ∧ (run.shaft .a).retry = false) := by
  refine ⟨run_takes, by decide +kernel, by decide +kernel, by decide +kernel, by decide +kernel, by decide +kernel,
    by decide +kernel, by decide +kernel, by decide +kernel, by decide +kernel⟩

/-- UNLOADED with a retry waiting: the records suffice, they do not, and no reason stands. -/
theorem witness_unloaded_retries :
    ((retrying 92 .length).takesRequests ∧ (retrying 93 .length).takesRequests ∧ (retrying 0 .none).takesRequests) ∧
    (TrackingLaw (retrying 92 .length) ∧ SpindleLaw (retrying 92 .length)) ∧
    (TrackingLaw (retrying 93 .length) ∧ SpindleLaw (retrying 93 .length)) ∧
    (let r := (retrying 92 .length).shaft .a
     r.retry = true ∧ r.active.other = .two ∧ r.spindle .two = .full ∧ r.phase = .winding ∧ r.reason ≠ .none ∧
      ((retrying 92 .length).settings.job.get .a).auto = true ∧ (retrying 92 .length).enabledLanes .a = [2] ∧
      1 ≤ 93 - (0 + 92) ∧ 93 - (0 + 93) < 1 ∧ (retrying 92 .length).table.free = 93) ∧
    ((retrying 0 .none).shaft .a).reason = .none ∧
    (let t := after (.unloaded 1 2) (retrying 93 .length)
     (t.shaft .a).retry = true ∧ (t.shaft .a).records = true ∧ t.hold.causes.records = ⟨true, false⟩) := by
  refine ⟨⟨run_takes, run_takes, run_takes⟩, ⟨retrying_tracking _ _, ?_⟩, ⟨retrying_tracking _ _, ?_⟩, by decide +kernel⟩
  all_goals intro sh sp; cases sh <;> cases sp <;> decide +kernel

/-! ## Hypotheses that can be met: marks, grades, settings and runs -/

theorem doffed_takes : doffed.takesRequests := by
  unfold State.takesRequests; decide +kernel

/-- A mark at the latch's stamp, one below it, one further back than P, one on a lane without a reel; a DOFFED reel. -/
theorem witness_MarksGradesAndRetirement :
    let latched := { run with position := { run.position with latch := ⟨some 21005000, none⟩ } }
    (run.takesRequests ∧ doffed.takesRequests) ∧
    ((0xFFFFFF : BitVec 24) ≠ 0 ∧ (1000 : Word32).toNat ≤ 100000 ∧
      ∃ c ∈ latched.position.latch.get .a, c ≤ latched.position.p - (1000 : Word32).toNat) ∧
    ((1001 : Word32).toNat ≤ 100000 ∧ ∀ c ∈ latched.position.latch.get .a, 21004999 < c) ∧
    ((100000 : Word32).toNat ≤ 100000 ∧ ready.position.p - (100000 : Word32).toNat = 0 ∧
      ready.coveringReel 0 .a 0 = none) ∧
    (latched.coveringReel 2 .a 21004999 = some 10 ∧ ∃ r ∈ latched.reel 10, r.id ≠ 0) ∧
    (doffed.reelById 250 = some 6 ∧ ∃ r ∈ doffed.reel 6, r.state = .doffed ∧ r.revision = 5) ∧
    (doffed.reelById 300 = some 10 ∧ ∃ r ∈ doffed.reel 10, r.state ≠ .doffed) ∧ (2 : Byte) = gradeByte (some .b) :=
  ⟨⟨run_takes, doffed_takes⟩, by decide +kernel⟩

/-- A part at rest and one that is not, at the ends of the items' ranges; a value in force and another. -/
theorem witness_SettingsAndRunsChangeAtRest :
    let rests (s : State) := s.shafts.a.phase = .idle ∧ s.shafts.b.phase = .idle ∧ s.travel.approach = [] ∧
      s.travel.nip = ⟨[], []⟩
    (ready.takesRequests ∧ run.takesRequests ∧ saving.takesRequests ∧ PositionLaw run) ∧
    (saving.store.save.isSome ∧ encodeRequest (.setSettingsDIk 0) = some ⟨0x40, [4, 0, 0, 0, 0, 0, 0, 0, 0]⟩) ∧
    ((ready.store.save = none ∧ rests ready ∧ ready.position.line = .stopped) ∧ ¬ rests run ∧
      rests { ready with position := { ready.position with line := .running } }) ∧
    (outOfRange (.setSettingsDIk 100000) = false ∧ (100000 : Word32).toNat ≠ ready.settings.dIk ∧
      (10000 : Word32).toNat = ready.settings.dIk) ∧
    (outOfRange (.setSettingsNEnc 200) = false ∧ (200 : Word32).toNat ≠ ready.settings.nEnc ∧
      (10000 : Word32).toNat = ready.settings.nEnc) ∧
    (outOfRange (.setSettingsSweepInterval 0) = false ∧ (0 : Word32).toNat ≠ ready.settings.sweepInterval ∧
      (5000 : Word32).toNat = ready.settings.sweepInterval) ∧
    (outOfRange (.setSettingsTravelWatermarks 252 256) = false ∧ (252 : Word32).toNat ≠ run.settings.travelLower ∧
      run.hold.lastTravel ≤ 252 ∧ ¬ run.hold.lastTravel ≤ 251) ∧
    (outOfRange (.setSettingsMarkWatermarks 2047 2048) = false ∧ (2048 : Word32).toNat ≠ run.settings.markUpper ∧
      2048 ≤ run.hold.lastMarks) ∧
    (run.store.save = none ∧ (64 : Word32).toNat = run.settings.travelLower ∧
      (96 : Word32).toNat = run.settings.travelUpper ∧ (128 : Word32).toNat = run.settings.markLower ∧
      (256 : Word32).toNat = run.settings.markUpper) :=
  ⟨⟨ready_takes, run_takes, saving_takes, run_position⟩, by decide +kernel⟩

end Sys2Proof.Tests
end

section
/-! PROOF. The search by id and the requests that name a reel by it (R53). -/

namespace Sys2Proof.Machine

/-! ## The search -/

/-- An id of 0 finds no record (R53). -/
@[simp] theorem State.reelById_zero (s : State) : s.reelById 0 = none := rfl

/-- Another id is searched for over the handles (R53). -/
theorem State.reelById_of_ne_zero (s : State) {id : Nat} (hid : id ≠ 0) :
    s.reelById id = allHandles.find? fun h => (s.reel h).any fun r => decide (r.id = id) :=
  if_neg hid

@[simp] theorem State.setPort_reelById (s : State) (p : Port) (id : Nat) :
    (s.setPort p).reelById id = s.reelById id := rfl

/-- What the search finds is a record that is not FREE and holds the id. -/
theorem State.reelById_holds {s : State} {id : Nat} {h : Handle} (found : s.reelById id = some h) :
    ∃ r, s.reel h = some r ∧ r.id = id := by
  by_cases hid : id = 0
  · simp [hid] at found
  · rw [s.reelById_of_ne_zero hid] at found
    obtain ⟨r, hr, holds⟩ := State.find_reel found
    exact ⟨r, hr, of_decide_eq_true holds⟩

/-- The search finds nothing exactly where the id is 0 or no record holds it. -/
theorem State.reelById_eq_none_iff {s : State} {id : Nat} :
    s.reelById id = none ↔ id = 0 ∨ ∀ h, ∀ r ∈ s.reel h, r.id ≠ id := by
  by_cases hid : id = 0
  · simp [hid]
  · rw [s.reelById_of_ne_zero hid, State.find_reel_none]
    simp only [decide_eq_false_iff_not, hid, false_or, ne_eq]

/-- Under the law of the ids two records that hold the same id are one record. -/
theorem IdLaw.handle_unique {s : State} (ids : IdLaw s) {g h : Handle} {q r : Reel} (hq : s.reel g = some q)
    (hr : s.reel h = some r) (same : q.id = r.id) : g = h := by
  obtain ⟨_, _, distinct⟩ := ids
  by_contra apart
  exact distinct g h apart q hq r hr same

/-- Under the law of the ids a record that is not FREE never holds the id 0. -/
theorem IdLaw.id_ne_zero {s : State} (ids : IdLaw s) {h : Handle} {r : Reel} (hr : s.reel h = some r) :
    r.id ≠ 0 := by
  obtain ⟨_, inRange, _⟩ := ids
  exact Nat.one_le_iff_ne_zero.mp (inRange h r hr).1

/-- Where the ids are distinct the search finds every record by its id; no flag of the record has a part in it. -/
theorem IdLaw.reelById_id {s : State} (ids : IdLaw s) {h : Handle} {r : Reel} (hr : s.reel h = some r) :
    s.reelById r.id = some h := by
  cases found : s.reelById r.id with
  | none =>
    rcases State.reelById_eq_none_iff.mp found with zero | absent
    · exact absurd zero (ids.id_ne_zero hr)
    · exact absurd rfl (absent h r hr)
  | some g =>
    obtain ⟨q, hq, same⟩ := State.reelById_holds found
    rw [ids.handle_unique hq hr same]

/-! ## The requests that name a reel -/

/-- An id that the search does not find names no reel. -/
theorem State.named_none {s : State} {id : Nat} (absent : s.reelById id = none) : s.named id = none := by
  simp [State.named, absent]

theorem State.queryReel_unknown {s : State} {id : Nat} (absent : s.reelById id = none) :
    s.queryReel id = Reply.code s .unknownReel := by
  simp [State.queryReel, State.named_none absent]

theorem State.readMarks_unknown {s : State} {id page : Nat} (hp : page ≤ 7) (absent : s.reelById id = none) :
    s.readMarks id page = Reply.code s .unknownReel := by
  simp [State.readMarks, State.named_none absent, Nat.not_lt.mpr hp]

/-- The grade fields 0 to 3 name a grade or CLEAR (R59). -/
theorem gradeOf_of_le {n : Nat} (hn : n ≤ 3) : ∃ g, gradeOf n = some g := by
  interval_cases n <;> exact ⟨_, rfl⟩

theorem State.overrideGrade_unknown {s : State} {id grade : Nat} (hg : grade ≤ 3) (absent : s.reelById id = none) :
    s.overrideGrade id grade = Reply.code s .unknownReel := by
  obtain ⟨g, named⟩ := gradeOf_of_le hg
  simp [State.overrideGrade, named, State.named_none absent]

theorem State.retire_unknown {s : State} {id : Nat} {revision : Word16} (absent : s.reelById id = none) :
    s.retire id revision = Reply.code s .unknownReel := by
  simp [State.retire, State.named_none absent]

/-- A request whose owning block answers UNKNOWN_REEL wherever an id finds no record does so, and touches the port
alone, where the port takes it and the id finds none. -/
theorem State.carryOut_unknown {s : State} {i : Instr} {q : Request} {id : Nat} {act : State → Reply}
    (hq : encodeRequest i = some q) (takes : s.takesRequests) (absent : s.reelById id = none)
    (unknown : ∀ t : State, t.reelById id = none → act t = Reply.code t .unknownReel) :
    s.carryOut i act = s.setPort (s.port.answered q.code .unknownReel []) :=
  State.carryOut_answer hq takes (unknown _ (by rwa [State.setPort_reelById]))

section
variable {s : State} {id : Word32} (takes : s.takesRequests) (absent : s.reelById id.toNat = none)
include takes absent

theorem exec_queryReel_unknown :
    exec (.queryReel id) s = .next (s.setPort (s.port.answered 0x10 .unknownReel [])) := by
  change execQueryReel id s = _
  rw [execQueryReel, State.carryOut_unknown rfl takes absent fun _ => State.queryReel_unknown]

theorem exec_readMarks_unknown {page : Byte} (hp : page.toNat ≤ 7) :
    exec (.readMarks id page) s = .next (s.setPort (s.port.answered 0x13 .unknownReel [])) := by
  change execReadMarks id page s = _
  rw [execReadMarks, State.carryOut_unknown rfl takes absent fun _ => State.readMarks_unknown hp]

theorem exec_overrideGrade_unknown {grade : Byte} (hg : grade.toNat ≤ 3) :
    exec (.overrideGrade id grade) s = .next (s.setPort (s.port.answered 0x36 .unknownReel [])) := by
  change execOverrideGrade id grade s = _
  rw [execOverrideGrade, State.carryOut_unknown rfl takes absent fun _ => State.overrideGrade_unknown hg,
    State.settle_setPort]

theorem exec_retire_unknown (revision : Word16) :
    exec (.retire id revision) s = .next (s.setPort (s.port.answered 0x37 .unknownReel [])) := by
  change execRetire id revision s = _
  rw [execRetire, State.carryOut_unknown rfl takes absent fun _ => State.retire_unknown,
    State.settle_setPort]

end

/-- Settles O27: the search runs over all records that are not FREE, which the law of the ids keeps apart, and the four
requests look their id up by it before anything else that depends on the state. -/
theorem reelSearchById : Obligations.ReelSearchById := by
  unfold Obligations.ReelSearchById
  refine ⟨fun s id => ⟨fun _ => State.reelById_holds, State.reelById_eq_none_iff⟩, State.reelById_zero,
    fun s ids h r => ids.reelById_id, fun s id takes absent => ⟨?_, ?_, ?_, ?_⟩⟩
  · exact exec_queryReel_unknown takes absent
  · exact fun page => exec_readMarks_unknown takes absent
  · exact fun grade => exec_overrideGrade_unknown takes absent
  · exact exec_retire_unknown takes absent

end Sys2Proof.Machine
end

section
/-! PROOF. The grade that a landing leaves on a record (R77, R78). -/

namespace Sys2Proof.Machine

/-! ## The grade result -/

/-- The comparison with a row, spelled out over the six tallies; the FLAG tally has no part in it (R77). -/
theorem Tallies.within_iff {t : Tallies} {m : Maxima} : t.within m = true ↔
    t.defect1 ≤ m.defect1.toNat ∧ t.defect2 ≤ m.defect2.toNat ∧ t.defect3 ≤ m.defect3.toNat ∧
      t.defect4 ≤ m.defect4.toNat ∧ t.register ≤ m.register.toNat ∧ t.splice ≤ m.splice.toNat := by
  simp only [Tallies.within, Bool.and_eq_true, decide_eq_true_eq, and_assoc]

section
variable {t : Tallies} {g : GradeTable}

theorem gradeResult_of_rowA (inA : t.within g.rowA = true) : gradeResult t g = .a := if_pos inA

theorem gradeResult_of_rowB (outA : ¬ t.within g.rowA = true) (inB : t.within g.rowB = true) :
    gradeResult t g = .b := by
  rw [gradeResult, if_neg outA, if_pos inB]

theorem gradeResult_of_no_row (outA : ¬ t.within g.rowA = true) (outB : ¬ t.within g.rowB = true) :
    gradeResult t g = .reject := by
  rw [gradeResult, if_neg outA, if_neg outB]

@[simp] theorem gradeResult_flag (n : Nat) : gradeResult { t with flag := n } g = gradeResult t g := rfl

end

/-- The worse of two grades stands at the later of their places in the order (R78). -/
@[simp] theorem Grade.worse_rank (g h : Grade) : (g.worse h).rank = max g.rank h.rank := by
  unfold Grade.worse
  split
  case isTrue le => exact (Nat.max_eq_right le).symm
  case isFalse gt => exact (Nat.max_eq_left (Nat.le_of_not_le gt)).symm

/-! ## The landed record -/

@[simp] theorem Reel.bump_table (r : Reel) : r.bump.table = r.table := rfl
@[simp] theorem Reel.bump_tallies (r : Reel) : r.bump.tallies = r.tallies := rfl
@[simp] theorem Reel.bump_computed (r : Reel) : r.bump.computed = r.computed := rfl

@[simp] theorem Reel.chainOrDrop_table (r : Reel) (m : Mark) (chained : Bool) :
    (r.chainOrDrop m chained).table = r.table := by
  cases chained <;> rfl

@[simp] theorem Reel.extendParents_table (r : Reel) (m : Mark) : (r.extendParents m).table = r.table := by
  unfold Reel.extendParents
  split
  · split <;> rfl
  · rfl

@[simp] theorem Reel.landed_table (r : Reel) (m : Mark) (chained : Bool) (g : GradeTable) :
    (r.landed m chained g).table = r.table := by
  simp only [Reel.landed, Reel.extendParents_table, Reel.chainOrDrop_table]

/-- The landed record keeps the worse of its old grade and the result of the tallies that it now holds (R78). -/
theorem Reel.landed_computed (r : Reel) (m : Mark) (chained : Bool) (g : GradeTable) :
    (r.landed m chained g).computed = r.computed.worse (gradeResult (r.landed m chained g).tallies g) := rfl

/-! ## The landing on the state -/

@[simp] theorem State.raiseIf_reel (s : State) (c : Bool) (a : Alert) (h : Handle) :
    (s.raiseIf c a).reel h = s.reel h := by
  obtain ⟨d, frame⟩ := s.raiseIf_frame c a
  rw [frame]
  rfl

/-- The record that a landing leaves under its handle: the landed one, its revision moved unless the landing left the
stored content as it was (R66, R69). -/
theorem State.land_reel {s : State} {h : Handle} {r : Reel} (hr : s.reel h = some r) (m : Mark) :
    let landed := r.landed m (s.chains r) s.settings.tables[r.table]
    (s.land h m).reel h = some (if landed = r then r else landed.bump) := by
  simp only [State.land, hr, State.raiseIf_reel]
  split
  · rw [State.setFreeMarks_reel, State.setReel_reel_self]
  · rw [State.setReel_reel_self]

/-- But for its revision, the record that a landing leaves is the landed one: it names the same grade table, and holds
the same tallies and the same computed grade. -/
theorem State.land_reel_landed {s : State} {h : Handle} {r : Reel} (hr : s.reel h = some r) (m : Mark) :
    let landed := r.landed m (s.chains r) s.settings.tables[r.table]
    ∃ q, (s.land h m).reel h = some q ∧ q.table = landed.table ∧ q.tallies = landed.tallies ∧
      q.computed = landed.computed := by
  intro landed
  refine ⟨_, State.land_reel hr m, ?_⟩
  by_cases same : landed = r
  · rw [if_pos same, same]
    exact ⟨rfl, rfl, rfl⟩
  · rw [if_neg same]
    exact ⟨landed.bump_table, landed.bump_tallies, landed.bump_computed⟩

/-- Settles O26: the two rows are compared with the six tallies alone, in the order A, B, and the record that a landing
leaves holds the worse of its old grade and the result of its new tallies, by the table that its index names. -/
theorem gradeFollowsTheTallies : Obligations.GradeFollowsTheTallies := by
  unfold Obligations.GradeFollowsTheTallies
  simp only [← Tallies.within_iff]
  refine ⟨fun t g => ⟨gradeResult_of_rowA, gradeResult_of_rowB, gradeResult_of_no_row, gradeResult_flag⟩,
    by decide, fun s h m r hr => ?_⟩
  obtain ⟨q, found, table, tallies, computed⟩ := State.land_reel_landed hr m
  refine ⟨q, found, table.trans (r.landed_table ..), ?_⟩
  rw [computed, tallies, Reel.landed_computed, Grade.worse_rank]

end Sys2Proof.Machine
end

section
/-! PROOF. One step of the part, the tick, and the state after power-on. -/

namespace Sys2Proof.Machine

/-- Settles O1: the queue's front is what a step carries out. -/
theorem stepTakesTheFront : Obligations.StepTakesTheFront := by
  unfold Obligations.StepTakesTheFront
  intro c rest s front
  simp only [step, front]
  rfl

/-! ## The tick -/

theorem mem_dueAt {now : Nat} {timer : Option Nat} {c d : Instr} :
    d ∈ dueAt now timer c ↔ d = c ∧ ∃ e ∈ timer, e ≤ now := by
  unfold dueAt
  split
  · next h => simpa using fun _ => stands_iff.mp h
  · next h => simpa using fun _ e he => Nat.not_le.mp fun le => h (stands_iff.mpr ⟨e, he, le⟩)

/-- The expiries that a tick queues: each timer's own, and in a reset the stop timer's alone. -/
theorem State.mem_dueEvents {s : State} {now : Nat} {d : Instr} : d ∈ s.dueEvents now ↔
    d ∈ dueAt now s.position.stopTimer .stopTimerExpiry ∨ (s.inReset = false ∧
      (d ∈ dueAt now s.link.gap .gapTimerExpiry ∨ d ∈ dueAt now s.hold.slow (.holdTimerExpiry .slow) ∨
        d ∈ dueAt now s.hold.stop (.holdTimerExpiry .stop) ∨ d ∈ dueAt now s.hold.override .overrideExpiry)) := by
  unfold State.dueEvents
  cases s.inReset <;> simp

theorem step_of_empty {s : State} (empty : s.pending = []) : step s = .next s.tick := by
  simp only [step, empty]

/-- Settles O2: the tick queues each expiry exactly where its timer stands at the new timebase. -/
theorem emptyQueueTicks : Obligations.EmptyQueueTicks := by
  unfold Obligations.EmptyQueueTicks
  intro s empty
  have pending : s.tick.pending = s.dueEvents (s.now + 1) := rfl
  refine ⟨s.tick, step_of_empty empty, rfl, ?_⟩
  simp only [pending, List.subset_def, State.mem_dueEvents, mem_dueAt]
  refine ⟨by simp, by simp, by simp, by simp, by simp, ?_⟩
  rintro d (⟨rfl, _⟩ | ⟨_, ⟨rfl, _⟩ | ⟨rfl, _⟩ | ⟨rfl, _⟩ | ⟨rfl, _⟩⟩) <;> simp

/-! ## The state after power-on -/

section
variable (sh : Shaft) (n : Lane) (h : Handle) (w : Watch)

@[simp] theorem State.reset_shaft : State.reset.shaft sh = .initial := by cases sh <;> rfl
@[simp] theorem State.reset_lane : State.reset.lane n = .initial := by
  simp [State.reset, State.lane, KnifeMap.initial]
@[simp] theorem State.reset_reel : State.reset.reel h = none := by
  simp [State.reset, State.reel, ReelTable.initial]
@[simp] theorem State.reset_watch : State.reset.watch w = none := by
  rcases w with _ | sh | ⟨sh, k⟩ | _
  · rfl
  · cases sh <;> rfl
  · cases sh <;> cases k <;> rfl
  · rfl

end

/-- Settles O4: the tables hold the power-on value in every place, and the other fields are read off. -/
theorem powerOnValues : Obligations.PowerOnValues := by
  unfold Obligations.PowerOnValues
  refine ⟨⟨rfl, rfl, rfl, rfl, rfl, rfl, rfl, rfl, rfl, State.reset_watch⟩, ⟨State.reset_lane, rfl, rfl⟩,
    ⟨State.reset_reel, rfl, rfl, rfl⟩, rfl, State.reset_shaft, ⟨rfl, rfl, rfl, rfl⟩, by decide, by decide, by decide,
    ⟨rfl, rfl, fun c hc => ?_, rfl⟩, by decide, ⟨rfl, rfl, rfl, rfl, rfl, rfl, rfl, rfl, rfl, rfl, rfl, rfl, rfl, rfl,
      rfl, rfl, rfl, fun sh => ?_, fun g hg => ?_⟩⟩
  · exact (Vector.mem_replicate.mp (Vector.mem_toList_iff.mp hc)).2
  · cases sh <;> rfl
  · exact (Vector.mem_replicate.mp (Vector.mem_toList_iff.mp hg)).2

/-! ## The laws after power-on -/

theorem State.reset_blank : State.reset.blank := ⟨rfl, rfl, rfl, rfl, rfl, rfl, rfl, rfl, rfl, rfl⟩

theorem BlankLaw.reset : BlankLaw State.reset :=
  ⟨fun _ => State.reset_blank, by decide, fun _ => rfl⟩

theorem MarkLaw.reset : MarkLaw State.reset := by
  constructor
  · simp [State.chainedMarks, chainLength]; rfl
  · simp

theorem RecordLaw.reset : RecordLaw State.reset := by
  constructor
  · simp [State.freeRecords, allHandles]; rfl
  · decide

theorem SpindleLaw.reset : SpindleLaw State.reset := by
  intro sh sp
  have none : State.reset.recordsOn sh sp = 0 := by simp [State.recordsOn, State.countReels]
  simp only [State.spindleStateOf, none, if_true, State.reset_shaft]
  cases sp <;> rfl

theorem OrderLaw.reset : OrderLaw State.reset := by
  refine ⟨.refl _, ?_⟩
  simp only [State.reset_lane]
  exact (List.pairwise_lt_finRange 24).imp fun lt => .inr ⟨trivial, lt⟩

theorem LaneLaw.reset : LaneLaw State.reset :=
  ⟨.reset, by simp [LaneRec.initial]⟩

theorem TrackingLaw.reset : TrackingLaw State.reset :=
  ⟨by simp [CurrentLaw, LaneRec.initial], by simp [WoundLaw], by simp [RangeLaw]⟩

theorem CauseLaw.reset : CauseLaw State.reset := by
  intro _
  refine ⟨by simp only [State.reset_lane]; decide, rfl, fun sh => ?_, by decide⟩
  cases sh <;> simp [ShaftRec.initial] <;> decide

theorem OverrideLaw.reset : OverrideLaw State.reset := fun _ running => by cases running

/-- Settles O5: each law by the power-on values of the fields it speaks of. -/
theorem lawsHoldAfterReset : Obligations.LawsHoldAfterReset := by
  unfold Obligations.LawsHoldAfterReset
  refine ⟨⟨rfl, .nil, .nil, .nil⟩, ⟨.reset, by simp [ChainLaw]⟩, ⟨.reset, .reset⟩, ⟨.reset, .reset⟩,
    ⟨by unfold PositionLaw; decide, by simp [WatchLaw], rfl, fun sh => by cases sh <;> rfl⟩,
    ⟨fun sh => by simp [ShaftRec.initial], by unfold LineLaw; decide⟩, ⟨.reset, by decide⟩, ⟨Memory.wf_empty, by rintro i ⟨⟩⟩, .reset,
    ⟨by decide, by simp, by simp⟩, ⟨fun sh => by simp [ShaftRec.initial], .reset, fun _ => ⟨rfl, rfl⟩, .reset, .reset, .nil⟩⟩

end Sys2Proof.Machine
end

section
/-! PROOF. What the blocks of the part do to the state, act by act: the words in which the step lemma (`exec_effect`) says
once what every command can do. An act names the operation of the model, with the guard under which it is done; the laws of
the part are proved act by act. -/

namespace Sys2Proof.Machine

/-! ## Records -/

/-- Every flag of `f` stands in `g`. -/
def ReelFlags.under (f g : ReelFlags) : Prop :=
  (f.limited → g.limited) ∧ (f.reversed → g.reversed) ∧ (f.short → g.short) ∧ (f.overrun → g.overrun) ∧
    (f.extra → g.extra) ∧ (f.unplanned → g.unplanned) ∧ (f.lateStart → g.lateStart) ∧ (f.laneClosed → g.laneClosed) ∧
    (f.marksDropped → g.marksDropped) ∧ (f.parentListFull → g.parentListFull) ∧ (f.unloadAssumed → g.unloadAssumed) ∧
    (f.lateMarks → g.lateMarks) ∧ (f.diaLimit → g.diaLimit) ∧ (f.previousRun → g.previousRun)

/-- A record written without a landing, an ending or an unloading: revision, diameter and override may differ, and flags
may be set. -/
def Reel.Kept (r q : Reel) : Prop :=
  ∃ v d o f, q = { r with revision := v, diameter := d, override := o, flags := f } ∧ r.flags.under f

/-! ## Shaft records -/

/-- What `PlanLaw` says of one shaft. -/
def ShaftRec.planned (r : ShaftRec) : Prop :=
  r.plan.length ≤ 8 ∧ (r.phase = .idle → r.step = 0) ∧ (r.phase ≠ .idle → 1 ≤ r.step ∧ r.step ≤ r.plan.length)

/-- What `CutRequestLaw` says of one shaft. -/
def ShaftRec.asks (r : ShaftRec) : Prop := r.cutReq = decide (r.phase = .changePending)

/-- A new record of a shaft keeps what the laws of the plan and of CUTREQ say of it. -/
def ShaftRec.Sound (r q : ShaftRec) : Prop := (r.planned → q.planned) ∧ (r.asks → q.asks)

/-- A new record of a shaft that stays IDLE, or stays outside IDLE, with its spindles as they are. -/
def ShaftRec.Steady (r q : ShaftRec) : Prop :=
  r.Sound q ∧ q.active = r.active ∧ q.spindle1 = r.spindle1 ∧ q.spindle2 = r.spindle2 ∧ (q.phase = .idle ↔ r.phase = .idle)

/-! ## Settings and lanes -/

/-- New settings that keep every range, and every enabled lane within the web. -/
def State.settable (s : State) (x : Settings) : Prop :=
  x.nEnc = s.settings.nEnc ∧ (s.settings.valid = true → x.valid = true) ∧
    (x.reelIdCounter = s.settings.reelIdCounter ∨ (1 ≤ x.reelIdCounter ∧ x.reelIdCounter ≤ maxPosition)) ∧
    (x.webWidth = s.settings.webWidth ∨ s.lanesBeyond x.webWidth = false)

/-- A new lane record with another tally, or without its reference flag. -/
def LaneRec.Steady (l k : LaneRec) : Prop :=
  k = { l with tally := k.tally, reference := k.reference } ∧ (k.reference = true → l.reference = true)

/-! ## Quiet changes -/

/-- Nothing changes but the ports, the hold unit, the digest unit, the encoder pins and the counter of free values. -/
def State.quietly (s t : State) : Prop :=
  ∃ p l h d e i, t = { s with port := p, link := l, hold := h, digest := d, encoder := e, freeIndex := i }

theorem State.quietly_refl (s : State) : s.quietly s := ⟨_, _, _, _, _, _, rfl⟩

theorem State.quietly_trans {s t u : State} (h : s.quietly t) (k : t.quietly u) : s.quietly u := by
  obtain ⟨_, _, _, _, _, _, rfl⟩ := h
  obtain ⟨p, l, h, d, e, i, rfl⟩ := k
  exact ⟨p, l, h, d, e, i, rfl⟩

/-- HOLD_CHANGED as it stood, set and tagged. -/
def DigestUnit.sameHolds (d e : DigestUnit) : Prop :=
  (e.alerts[Alert.index .holdChanged]).isSet = (d.alerts[Alert.index .holdChanged]).isSet ∧
    (e.alerts[Alert.index .holdChanged]).tag = (d.alerts[Alert.index .holdChanged]).tag

/-- ATTN as R168 has it: the half of `AttnLaw` that every write of the digest unit keeps. -/
def State.heeds (s : State) : Prop := s.digest.attn = (!s.inReset && s.digest.calls)

/-- The watermarks as they stood. -/
def Settings.sameMarks (x y : Settings) : Prop :=
  y.travelLower = x.travelLower ∧ y.travelUpper = x.travelUpper ∧ y.markLower = x.markLower ∧ y.markUpper = x.markUpper

theorem Settings.sameMarks_refl (x : Settings) : x.sameMarks x := ⟨rfl, rfl, rfl, rfl⟩

/-- The hold unit, its watermarks, HOLD_CHANGED and the standing of a reset stay as they are, and ATTN goes on to follow
the alerts. -/
def State.calm (s t : State) : Prop :=
  t.hold = s.hold ∧ s.settings.sameMarks t.settings ∧ t.store.reset = s.store.reset ∧ s.digest.sameHolds t.digest ∧
    (s.heeds → t.heeds)

theorem State.calm_refl (s : State) : s.calm s := ⟨rfl, s.settings.sameMarks_refl, rfl, ⟨rfl, rfl⟩, fun h => h⟩

theorem State.calm_trans {s t u : State} (h : s.calm t) (k : t.calm u) : s.calm u := by
  obtain ⟨hold, ⟨tl, tu, ml, mu⟩, reset, ⟨set, tag⟩, heeds⟩ := h
  obtain ⟨hold', ⟨tl', tu', ml', mu'⟩, reset', ⟨set', tag'⟩, heeds'⟩ := k
  exact ⟨hold'.trans hold, ⟨tl'.trans tl, tu'.trans tu, ml'.trans ml, mu'.trans mu⟩, reset'.trans reset,
    ⟨set'.trans set, tag'.trans tag⟩, heeds' ∘ heeds⟩

/-- What leaves the hold unit, the watermarks, the digest unit and the standing of a reset alone is calm. -/
theorem State.calm_of_same {s t : State} (hold : t.hold = s.hold) (digest : t.digest = s.digest)
    (reset : t.store.reset = s.store.reset)
    (marks : s.settings.sameMarks t.settings := by exact ⟨rfl, rfl, rfl, rfl⟩) : s.calm t := by
  refine ⟨hold, marks, reset, by rw [digest]; exact ⟨rfl, rfl⟩, fun h => ?_⟩
  unfold State.heeds State.inReset at *
  rw [digest, reset]
  exact h

/-- A quiet change that is calm, or is allowed to be loud. -/
def State.hushed (L : Prop) (s t : State) : Prop := s.quietly t ∧ (L ∨ s.calm t)

variable {L : Prop}

theorem State.hushed_refl (s : State) : s.hushed L s := ⟨s.quietly_refl, .inr s.calm_refl⟩

theorem State.hushed_trans {s t u : State} (h : s.hushed L t) (k : t.hushed L u) : s.hushed L u := by
  refine ⟨State.quietly_trans h.1 k.1, ?_⟩
  obtain loud | h := h.2
  · exact .inl loud
  · exact k.2.imp_right (State.calm_trans h)

/-- Where loud changes are allowed, every quiet change will do. -/
theorem State.quietly.loud {s t : State} (h : s.quietly t) : s.hushed True t := ⟨h, .inl trivial⟩

/-! ## Acts -/

/-- The watches that the travel list does not own. -/
def Watch.free : Watch → Prop
  | .knife => False
  | .nip _ => False
  | .threshold _ _ => True
  | .sweep => True

/-- One act of a block that opens and closes no record and starts and stops no shaft. `L` says whether loud changes are
allowed: those of the hold unit, of its watermarks, of HOLD_CHANGED and of the standing of a reset, which the body of most commands leaves
alone. -/
inductive Act (L : Prop) : State → State → Prop
  | quiet {s t} (h : s.hushed L t) : Act L s t
  | store (s) (x : SettingsStore) (same : x.settings = s.settings) (fits : EepromLaw s → EepromLaw (s.setStore x))
      (load : x.loading = true → s.store.loading = true) (clear : x.reset = .clearing → s.store.reset = .clearing)
      (stays : L ∨ x.reset = s.store.reset) : Act L s (s.setStore x)
  | settings (s) (x : Settings) (h : s.settable x) (stays : L ∨ s.settings.sameMarks x) : Act L s (s.setSettings x)
  | nEnc (s) (n : Nat) (lo : 200 ≤ n) (hi : n ≤ 200000) : Act L s (s.changeNEnc n)
  | decode (s) (pair : Bool × Bool) : Act L s (s.decodePair pair)
  | sense (s) (d : Direction) (l : LineState) (e : Option Nat) (x : Option SpliceStamp) (b : Pair Nat) :
      Act L s (s.setPosition { s.position with
        direction := d, line := l, stopTimer := e, spliceStamp := x, bounces := b })
  | stamp (s) (sh : Shaft) (absent : s.position.latch.get sh = none) :
      Act L s (s.setPosition { s.position with latch := s.position.latch.set sh (some s.position.p) })
  | taken {s t} (w : Watch) (a : Arrival) (own : w.free) (h : s.takeArrival w = some (a, t)) : Act L s t
  | arm (s) (w : Watch) (x : Nat) (own : w.free) : Act L s (s.arm w x)
  | disarm (s) (w : Watch) (own : w.free) : Act L s (s.disarm w)
  | newRun (s) (rest : s.atRest = true) : Act L s (s.setPosition s.position.newRun)
  | trim (s) (k : Nat) : Act L s (s.setMap { s.map with trim := k })
  | lane (s) (n : Lane) (k : LaneRec) (h : (s.lane n).Steady k) : Act L s (s.setLane n k)
  | geometry (s) (n : Lane) (e w : Nat) (edge : e ≤ 39900) (least : 100 ≤ w) (most : w ≤ 40000)
      (web : e + w ≤ s.settings.webWidth) (apart : (s.lane n).enabled = true → s.overlapsOther n e w = false) :
      Act L s (s.placeGeometry n e w)
  | move (s) (n : Lane) (sh : Shaft) (leaves : (s.shaft (s.lane n).shaft).phase = .idle)
      (joins : (s.shaft sh).phase = .idle) : Act L s (s.setLane n { s.lane n with shaft := sh, reference := false })
  | enable (s) (n : Lane) (off : (s.lane n).enabled = false)
      (web : (s.lane n).edge + (s.lane n).width ≤ s.settings.webWidth)
      (apart : s.overlapsOther n (s.lane n).edge (s.lane n).width = false) :
      Act L s (s.setLane n { s.lane n with enabled := true })
  | refer (s) (n : Lane) (on : (s.lane n).enabled = true) : Act L s (s.setReference n)
  | records (s) (v : Vector (Option Reel) 96) (kept : ∀ h : Handle, Option.Rel Reel.Kept (s.reel h) v[h]) :
      Act L s (s.setTable { s.table with reels := v })
  | land (s) (h : Handle) (m : Mark) : Act L s (s.land h m)
  | unload (s) (sh : Shaft) (sp : Spindle) (assumed : Bool) : Act L s ((s.doff sh sp assumed).refreshSpindles sh)
  | shaft (s) (sh : Shaft) (r : ShaftRec) (h : (s.shaft sh).Steady r) : Act L s (s.setShaft sh r)
  | reserve (s) (sh : Shaft) (n : Nat) (spare : n ≤ s.unreserved) :
      Act L s (s.setReserved sh (s.table.reserved.get sh + n))
  | release (s) (sh : Shaft) (n : Nat) (le : n ≤ s.table.reserved.get sh) : Act L s (s.setReserved sh n)
  | engine (s) (e : SweepEngine) (apart : ClosingLaw s → ClosingLaw (s.setEngine e)) : Act L s (s.setEngine e)
  | parent (s) (x : Option Nat) (k l : Nat) :
      Act L s (s.setTravel { s.travel with staged := x, spliceRefusals := k, tooLate := l })
  | accept (s) (e : ApproachEntry) (free : 2 ≤ s.travel.free) : Act L s (s.acceptEntry e)
  | knife {s t} (a : Arrival) (h : s.takeArrival .knife = some (a, t)) : Act L s t.knifePass
  | nip {s t} (sh : Shaft) (a : Arrival) (h : s.takeArrival (.nip sh) = some (a, t)) : Act L s (t.releasePass sh)
  | cutReported (s) (sh : Shaft) : Act L s ((s.clearLatch sh).releasePass sh)

/-- Acts in a row. -/
abbrev Acts (L : Prop) := Relation.ReflTransGen (Act L)

/-- An act, or a part of a cut, a start, a stop or a lane edit that opens or closes records. -/
inductive Piece (L : Prop) : State → State → Prop
  | act {s t} (h : Act L s t) : Piece L s t
  | shaft (s) (sh : Shaft) (r : ShaftRec) (h : (s.shaft sh).Sound r) : Piece L s (s.setShaft sh r)
  | close (s) (sh : Shaft) (x : Nat) (short : Bool) : Piece L s (s.closeReels sh x short)
  | opening (s) (n : Lane) (sh : Shaft) (sp : Spindle) (x : Nat) (pool : Pool) (flags : ReelFlags)
      (on : (s.lane n).enabled = true) : Piece L s (s.openForLane n sh sp x pool flags)
  | disable (s) (n : Lane) : Piece L s (s.disableLane n)
  | part (s) (sh : Shaft) : Piece L s (s.mapLanes fun l =>
      if l.shaft = sh then { l with current := none, untracked := false } else l)

/-- Pieces in a row. -/
abbrev Pieces (L : Prop) := Relation.ReflTransGen (Piece L)

theorem Acts.one {s t : State} (h : Act L s t) : Acts L s t := .single h

theorem Acts.pieces {s t : State} (h : Acts L s t) : Pieces L s t := h.lift id fun _ _ => .act

/-- What a command does to the state: acts of the blocks, or one of the events that open, close or free records. -/
inductive Effect (L : Prop) (s : State) : State → Prop
  | acts {t} (h : Acts L s t) : Effect L s t
  | cut {u t} (sh : Shaft) (c : Nat) (before : s.hushed L u) (stamped : u.position.latch.get sh = some c)
      (winds : (u.shaft sh).phase ≠ .idle) (h : (u.takeCut sh c).hushed L t) : Effect L s t
  | start {u t} (sh : Shaft) (st : PlanStep) (later : List PlanStep) (before : s.hushed L u)
      (plan : (u.shaft sh).plan = st :: later) (rests : (u.shaft sh).phase = .idle)
      (spindle : (u.shaft sh).spindle1 = .empty ∨ (u.shaft sh).spindle2 = .empty)
      (h : (u.start sh st).hushed L t) : Effect L s t
  | halt {u t} (sh : Shaft) (before : s.hushed L u) (winds : (u.shaft sh).phase ≠ .idle)
      (h : (u.halt sh).hushed L t) : Effect L s t
  | enable {u t} (n : Lane) (before : s.hushed L u) (off : (u.lane n).enabled = false)
      (web : (u.lane n).edge + (u.lane n).width ≤ u.settings.webWidth)
      (apart : u.overlapsOther n (u.lane n).edge (u.lane n).width = false) (h : (u.enableLane n).hushed L t) : Effect L s t
  | disable {u t} (n : Lane) (before : s.hushed L u) (on : (u.lane n).enabled = true)
      (h : (u.disableLane n).hushed L t) : Effect L s t
  | retire {u t} (g : Handle) (r : Reel) (before : s.hushed L u) (there : u.reel g = some r) (doffed : r.state = .doffed)
      (h : (u.freeReel g r).hushed L t) : Effect L s t

/-- What a command does, with a power-on, the end of a clearing reset and the completion of the settings load beside the
rest. -/
inductive Course (s : State) : State → Prop
  | effect {t} (h : Effect True s t) : Course s t
  | powerUp {u : State} (kind : ResetKind) (reset : ResetActivity) (loading : Bool)
      (now : u.now = s.now) (pending : u.pending = s.pending)
      (how : (reset = .none ∧ loading = true) ∨ (reset = .clearing ∧ loading = false))
      (fits : EepromLaw s → Memory.wf u.store.eeprom) : Course s (u.powerUp kind reset loading)
  | begins (clears : s.store.reset = .clearing) :
      Course s (s.setStore { s.store with reset := .none, loading := true })
  | load (ack : Bool) (loads : s.store.loading = true) : Course s (s.completeLoad (loadImage ack s.store.eeprom))

/-! ## Quiet changes before and after -/

theorem Acts.quiet {s t : State} (h : s.hushed L t) : Acts L s t := .one (.quiet h)

/-- A quiet change before what a command does is part of it. -/
theorem Effect.behind {s u t : State} (before : s.hushed L u) (h : Effect L u t) : Effect L s t := by
  cases h with
  | acts h => exact .acts ((Acts.quiet before).trans h)
  | cut sh c b stamped winds h => exact .cut sh c (State.hushed_trans before b) stamped winds h
  | start sh st later b plan rests spindle h =>
    exact .start sh st later (State.hushed_trans before b) plan rests spindle h
  | halt sh b winds h => exact .halt sh (State.hushed_trans before b) winds h
  | enable n b off web apart h => exact .enable n (State.hushed_trans before b) off web apart h
  | disable n b on h => exact .disable n (State.hushed_trans before b) on h
  | retire g r b there doffed h => exact .retire g r (State.hushed_trans before b) there doffed h

/-- A quiet change behind what a command does is part of it. -/
theorem Effect.before {s u t : State} (h : Effect L s u) (after : u.hushed L t) : Effect L s t := by
  cases h with
  | acts h => exact .acts (h.trans (Acts.quiet after))
  | cut sh c b stamped winds h => exact .cut sh c b stamped winds (State.hushed_trans h after)
  | start sh st later b plan rests spindle h =>
    exact .start sh st later b plan rests spindle (State.hushed_trans h after)
  | halt sh b winds h => exact .halt sh b winds (State.hushed_trans h after)
  | enable n b off web apart h => exact .enable n b off web apart (State.hushed_trans h after)
  | disable n b on h => exact .disable n b on (State.hushed_trans h after)
  | retire g r b there doffed h => exact .retire g r b there doffed (State.hushed_trans h after)

end Sys2Proof.Machine
end

section
/-! PROOF. The shared operations of the blocks as acts, and what each command does. -/

namespace Sys2Proof.Machine

variable {L : Prop}

/-! ## Quiet operations -/

section
variable (s u : State)

theorem State.setHold_quietly (h : HoldUnit) : s.quietly (s.setHold h) := ⟨_, _, _, _, _, _, rfl⟩
theorem State.setDigest_quietly (d : DigestUnit) : s.quietly (s.setDigest d) := ⟨_, _, _, _, _, _, rfl⟩
theorem State.updateDigest_quietly (d : DigestUnit) : s.quietly (s.updateDigest d) := ⟨_, _, _, _, _, _, rfl⟩

theorem State.raiseIf_quietly (c : Bool) (a : Alert) : s.quietly (s.raiseIf c a) := by
  obtain ⟨d, h⟩ := s.raiseIf_frame c a
  rw [h]; exact ⟨_, _, _, _, _, _, rfl⟩

theorem State.takeCauses_quietly (c : Causes) : s.quietly (s.takeCauses c) := by
  obtain ⟨d, h⟩ := s.takeCauses_frame c
  rw [h]; exact ⟨_, _, _, _, _, _, rfl⟩

theorem State.announce_quietly : u.quietly (s.announce u) := State.raiseIf_quietly ..

theorem State.settle_quietly : u.quietly (s.settle u) := by
  obtain ⟨h, d, e⟩ := s.settle_frame u
  rw [e]; exact ⟨_, _, _, _, _, _, rfl⟩

theorem State.startOverride_quietly : s.quietly s.startOverride := ⟨_, _, _, _, _, _, rfl⟩

end

/-! ## Hushed operations -/

/-- A write of the digest unit that leaves HOLD_CHANGED is calm: ATTN is re-evaluated in it (R168). -/
theorem State.updateDigest_calm {s : State} {d : DigestUnit} (h : s.digest.sameHolds d) : s.calm (s.updateDigest d) :=
  ⟨rfl, s.settings.sameMarks_refl, rfl, h, fun _ => rfl⟩

/-- No other alert has the bit of HOLD_CHANGED. -/
theorem Alert.index_ne_holdChanged {a : Alert} (other : a ≠ .holdChanged) : a.index ≠ Alert.holdChanged.index := by
  rcases a with (⟨_ | _⟩ | ⟨_ | _⟩ | ⟨_ | _⟩ | ⟨_ | _⟩ | ⟨_ | _⟩ | ⟨_ | _⟩ | _ | _ | _ | _ | _ | _ | _ | _) <;>
    simp_all [Alert.index]

/-- A raise of another alert leaves HOLD_CHANGED. -/
theorem DigestUnit.raise_sameHolds (d : DigestUnit) {a : Alert} (other : a ≠ .holdChanged) :
    d.sameHolds (d.raise a) := by
  unfold DigestUnit.sameHolds DigestUnit.raise
  simp only [Fin.getElem_fin]
  rw [Vector.getElem_set_ne _ _ (Fin.val_ne_iff.mpr (Alert.index_ne_holdChanged other))]
  exact ⟨rfl, rfl⟩

section
variable (s : State)

theorem State.setPort_hushed (p : Port) : s.hushed L (s.setPort p) :=
  ⟨⟨_, _, _, _, _, _, rfl⟩, .inr (State.calm_of_same rfl rfl rfl)⟩
theorem State.setLink_hushed (l : Receiver) : s.hushed L (s.setLink l) :=
  ⟨⟨_, _, _, _, _, _, rfl⟩, .inr (State.calm_of_same rfl rfl rfl)⟩
theorem State.setEncoder_hushed (e : Bool × Bool) : s.hushed L (s.setEncoder e) :=
  ⟨⟨_, _, _, _, _, _, rfl⟩, .inr (State.calm_of_same rfl rfl rfl)⟩
theorem State.setFreeIndex_hushed (i : Nat) : s.hushed L (s.setFreeIndex i) :=
  ⟨⟨_, _, _, _, _, _, rfl⟩, .inr (State.calm_of_same rfl rfl rfl)⟩

theorem State.updateDigest_hushed {d : DigestUnit} (h : s.digest.sameHolds d) : s.hushed L (s.updateDigest d) :=
  ⟨s.updateDigest_quietly d, .inr (State.updateDigest_calm h)⟩

theorem State.raise_hushed (a : Alert) (other : a ≠ .holdChanged := by simp) : s.hushed L (s.raise a) :=
  s.updateDigest_hushed (s.digest.raise_sameHolds other)

theorem State.raiseIf_hushed (c : Bool) (a : Alert) (other : a ≠ .holdChanged := by simp) :
    s.hushed L (s.raiseIf c a) := by
  unfold State.raiseIf
  split
  · exact s.raise_hushed a other
  · exact s.hushed_refl

theorem State.refuseReport_hushed (why : Refused) : s.hushed L (s.refuseReport why) :=
  State.hushed_trans (s.setLink_hushed _) (State.raise_hushed _ .reportsRefused)

end

theorem Effect.quiet {s t : State} (h : s.hushed L t) : Effect L s t := .acts (.quiet h)
theorem Effect.none {s : State} : Effect L s s := .acts .refl
theorem Effect.act {s t : State} (h : Act L s t) : Effect L s t := .acts (.one h)

/-- The hold unit's part of an event adds nothing but a quiet change. -/
theorem Effect.settle {s u : State} (h : Effect True s u) : Effect True s (s.settle u) :=
  h.before (s.settle_quietly u).loud

/-! ## Requests -/

/-- What a reply's state does is what the request does. -/
theorem State.carryOut_effect (s : State) (i : Instr) {act : State → Reply}
    (h : ∀ t, s.hushed L t → Effect L t (act t).state) : Effect L s (s.carryOut i act) := by
  have finish (r : Reply) (q : Byte) : r.state.hushed L (r.finish q) := by
    unfold Reply.finish
    split
    · exact r.state.setPort_hushed _
    · exact r.state.hushed_refl
  unfold State.carryOut
  split
  · exact .none
  · split
    · exact .none
    · exact Effect.quiet (s.setPort_hushed _)
    · exact Effect.quiet (s.setPort_hushed _)
    · exact (h s s.hushed_refl).before (finish _ _)
    · exact ((h _ (s.setPort_hushed _)).before (finish _ _)).behind (s.setPort_hushed _)

/-! ## Records written in place -/

theorem ReelFlags.under_refl (f : ReelFlags) : f.under f := by simp [ReelFlags.under]

theorem Reel.Kept.refl (r : Reel) : r.Kept r := ⟨_, _, _, _, rfl, r.flags.under_refl⟩

theorem Reel.withFlags_kept (r : Reel) (d : Nat) {f : ReelFlags} (h : r.flags.under f) :
    r.Kept ({ r with diameter := d }.withFlags f) := by
  unfold Reel.withFlags
  split
  · exact ⟨_, _, _, _, rfl, r.flags.under_refl⟩
  · exact ⟨_, _, _, _, rfl, h⟩

theorem Reel.footageFlags_under (r : Reel) (x : Nat) : r.flags.under (r.footageFlags x) := by
  unfold Reel.footageFlags
  split <;> simp +contextual [ReelFlags.under]

theorem Reel.liveRead_kept (r : Reel) (x : Nat) : r.Kept (r.liveRead x) :=
  r.withFlags_kept r.diameter (r.footageFlags_under x)

theorem Reel.visited_kept (r : Reel) (x : Readings) : r.Kept (r.visited x) :=
  r.withFlags_kept _ (by simp +contextual [ReelFlags.under])

theorem Reel.closedWrite_kept (r : Reel) (x : Readings) : r.Kept (r.closedWrite x) :=
  ⟨_, _, _, _, rfl, by simp +contextual [ReelFlags.under]⟩

theorem Reel.withOverride_kept (r : Reel) (g : Option Grade) : r.Kept (r.withOverride g) := by
  unfold Reel.withOverride
  split
  · exact .refl r
  · exact ⟨_, _, _, _, rfl, r.flags.under_refl⟩

theorem Reel.leaveRun_kept (r : Reel) : r.Kept r.leaveRun := by
  unfold Reel.leaveRun
  split
  · exact r.withFlags_kept r.diameter (by simp +contextual [ReelFlags.under])
  · exact .refl r

/-- A record written in place. -/
theorem Act.rewrite {s : State} {h : Handle} {r q : Reel} (there : s.reel h = some r) (kept : r.Kept q) :
    Act L s (s.setReel h (some q)) := by
  refine .records s (s.table.reels.set h (some q)) fun g => ?_
  rw [show (s.table.reels.set h (some q))[g] = (s.setReel h (some q)).reel g from rfl, State.setReel_reel]
  split
  · next e => rw [e, there]; exact .some kept
  · cases s.reel g with
    | none => exact .none
    | some q => exact .some (.refl q)

/-- Every record written in place. -/
theorem Act.rewriteAll (s : State) {f : Reel → Reel} (kept : ∀ r : Reel, r.Kept (f r)) : Act L s (s.mapReels f) := by
  refine .records s (Vector.ofFn fun i => (s.table.reels[i]).map f) fun g => ?_
  change Option.Rel Reel.Kept (s.reel g) ((s.mapReels f).reel g)
  rw [State.mapReels_reel]
  cases s.reel g with
  | none => exact .none
  | some q => exact .some (kept q)

theorem State.flagOverrun_act (s : State) (sh : Shaft) (inCut : Bool) : Act L s (s.flagOverrun sh inCut) :=
by
  refine .rewriteAll s fun (r : Reel) => ?_
  have flagged : r.flags.under { r.flags with overrun := true } := by simp +contextual [ReelFlags.under]
  split
  · split
    · exact ⟨_, _, _, _, rfl, flagged⟩
    · exact r.withFlags_kept r.diameter flagged
  · exact .refl r

theorem State.flagLimits_act (s : State) : Act L s s.flagLimits :=
by
  refine .rewriteAll s fun (r : Reel) => ?_
  split
  · exact r.withFlags_kept r.diameter (by simp +contextual [ReelFlags.under])
  · exact .refl r

theorem State.writeVisit_acts (s : State) (x : Readings) : Acts L s (s.writeVisit x) := by
  unfold State.writeVisit
  split
  · exact .refl
  · next r there =>
    split
    · exact Acts.one (.rewrite there (r.visited_kept x))
    · exact .refl

theorem State.writeClosing_acts (s : State) (x : Readings) : Acts L s (s.writeClosing x) := by
  unfold State.writeClosing
  split
  · exact .refl
  · next r there =>
    split
    · exact Acts.one (.rewrite there (r.closedWrite_kept x))
    · exact .refl

/-! ## Shaft records -/

/-- A write beside phase, plan, step, CUTREQ and spindles. -/
theorem ShaftRec.Steady.beside {r q : ShaftRec} (h : q = { r with
    counter := q.counter, firstFree := q.firstFree, thresholds := q.thresholds, reason := q.reason, short := q.short,
    retry := q.retry, retriesDue := q.retriesDue, records := q.records, tension := q.tension,
    ignoredCuts := q.ignoredCuts }) : r.Steady q := by
  rw [h]; exact ⟨⟨id, id⟩, rfl, rfl, rfl, .rfl⟩

/-- A write beside the laws of a shaft, as an act. -/
theorem Act.beside (s : State) (sh : Shaft) {q : ShaftRec} (h : q = { s.shaft sh with
    counter := q.counter, firstFree := q.firstFree, thresholds := q.thresholds, reason := q.reason, short := q.short,
    retry := q.retry, retriesDue := q.retriesDue, records := q.records, tension := q.tension,
    ignoredCuts := q.ignoredCuts }) : Act L s (s.setShaft sh q) :=
  .shaft s sh q (.beside h)

theorem ShaftRec.retryRaised_steady (r : ShaftRec) : r.Steady r.retryRaised := by
  unfold ShaftRec.retryRaised
  split <;> exact .beside rfl

theorem ShaftRec.toPhase_asks (r : ShaftRec) (ph : Phase) : (r.toPhase ph).asks := rfl

/-- A change between phases outside IDLE. -/
theorem ShaftRec.Steady.phase {r q : ShaftRec} (winds : r.phase ≠ .idle) (stays : q.phase ≠ .idle) (asks : q.asks)
    (plan : q.plan = r.plan) (step : q.step = r.step) (active : q.active = r.active) (first : q.spindle1 = r.spindle1)
    (second : q.spindle2 = r.spindle2) : r.Steady q := by
  refine ⟨⟨fun ⟨len, _, inside⟩ => ⟨plan ▸ len, fun e => absurd e stays, fun _ => ?_⟩, fun _ => asks⟩, active, first,
    second, ⟨fun e => absurd e stays, fun e => absurd e winds⟩⟩
  rw [step, plan]; exact inside winds

theorem ShaftRec.pend_steady {r : ShaftRec} (winds : r.phase = .winding) (unasked : Bool) : r.Steady (r.pend unasked) :=
  .phase (by rw [winds]; decide) (by simp [ShaftRec.pend, ShaftRec.toPhase, ShaftRec.clearRetry]) rfl rfl rfl rfl rfl rfl

/-- The reserved count of a shaft is released, and the other shaft's retry raised (R55). -/
theorem State.releaseReserved_acts (s : State) (sh : Shaft) : Acts L s (s.releaseReserved sh) := by
  have release : Act L s (s.setReserved sh 0) := .release s sh 0 (Nat.zero_le _)
  unfold State.releaseReserved
  simp only []
  split
  · exact .one release
  · exact (Acts.one release).tail (.shaft _ _ _ (ShaftRec.retryRaised_steady _))

/-- Entering CHANGE_PENDING from WINDING reserves the records and writes the shaft (R114). -/
theorem State.enterPending_acts {s t : State} {sh : Shaft} {unasked : Bool} (winds : (s.shaft sh).phase = .winding)
    (h : s.enterPending sh unasked = some t) : Acts L s t := by
  unfold State.enterPending State.reserve at h
  split at h
  · cases h
  · next u e =>
    split at e
    · next spare =>
      cases e; cases h
      exact (Acts.one (.reserve s sh _ spare)).tail (.shaft _ _ _ (ShaftRec.pend_steady winds _))
    · cases e

theorem State.attempt_acts {s : State} {sh : Shaft} (winds : (s.shaft sh).phase = .winding) :
    Acts L s (s.attempt sh) := by
  unfold State.attempt
  simp only []
  split
  · exact Acts.one (.beside s sh rfl)
  · split
    · next t h => exact State.enterPending_acts winds h
    · exact Acts.one (.beside s sh rfl)

theorem State.retryAttempt_acts (s : State) (sh : Shaft) : Acts L s (s.retryAttempt sh) := by
  unfold State.retryAttempt
  simp only []
  split
  · exact .refl
  · split
    · next h => exact State.attempt_acts h.1
    · exact Acts.one (.beside s sh rfl)

theorem State.changeDue_acts (s : State) (sh : Shaft) (event : DueReason) (attempts : Bool) :
    Acts L s (s.changeDue sh event attempts) := by
  unfold State.changeDue
  simp only []
  have due : Acts L s ((s.setShaft sh { s.shaft sh with reason := event.after (s.shaft sh).reason }).raiseIf
      (decide (event.after (s.shaft sh).reason ≠ (s.shaft sh).reason)) (.changeDue sh)) :=
    (Acts.one (.beside s sh rfl)).trans (Acts.quiet (State.raiseIf_hushed ..))
  split
  · next h =>
    refine due.trans (State.attempt_acts ?_)
    simp only [Bool.and_eq_true, decide_eq_true_eq] at h
    exact h.1.2
  · exact due

theorem State.fire_acts (s : State) (sh : Shaft) (inCut : Bool) (k : Threshold) : Acts L s (State.fire sh inCut s k) := by
  have mark : Acts L s (s.setShaft sh ((s.shaft sh).markFired k)) := Acts.one (.beside s sh rfl)
  cases k with
  | approach => exact mark.trans (Acts.quiet (State.raise_hushed ..))
  | window => exact mark
  | due => exact mark.trans (State.changeDue_acts ..)
  | overrun => exact (mark.tail (State.flagOverrun_act ..)).trans (Acts.quiet (State.raise_hushed ..))

theorem State.fireUpTo_acts (s : State) (sh : Shaft) (x : Nat) (inCut : Bool) (ks : List Threshold) :
    Acts L s (s.fireUpTo sh x inCut ks) := by
  refine foldl_rel (fun _ => .refl) (fun h k => h.trans k) (fun t k => ?_) ks s
  split
  · exact .refl
  · split
    · exact t.fire_acts sh inCut k
    · exact .refl

theorem State.takeThreshold_acts (s : State) (sh : Shaft) (k : Threshold) (x : Nat) :
    Acts L s (s.takeThreshold sh k x) := by
  unfold State.takeThreshold
  split
  · exact (s.fireUpTo_acts sh x false _).trans (State.fire_acts ..)
  · exact .refl

/-! ## The sweep engine -/

theorem State.examineLimits_acts (s : State) : Acts L s s.examineLimits := by
  have one (t : State) (g : Bool) (sh : Shaft) : Acts L t (t.announceLimit g sh) := by
    unfold State.announceLimit
    split
    · exact (Acts.quiet (t.raise_hushed _)).trans (State.changeDue_acts ..)
    · exact .refl
  exact ((Acts.one s.flagLimits_act).trans (one _ _ .a)).trans (one _ _ .b)

theorem State.writeTension_acts (s : State) (sh : Shaft) : Acts L s (s.writeTension sh) := by
  unfold State.writeTension
  split
  · exact .refl
  · split
    · exact .refl
    · exact Acts.one (.beside s sh rfl)

theorem State.endSweep_acts (s : State) : Acts L s s.endSweep :=
  ((s.examineLimits_acts.trans (State.writeTension_acts _ .a)).trans (State.writeTension_acts _ .b)).tail
    (.engine _ _ id)

theorem State.beginVisit_acts (s : State) (h : Handle) : Acts L s (s.beginVisit h) := by
  unfold State.beginVisit
  split
  · exact .refl
  · next r there => exact (Acts.one (.rewrite there (r.liveRead_kept _))).tail (.engine _ _ id)

theorem State.goOn_acts (s : State) (cursor : Nat) : Acts L s (s.goOn cursor) := by
  unfold State.goOn
  split
  · exact s.beginVisit_acts _
  · exact s.endSweep_acts

theorem State.startOwed_acts (s : State) : Acts L s s.startOwed := by
  unfold State.startOwed
  split
  · exact (Acts.one (.engine s { s.engine with owed := false, sweep := some 0 } id)).trans (State.goOn_acts _ 0)
  · exact .refl

theorem State.chooseSweep_acts (s : State) : Acts L s s.chooseSweep := by
  unfold State.chooseSweep
  split
  · exact s.startOwed_acts
  · split
    · exact s.beginVisit_acts _
    · exact s.endSweep_acts.trans (State.startOwed_acts _)

/-- What is left of the closing list is a part of it in its order. -/
theorem State.nextClosing_sublist {s : State} {l rest : List ClosingEntry} {x : Readings}
    (h : s.nextClosing l = some (x, rest)) : rest.Sublist l := by
  induction l with
  | nil => cases h
  | cons e l ih =>
    unfold State.nextClosing at h
    split at h
    · exact (ih h).cons e
    · split at h
      · cases h; exact List.sublist_cons_self e _
      · exact (ih h).cons e

theorem State.chooseWork_acts (s : State) : Acts L s s.chooseWork := by
  have idle : Acts L s (s.setEngine { s.engine with activity := .idle }) := Acts.one (.engine s _ id)
  unfold State.chooseWork
  simp only []
  split
  · next x rest h =>
    exact idle.tail (.engine _ _ fun apart => apart.sublist (State.nextClosing_sublist h))
  · exact (idle.tail (.engine _ { s.engine with activity := .idle, closing := [] } fun _ => List.Pairwise.nil)).trans
      (State.chooseSweep_acts _)

theorem State.workArrives_acts (s : State) : Acts L s s.workArrives := by
  unfold State.workArrives
  split
  · exact s.chooseWork_acts
  · exact .refl

theorem State.trigger_acts (s : State) : Acts L s s.trigger := by
  unfold State.trigger
  split
  · exact .refl
  · exact (Acts.one (.engine s { s.engine with owed := true } id)).trans (State.workArrives_acts _)

/-- Entries put behind a list whose handles differ keep the handles apart (R127). -/
theorem addClosing_pairwise {l : List ClosingEntry} (new : List ClosingEntry)
    (h : l.Pairwise fun d e => d.handle ≠ e.handle) : (addClosing l new).Pairwise fun d e => d.handle ≠ e.handle := by
  induction new generalizing l with
  | nil => exact h
  | cons e es ih =>
    refine ih (List.pairwise_append.mpr ⟨h.filter _, List.pairwise_singleton _ _, ?_⟩)
    intro d hd x hx
    rw [List.mem_singleton.mp hx]
    simpa using (List.mem_filter.mp hd).2

theorem State.queueClosing_acts (s : State) (new : List ClosingEntry) : Acts L s (s.queueClosing new) := by
  unfold State.queueClosing
  split
  · exact .refl
  · exact (Acts.one (.engine s { s.engine with closing := addClosing s.engine.closing new }
      fun apart => addClosing_pairwise new apart)).trans (State.workArrives_acts _)

/-- The engine after a preserving reset lists no handle twice (R127, R139). -/
theorem SweepEngine.renewed_pairwise {e : SweepEngine} (h : e.closing.Pairwise fun d e => d.handle ≠ e.handle) :
    e.renewed.closing.Pairwise fun d e => d.handle ≠ e.handle := by
  unfold SweepEngine.renewed
  split
  · next x _ =>
    split
    · exact h
    · next fresh => exact List.pairwise_cons.mpr ⟨fun y hy same => fresh (by simpa using ⟨y, hy, same.symm⟩), h⟩
  · exact h

/-! ## The travel list -/

theorem State.countUntracked_act (s : State) (n : Lane) : Act L s (s.countUntracked n) := Act.lane s n _ ⟨rfl, id⟩

theorem State.flagLane_acts (s : State) (m : HeldMark) (l : LaneHit) : Acts L s (s.flagLane m l).1 := by
  unfold State.flagLane
  split
  · exact Acts.one (.land ..)
  · exact Acts.one (s.countUntracked_act _)

theorem State.attribute_acts (s : State) (m : HeldMark) : Acts L s (s.attribute m).1 := by
  have key (as : List LaneHit) (acc : State × List Nat) : Acts L acc.1
      (as.foldl (fun acc l => ((acc.1.flagLane m l).1, acc.2 ++ [(acc.1.flagLane m l).2])) acc).1 := by
    induction as generalizing acc with
    | nil => exact .refl
    | cons a as ih =>
      exact (acc.1.flagLane_acts m a).trans (ih ((acc.1.flagLane m a).1, acc.2 ++ [(acc.1.flagLane m a).2]))
  exact key m.lanes (s, [])

theorem State.attributeHeld_acts (s : State) (sh : Shaft) : Acts L s (s.attributeHeld sh) := by
  unfold State.attributeHeld
  split
  · exact .refl
  · split
    · exact (s.attribute_acts _).trans (Acts.quiet (State.setPort_hushed ..))
    · exact .refl

theorem State.armSweep_act (s : State) (x : Nat) : Act L s (s.armSweep x) := by
  unfold State.armSweep
  split
  · exact .disarm s _ trivial
  · exact .arm s _ _ trivial

theorem State.takeSplice_acts (s : State) : Acts L s s.takeSplice := by
  unfold State.takeSplice
  simp only []
  split
  · exact Acts.quiet (s.raise_hushed _)
  · split
    · exact (Acts.one (.parent s s.travel.staged _ s.travel.tooLate)).trans (Acts.quiet (State.raise_hushed ..))
    · next free =>
      refine ((Acts.one (.parent s none s.travel.spliceRefusals s.travel.tooLate)).trans
        (Acts.quiet (State.raiseIf_hushed _ s.travel.staged.isNone .parentUnknown))).tail (.accept _ _ ?_)
      obtain ⟨d, h⟩ := (s.setTravel { s.travel with staged := none }).raiseIf_frame s.travel.staged.isNone .parentUnknown
      rw [State.setTravel] at h
      erw [h]
      exact Nat.not_lt.mp free

theorem State.takeFrame_acts (s : State) (bytes : List Byte) : Acts L s (s.takeFrame bytes) := by
  unfold State.takeFrame
  split
  · split
    · exact Acts.quiet (s.refuseReport_hushed _)
    · unfold State.handReport
      split
      · next f tested =>
        refine Acts.one (.accept _ _ ?_)
        unfold State.testReport at tested
        split at tested
        · cases tested
        · split at tested
          · cases tested
          · split at tested
            · cases tested
            · split at tested
              · cases tested
              · omega
      · exact Acts.quiet (s.refuseReport_hushed _)
      · exact Acts.quiet (s.refuseReport_hushed _)
  · exact Acts.quiet (s.refuseReport_hushed _)

theorem State.takeCharacter_acts (s : State) (char : Byte) (err : Bool) : Acts L s (s.takeCharacter char err) := by
  unfold State.takeCharacter
  split
  · split
    · exact Acts.quiet (s.setLink_hushed _)
    · exact .refl
  · split
    · exact (Acts.quiet (s.setLink_hushed _)).trans (Acts.quiet (State.refuseReport_hushed ..))
    · split
      · exact (Acts.quiet (s.setLink_hushed _)).trans (State.takeFrame_acts ..)
      · exact Acts.quiet (s.setLink_hushed _)

end Sys2Proof.Machine
end

section
/-! PROOF. The step lemma: what every command does to the state, in the words of `Effect`. -/

namespace Sys2Proof.Machine

variable {L : Prop}

/-! ## Settings -/

theorem State.setItem_effect {s t : State} {valid same : Bool} {change : Reply}
    (h : valid = true → Effect L s change.state) (stays : Effect L s t := by exact Effect.none) :
    Effect L s (t.setItem valid same change).state := by
  unfold State.setItem
  split
  · exact stays
  · split
    · exact stays
    · next ok =>
      split
      · exact stays
      · exact h (by simpa using ok)

theorem State.setAtRest_effect {s after : State} (h : Effect L s after) : Effect L s (s.setAtRest after).state := by
  unfold State.setAtRest
  split
  · exact .none
  · split
    · exact .none
    · exact h

/-- New settings that keep N_enc, the web width and the id counter. -/
theorem Effect.setting {s : State} {x : Settings} (nEnc : x.nEnc = s.settings.nEnc)
    (counter : x.reelIdCounter = s.settings.reelIdCounter) (web : x.webWidth = s.settings.webWidth)
    (valid : s.settings.valid = true → x.valid = true)
    (stays : L ∨ s.settings.sameMarks x := by exact .inr ⟨rfl, rfl, rfl, rfl⟩) : Effect L s (s.setSettings x) :=
  .act (.settings s x ⟨nEnc, valid, .inl counter, .inl web⟩ stays)

theorem State.applyTravelMarks_quietly (s : State) : s.quietly s.applyTravelMarks := s.takeCauses_quietly _
theorem State.applyMarkMarks_quietly (s : State) : s.quietly s.applyMarkMarks := s.takeCauses_quietly _

/-- The settings of a SET_JOB keep every range where its tests pass. -/
theorem Settings.withJob_valid {x : Settings} {j : JobFields} {a b : ShaftJob} (ha : a.valid = true) (hb : b.valid = true)
    (web : j.webWidth.toNat = x.webWidth ∨ within 1000 40000 j.webWidth.toNat = true) (values : jobValuesValid j = true)
    (h : x.valid = true) : (x.withJob j a b).valid = true := by
  simp only [jobValuesValid, Bool.and_eq_true] at values
  obtain ⟨⟨⟨thickness, packing⟩, rhoA⟩, rhoB⟩ := values
  simp only [Settings.valid, Bool.and_eq_true] at h
  have range : within 1000 40000 j.webWidth.toNat = true := web.elim (fun e => by rw [e]; simp_all) id
  simp_all [Settings.valid, Settings.withJob]

theorem validShaftJob_valid {f : ShaftJobFields} {j : ShaftJob} (h : validShaftJob f = some j) : j.valid = true :=
  (Option.filter_eq_some_iff.mp h).2

theorem State.setJob_effect (s : State) (j : JobFields) : Effect L s (s.setJob j).state := by
  unfold State.setJob
  split
  · exact .none
  · split
    · next a b ea eb =>
      split
      · next ok =>
        simp only [Bool.and_eq_true] at ok
        unfold State.takeJob
        split
        · exact .none
        · next fits =>
          split
          · exact .none
          · refine .act (.settings s _ ⟨rfl, ?_, .inl rfl, ?_⟩ (.inr ⟨rfl, rfl, rfl, rfl⟩))
            · exact Settings.withJob_valid (validShaftJob_valid ea) (validShaftJob_valid eb)
                (by simpa [State.webWidthValid] using ok.1) ok.2
            · show j.webWidth.toNat = _ ∨ s.lanesBeyond j.webWidth.toNat = false
              simpa only [not_and, Bool.not_eq_true, Decidable.imp_iff_not_or, not_not, ne_eq] using fits
      · exact .none
    · exact .none

theorem State.setGradeTable_effect (s : State) (index : Nat) (table : GradeTable) :
    Effect L s (s.setGradeTable index table).state := by
  unfold State.setGradeTable
  split
  · exact .none
  · split
    · exact .none
    · exact .setting rfl rfl rfl id

/-! ## Requests that a code or a number leads to -/

theorem State.onLane_effect {s : State} {lane : Nat} {edit : Lane → Reply} (h : ∀ n, Effect L s (edit n).state) :
    Effect L s (s.onLane lane edit).state := by
  unfold State.onLane
  split
  · exact .none
  · exact h _

theorem State.onShaft_effect {s : State} {shaft : Nat} {act : Shaft → Reply} (h : ∀ sh, Effect L s (act sh).state) :
    Effect L s (s.onShaft shaft act).state := by
  unfold State.onShaft
  split
  · exact .none
  · exact h _

theorem State.mem_of_named {s : State} {id : Nat} {h : Handle} {r : Reel} (e : s.named id = some (h, r)) :
    s.reel h = some r := by
  unfold State.named at e
  obtain ⟨g, _, e⟩ := Option.bind_eq_some_iff.mp e
  obtain ⟨q, hq, e⟩ := Option.map_eq_some_iff.mp e
  cases e
  exact hq

/-! ## Queries and operator marks -/

theorem State.queryReel_effect (s : State) (id : Nat) : Effect L s (s.queryReel id).state := by
  unfold State.queryReel
  split
  · exact .none
  · next h r e =>
    unfold State.readHeader
    split
    · exact .act (.rewrite (State.mem_of_named e) (r.liveRead_kept _))
    · exact .none

theorem State.findReel_state (s : State) (lane shaft x : Nat) : (s.findReel lane shaft x).state = s := by
  unfold State.findReel
  split
  · unfold State.foundAt
    split <;> rfl
  · rfl

theorem State.listReels_state (s : State) (selection handle : Nat) : (s.listReels selection handle).state = s := by
  unfold State.listReels
  split <;> rfl

theorem State.readMarks_state (s : State) (id page : Nat) : (s.readMarks id page).state = s := by
  unfold State.readMarks
  split
  · rfl
  · split <;> rfl

theorem State.queryShaft_state (s : State) (shaft : Nat) : (s.queryShaft shaft).state = s := by
  unfold State.queryShaft
  split <;> rfl

theorem State.queryLane_state (s : State) (lane : Nat) : (s.queryLane lane).state = s := by
  unfold State.queryLane
  split
  · rfl
  · split <;> rfl

theorem State.clearAlerts_quietly (s : State) (tag : Word16) (alerts : BitVec 24) :
    s.quietly (s.clearAlerts tag alerts).state := by
  unfold State.clearAlerts
  split
  · exact s.updateDigest_quietly _
  · exact s.quietly_refl

theorem State.maskAlerts_hushed (s : State) (alerts : BitVec 24) : s.hushed L (s.maskAlerts alerts).state := by
  have same : s.digest.sameHolds (s.digest.mask alerts) := by simp [DigestUnit.sameHolds, DigestUnit.mask]
  unfold State.maskAlerts
  split
  · exact s.updateDigest_hushed same
  · exact s.hushed_refl

theorem State.addMark_effect (s : State) (shaft : Nat) (lanes : BitVec 24) (back : Nat) :
    Effect L s (s.addMark shaft lanes back).state := by
  unfold State.addMark
  split
  · exact .none
  · split
    · exact .none
    · unfold State.takeMark
      split
      · exact .quiet (s.setPort_hushed _)
      · exact .acts (s.attribute_acts _)

theorem State.overrideGrade_effect (s : State) (id grade : Nat) : Effect L s (s.overrideGrade id grade).state := by
  unfold State.overrideGrade
  split
  · exact .none
  · split
    · exact .none
    · next h r e =>
      split
      · exact .act (.rewrite (State.mem_of_named e) (r.withOverride_kept _))
      · exact .none

theorem State.retire_effect (s : State) (id : Nat) (revision : Word16) : Effect L s (s.retire id revision).state := by
  unfold State.retire
  split
  · exact .none
  · next h r e =>
    split
    · exact .none
    · next doffed =>
      split
      · exact .none
      · exact .retire h r s.hushed_refl (State.mem_of_named e) (not_not.mp doffed) (State.hushed_refl _)

theorem State.endRun_acts {s : State} (rest : s.atRest = true) : Acts L s s.endRun :=
  ((Acts.one (.newRun s rest)).tail (State.armSweep_act ..)).tail (Act.rewriteAll _ Reel.leaveRun_kept)

/-! ## Plans, lanes and shafts -/

theorem putStep_length_le {plan : List PlanStep} {number : Nat} (st : PlanStep) (le : number ≤ 8) (len : plan.length ≤ 8) :
    (putStep plan number st).length ≤ 8 ∧ plan.length ≤ (putStep plan number st).length := by
  unfold putStep
  split <;> simp <;> omega

theorem State.editPlan_effect (s : State) (sh : Shaft) (number : Nat) (st : PlanStep) :
    Effect L s (s.editPlan sh number st).state := by
  unfold State.editPlan
  simp only []
  split
  · exact .none
  · next range =>
    split
    · exact .none
    · refine .act (.shaft s sh _ ⟨⟨?_, id⟩, rfl, rfl, rfl, .rfl⟩)
      rintro ⟨len, idle, inside⟩
      obtain ⟨le, more⟩ := putStep_length_le st (number := number) (by omega) len
      exact ⟨le, idle, fun winds => ⟨(inside winds).1, (inside winds).2.trans more⟩⟩

theorem State.clearPlan_effect (s : State) (shaft : Nat) : Effect L s (s.clearPlan shaft).state := by
  unfold State.clearPlan
  split
  · exact .none
  · split
    · next idle =>
      refine .act (.shaft s _ _ ⟨⟨?_, id⟩, rfl, rfl, rfl, .rfl⟩)
      rintro ⟨_, step, _⟩
      exact ⟨Nat.zero_le _, step, fun winds => absurd idle winds⟩
    · exact .none

theorem State.editGeometry_effect (s : State) (edge width : Nat) (n : Lane) :
    Effect L s (s.editGeometry edge width n).state := by
  unfold State.editGeometry
  split
  · exact .none
  · next range =>
    split
    · exact .none
    · split
      · exact .none
      · split
        · exact .none
        · next apart =>
          refine .act (.geometry s n edge width (by omega) (by omega) (by omega) (by omega) fun on => ?_)
          simpa [on] using apart

theorem State.editShaft_effect (s : State) (sh : Shaft) (n : Lane) : Effect L s (s.editShaft sh n).state := by
  unfold State.editShaft
  split
  · next idle => exact .act (.move s n sh idle.1 idle.2)
  · exact .none

theorem State.editEnable_effect (s : State) (n : Lane) : Effect L s (s.editEnable n).state := by
  unfold State.editEnable
  split
  · exact .none
  · next off =>
    split
    · exact .none
    · next web =>
      split
      · exact .none
      · next apart =>
        exact .enable n s.hushed_refl (by simpa using off) (Nat.not_lt.mp web) (by simpa using apart)
          (State.hushed_refl _)

theorem State.editDisable_effect (s : State) (n : Lane) : Effect L s (s.editDisable n).state := by
  unfold State.editDisable
  split
  · next on => exact .disable n s.hushed_refl on (State.hushed_refl _)
  · exact .none

theorem State.editReference_effect (s : State) (on : Bool) (n : Lane) : Effect L s (s.editReference on n).state := by
  unfold State.editReference
  split
  · split
    · next enabled => exact .act (.refer s n enabled)
    · exact .none
  · exact .act (.lane s n _ ⟨rfl, fun h => by cases h⟩)

theorem State.clearTally_effect (s : State) (lane : Nat) : Effect L s (s.clearTally lane).state := by
  unfold State.clearTally
  split
  · exact .act (.trim s 0)
  · exact State.onLane_effect fun n => .act (.lane s n _ ⟨rfl, id⟩)

theorem State.startShaft_effect (s : State) (sh : Shaft) : Effect L s (s.startShaft sh).state := by
  unfold State.startShaft
  simp only []
  split
  · exact .none
  · next st later plan =>
    split
    · exact .none
    · next rests =>
      split
      · exact .none
      · next spindle =>
        split
        · exact .none
        · exact .start sh st later s.hushed_refl plan (not_not.mp fun h => rests (.inl h))
            (by simpa only [not_and_or, not_not, ne_eq] using spindle) (State.hushed_refl _)

theorem State.stopShaft_effect (s : State) (sh : Shaft) : Effect L s (s.stopShaft sh).state := by
  unfold State.stopShaft
  split
  · exact .none
  · next winds =>
    split
    · exact .none
    · exact .halt sh s.hushed_refl (fun h => winds (.inl h)) (State.hushed_refl _)

theorem State.changeShaft_effect (s : State) (forced : Bool) (sh : Shaft) :
    Effect L s (s.changeShaft forced sh).state := by
  unfold State.changeShaft
  split
  · exact .none
  · exact .none
  · exact .none
  · next winds =>
    unfold State.requestChange
    simp only []
    split
    · exact .none
    · split
      · exact .none
      · split
        · unfold State.refuseRecords
          split
          · exact .act (.beside s sh rfl)
          · exact .none
        · next t e => exact .acts (State.enterPending_acts winds e)

theorem State.withdrawChange_acts {s : State} {sh : Shaft} (pending : (s.shaft sh).phase = .changePending) :
    Acts L s (s.withdrawChange sh) := by
  unfold State.withdrawChange
  have same : ((s.releaseReserved sh).shaft sh).phase = (s.shaft sh).phase := by
    unfold State.releaseReserved
    simp only []
    split
    · rfl
    · rw [State.setShaft_shaft, if_neg (by exact (other_ne sh).symm)]; rfl
  refine (s.releaseReserved_acts sh).tail (.shaft _ sh _ (.phase ?_ ?_ rfl rfl rfl rfl rfl rfl))
  · rw [same, pending]; decide
  · simp [ShaftRec.toPhase, ShaftRec.clearRetry]

theorem State.cancelChange_effect (s : State) (sh : Shaft) : Effect L s (s.cancelChange sh).state := by
  unfold State.cancelChange
  split
  · next pending => exact .acts (State.withdrawChange_acts pending)
  · exact .none

theorem State.unload_acts (s : State) (sh : Shaft) (sp : Spindle) : Acts L s (s.unload sh sp) := by
  have doffs : Acts L s (((s.doff sh sp false).refreshSpindles sh).raise .reelDoffed) :=
    (Acts.one (.unload s sh sp false)).trans (Acts.quiet (State.raise_hushed ..))
  unfold State.unload
  simp only []
  split
  · exact doffs.trans (State.retryAttempt_acts ..)
  · exact doffs

theorem State.unloadSpindle_effect (s : State) (sp : Spindle) (sh : Shaft) : Effect L s (s.unloadSpindle sp sh).state := by
  unfold State.unloadSpindle
  split
  · exact .acts (s.unload_acts sh sp)
  · exact .none

/-! ## Cuts and counts -/

theorem State.cut_effect (s : State) (sh : Shaft) : Effect L s (s.cut sh) := by
  unfold State.cut
  split
  · exact .none
  · next c stamped =>
    split
    · exact .acts (((Acts.one (.beside s sh rfl)).tail (.cutReported _ sh)).trans (State.attributeHeld_acts ..))
    · next winds => exact .cut sh c s.hushed_refl stamped winds (State.hushed_refl _)

theorem State.stampCut_act (s : State) (sh : Shaft) : Act L s (s.setPosition (s.position.stampCut sh)) := by
  unfold PositionUnit.stampCut
  split
  · next absent => exact .stamp s sh absent
  · exact .sense s s.position.direction s.position.line s.position.stopTimer s.position.spliceStamp _

/-! ## Resets -/

/-- A save abandoned changes nothing but the store's EEPROM, save and the counter of free values, and keeps the EEPROM's
form. -/
theorem State.abandonSave_store (s : State) : ∃ save eeprom i,
    s.abandonSave = { s with store := { s.store with save := save, eeprom := eeprom }, freeIndex := i } ∧
      (EepromLaw s → EepromLaw s.abandonSave) := by
  unfold State.abandonSave
  split
  · exact ⟨_, _, _, rfl, id⟩
  · next image saving =>
    refine ⟨_, _, _, rfl, fun ⟨wf, fits⟩ => ⟨?_, fun _ h => by cases h⟩⟩
    have len : image.length ≤ Config.eepromSize := fits image saving
    have size : Config.eepromSize = 2048 := rfl
    show Memory.wf (writePart s.store.eeprom image _)
    unfold writePart
    simp only []
    refine Memory.writeBytes_wf _ _ _ (Memory.writeBytes_wf _ _ _ wf ?_) ?_ <;>
      simp only [List.length_take, List.length_drop, headerLength] <;> omega

theorem State.abandonSave_acts (s : State) : Acts L s s.abandonSave := by
  obtain ⟨save, eeprom, i, e, fits⟩ := s.abandonSave_store
  rw [e] at fits ⊢
  exact (Acts.one (.store s { s.store with save := save, eeprom := eeprom } rfl fits id id (.inr rfl))).tail
    (.quiet (State.setFreeIndex_hushed _ i))

theorem State.abandonSave_reset (s : State) : s.abandonSave.store.reset = s.store.reset := by
  obtain ⟨_, _, _, e, _⟩ := s.abandonSave_store
  rw [e]

/-- A power-up behind an abandoned save. -/
theorem Course.restart {s : State} (kind : ResetKind) (reset : ResetActivity) (loading : Bool)
    (how : (reset = .none ∧ loading = true) ∨ (reset = .clearing ∧ loading = false)) :
    Course s (s.abandonSave.powerUp kind reset loading) := by
  obtain ⟨_, _, _, e, fits⟩ := s.abandonSave_store
  exact .powerUp kind reset loading (by rw [e]) (by rw [e]) how fun h => (fits h).1

theorem Course.acts {s t : State} (h : Acts True s t) : Course s t := .effect (.acts h)

theorem State.takePreserving_acts (s : State) : Acts True s s.takePreserving := by
  have taken : Act True s (s.setStore s.store.preserving) :=
    .store s s.store.preserving rfl id (fun h => by cases h) (fun h => by cases h) (.inl trivial)
  unfold State.takePreserving
  exact (((Acts.one taken).tail (.quiet (State.setPort_hushed ..))).tail (.quiet (State.setHold_quietly ..).loud)).tail
    (.quiet (State.updateDigest_quietly ..).loud)

theorem State.takePreserving_reset (s : State) : s.takePreserving.store.reset = .preserving := rfl

theorem State.takeReset_course (s : State) : Course s s.takeReset := by
  unfold State.takeReset
  split
  · exact .acts (s.abandonSave_acts.trans (State.takePreserving_acts _))
  · exact .restart .warm .clearing false (.inr ⟨rfl, rfl⟩)

theorem State.renewUnits_acts (s : State) : Acts True s s.renewUnits := by
  unfold State.renewUnits State.rebuildHolds
  exact (((((Acts.one (.store s { s.store with reset := .none } rfl id id (fun h => by cases h)
    (.inl trivial))).tail
    (.quiet (State.setPort_hushed ..))).tail (.quiet (State.setLink_hushed ..))).tail
    (.quiet (State.setDigest_quietly ..).loud)).tail (.quiet (State.setHold_quietly ..).loud)).tail
    (.quiet (State.raiseIf_quietly ..).loud)

theorem State.renewEngine_acts (s : State) : Acts True s s.renewEngine :=
  ((Acts.one (.engine s s.engine.renewed fun apart => SweepEngine.renewed_pairwise apart)).trans
    (State.chooseWork_acts _)).tail (.quiet (State.settle_quietly ..).loud)

theorem State.endReset_preserving {s : State} (h : s.store.reset = .preserving) :
    s.endReset = s.renewUnits.renewEngine := by
  unfold State.endReset
  rw [h]

theorem State.endReset_course (s : State) : Course s s.endReset := by
  unfold State.endReset
  split
  · exact .effect .none
  · next clears => exact .begins clears
  · exact .acts (s.renewUnits_acts.trans (State.renewEngine_acts _))

/-- RESET_PART, taken after a quiet change: the port has taken the request. -/
theorem State.resetPart_course {s u : State} (before : s.hushed True u) : Course s u.takeReset.endReset := by
  unfold State.takeReset
  split
  · rw [State.endReset_preserving (State.takePreserving_reset _)]
    exact .acts ((Acts.quiet before).trans ((u.abandonSave_acts.trans (State.takePreserving_acts _)).trans
      ((State.renewUnits_acts _).trans (State.renewEngine_acts _))))
  · obtain ⟨_, _, _, e, fits⟩ := u.abandonSave_store
    obtain ⟨⟨_, _, _, _, _, _, rfl⟩, _⟩ := before
    exact .powerUp (u := State.abandonSave _) .warm .none true (by rw [e]) (by rw [e]) (.inl ⟨rfl, rfl⟩)
      fun h => (fits h).1

theorem State.carryOut_resetPart_course (s : State) :
    Course s (s.carryOut .resetPart fun t => { state := t.takeReset.endReset, answer := none }) := by
  unfold State.carryOut
  simp only [encodeRequest]
  split
  · exact .effect .none
  · exact .effect (.quiet (s.setPort_hushed _))
  · exact .effect (.quiet (s.setPort_hushed _))
  · exact State.resetPart_course s.hushed_refl
  · exact State.resetPart_course (s.setPort_hushed _)

/-! ## Transactions -/

theorem State.takeRequest_frame (s : State) (q : Request) : ∃ p, s.takeRequest q = s.setPort p := by
  unfold State.takeRequest
  simp only []
  split <;> exact ⟨_, rfl⟩

theorem State.endRequest_frame (s : State) (frame : List Byte) : ∃ p, s.endRequest frame = s.setPort p := by
  unfold State.endRequest
  split
  · exact ⟨_, rfl⟩
  · split
    · exact ⟨_, rfl⟩
    · split
      · exact s.takeRequest_frame _
      · exact ⟨_, rfl⟩

theorem State.requestTransaction_frame (s : State) (frame : List Byte) :
    ∃ p, (s.startTransaction .request).endRequest frame = s.setPort p := by
  obtain ⟨p, e⟩ := s.startTransaction_frame .request
  obtain ⟨q, e'⟩ := (s.startTransaction .request).endRequest_frame frame
  rw [e', e]
  exact ⟨q, rfl⟩

/-! ## Saves -/

@[simp] theorem tableBytes_length (t : GradeTable) : (tableBytes t).length = 24 := by
  simp [tableBytes, Maxima.toBytes, bytes16]

theorem length_flatMap_tableBytes (l : List GradeTable) : (l.flatMap tableBytes).length = 24 * l.length := by
  induction l with
  | nil => rfl
  | cons t l ih => simp only [List.flatMap_cons, List.length_append, tableBytes_length, ih, List.length_cons]; omega

theorem ShaftJob.toBody_length (x : ShaftJob) : x.toBody.length = 6 := by
  simp only [ShaftJob.toBody, List.length_append, beBytes_length, List.length_singleton]

theorem Settings.toBody_length (x : Settings) : x.toBody.length = bodyLength := by
  have tables : (x.tables.toList.flatMap tableBytes).length = 192 := by
    rw [length_flatMap_tableBytes, Vector.length_toList]
  unfold Settings.toBody
  generalize x.tables.toList.flatMap tableBytes = l at *
  simp only [List.length_append, beBytes_length, ShaftJob.toBody_length, tables]

theorem Settings.image_length (x : Settings) : x.image.length = headerLength + bodyLength := by
  simp only [Settings.image, imageHeader, List.length_append, beBytes_length, List.length_singleton, x.toBody_length]

theorem State.saved_act {s : State} {image : List Byte} (saving : s.store.save = some image) (outcome : SaveOutcome) :
    Act L s (s.setStore (s.store.saved image outcome)) := by
  cases outcome with
  | done =>
    refine .store s _ rfl (fun ⟨wf, fits⟩ => ⟨?_, fun _ h => by cases h⟩) id id (.inr rfl)
    exact Memory.writeBytes_wf _ _ _ wf (by rw [Nat.zero_add]; exact fits image saving)
  | failed left =>
    refine .store s _ rfl (fun ⟨wf, _⟩ => ⟨?_, fun _ h => by cases h⟩) id id (.inr rfl)
    exact Memory.writeBytes_wf _ _ _ wf (by rw [Nat.zero_add]; exact List.length_take_le ..)

/-! ## The step lemma -/

theorem State.sense_act (s : State) (d : Direction) (l : LineState) (e : Option Nat) :
    Act L s (s.setPosition { s.position with direction := d, line := l, stopTimer := e }) :=
  .sense s d l e s.position.spliceStamp s.position.bounces

theorem State.powerOn_course (s : State) : Course s s.powerOn := by
  unfold State.powerOn
  split
  · exact .restart .powerOn .clearing false (.inr ⟨rfl, rfl⟩)
  · exact .restart .powerOn .none true (.inl ⟨rfl, rfl⟩)

theorem State.sweepArrival_acts {s t : State} {a : Arrival} (h : s.takeArrival .sweep = some (a, t)) (x : Nat) :
    Acts L s (t.trigger.armSweep x) :=
  ((Acts.one (.taken .sweep a trivial h)).trans t.trigger_acts).tail (State.armSweep_act ..)

/-- The commands that start the part, reset it or end a reset or the settings load. -/
def restarts : Instr → Bool
  | .powerOn => true
  | .warmReset => true
  | .resetEnd => true
  | .settingsLoadComplete _ => true
  | .resetPart => true
  | _ => false

/-- The commands that reach into the hold unit, or clear HOLD_CHANGED, themselves: every other one leaves that to the end
of its event. -/
def loud : Instr → Bool
  | .holdTimerExpiry _ => true
  | .overrideExpiry => true
  | .holdOverride => true
  | .clearAlerts _ _ => true
  | .setSettingsTravelWatermarks _ _ => true
  | .setSettingsMarkWatermarks _ _ => true
  | _ => false

/-- An event: what a command does, closed by the hold unit's part. -/
def Event (L : Prop) (s t : State) : Prop := ∃ u, Effect L s u ∧ s.settle u = t

theorem Event.none {s : State} : Event L s s := ⟨s, .none, s.settle_self⟩
theorem Event.settle {s u : State} (h : Effect L s u) : Event L s (s.settle u) := ⟨u, h, rfl⟩
theorem Event.effect {s t : State} (h : Event True s t) : Effect True s t := by
  obtain ⟨u, effect, rfl⟩ := h
  exact effect.settle

/-- Nothing that the hold unit looks at changes. -/
def State.unfed (s t : State) : Prop :=
  t.map.lanes = s.map.lanes ∧ t.shafts = s.shafts ∧ t.position.fault = s.position.fault ∧
    t.travel.free = s.travel.free ∧ t.freeMarks = s.freeMarks ∧ t.hold.level = s.hold.level

theorem State.unfed_refl (s : State) : s.unfed s := ⟨rfl, rfl, rfl, rfl, rfl, rfl⟩

theorem State.unfed.settle {s t : State} (same : s.unfed t) : s.settle t = t := by
  obtain ⟨lanes, shafts, fault, free, marks, level⟩ := same
  exact State.settle_same (State.feeds_congr lanes shafts fault _) free marks level.symm

theorem Event.unfed {s t : State} (same : s.unfed t) (h : Effect L s t) : Event L s t := ⟨t, h, same.settle⟩

/-- A request whose reply the hold unit has no part in. -/
theorem State.unfed_carryOut (s : State) (i : Instr) {act : State → Reply} (same : ∀ t : State, t.unfed (act t).state) :
    s.unfed (s.carryOut i act) := by
  have finish (r : Reply) (q : Byte) (e : s.unfed r.state) : s.unfed (r.finish q) := by
    unfold Reply.finish
    split <;> exact e
  unfold State.carryOut
  split
  · exact s.unfed_refl
  · split
    · exact s.unfed_refl
    · exact s.unfed_refl
    · exact s.unfed_refl
    · exact finish _ _ (same s)
    · exact finish _ _ (same (s.setPort _))

theorem Event.carryOut (s : State) (i : Instr) {act : State → Reply} (same : ∀ t : State, t.unfed (act t).state)
    (h : ∀ t, Effect L t (act t).state) : Event L s (s.carryOut i act) :=
  .unfed (s.unfed_carryOut i same) (s.carryOut_effect i fun t _ => h t)

theorem State.unfed_updateDigest (s : State) (d : DigestUnit) : s.unfed (s.updateDigest d) := by
  obtain ⟨_, e⟩ := s.updateDigest_frame d
  rw [e]
  exact s.unfed_refl

theorem State.unfed_clearAlerts (s : State) (tag : Word16) (alerts : BitVec 24) :
    s.unfed (s.clearAlerts tag alerts).state := by
  unfold State.clearAlerts
  split
  · exact s.unfed_updateDigest _
  · exact s.unfed_refl

theorem State.unfed_maskAlerts (s : State) (alerts : BitVec 24) : s.unfed (s.maskAlerts alerts).state := by
  unfold State.maskAlerts
  split
  · exact s.unfed_updateDigest _
  · exact s.unfed_refl

theorem State.unfed_queryReel (s : State) (reel : Nat) : s.unfed (s.queryReel reel).state := by
  unfold State.queryReel
  split
  · exact s.unfed_refl
  · unfold State.readHeader
    split <;> exact s.unfed_refl

/-- A request that only answers. -/
theorem Event.query (s : State) (i : Instr) {act : State → Reply} (same : ∀ t : State, (act t).state = t) :
    Event L s (s.carryOut i act) :=
  .carryOut s i (fun t => by rw [same]; exact t.unfed_refl) fun t => by rw [same]; exact .none

/-- What every command but those that restart the part and the expiry of a hold's timer does. -/
theorem exec_event {c : Instr} (goes : restarts c = false) (timer : ∀ l, c ≠ .holdTimerExpiry l) (soft : loud c = true → L)
    (s : State) : ∃ t, exec c s = .next t ∧ Event L s t := by
  cases c with
  | powerOn => cases goes
  | warmReset => cases goes
  | resetEnd => cases goes
  | settingsLoadComplete ack => cases goes
  | resetPart => cases goes
  | quadratureChange x y =>
    refine ⟨_, rfl, .settle (.behind (s.setEncoder_hushed (x, y)) ?_)⟩
    split
    · exact .act (.decode _ _)
    · exact .none
  | stopTimerExpiry =>
    refine ⟨_, rfl, ?_⟩
    split
    · exact .unfed s.unfed_refl (.act (s.sense_act _ _ _))
    · exact .none
  | splicePulse =>
    refine ⟨_, rfl, .settle ?_⟩
    split
    · exact .acts ((Acts.one (.sense s s.position.direction s.position.line s.position.stopTimer _
        s.position.bounces)).trans (State.takeSplice_acts _))
    · exact .none
  | cutPulse sh =>
    refine ⟨_, rfl, ?_⟩
    split
    · refine .unfed ⟨rfl, rfl, ?_, rfl, rfl, rfl⟩ (.act (s.stampCut_act sh))
      unfold PositionUnit.stampCut
      split <;> rfl
    · exact .none
  | cutTaken sh => exact ⟨_, rfl, .settle (s.cut_effect sh)⟩
  | knifeWatchArrival =>
    refine ⟨_, rfl, ?_⟩
    split
    · exact .none
    · next a t e => exact .settle (.act (.knife a e))
  | nipWatchArrival sh =>
    refine ⟨_, rfl, ?_⟩
    split
    · exact .none
    · next a t e => exact .settle (.act (.nip sh a e))
  | thresholdArrival sh k =>
    refine ⟨_, rfl, ?_⟩
    split
    · exact .none
    · next a t e => exact .settle (.acts ((Acts.one (.taken (.threshold sh k) a trivial e)).trans (t.takeThreshold_acts sh k _)))
  | automaticRetry sh =>
    refine ⟨_, rfl, ?_⟩
    split
    · exact .none
    · exact .settle (.acts ((Acts.one (.beside s sh rfl)).trans (State.retryAttempt_acts ..)))
  | sweepWatchArrival =>
    refine ⟨_, rfl, ?_⟩
    split
    · exact .none
    · split
      · exact .none
      · next a t e => exact .settle (.acts (State.sweepArrival_acts e _))
  | visitComplete =>
    refine ⟨_, rfl, ?_⟩
    split
    · split
      · exact .none
      · exact .settle (.acts ((s.writeVisit_acts _).trans (State.chooseWork_acts _)))
    · exact .none
  | closingComplete =>
    refine ⟨_, rfl, ?_⟩
    split
    · split
      · exact .none
      · exact .settle (.acts ((s.writeClosing_acts _).trans (State.chooseWork_acts _)))
    · exact .none
  | holdTimerExpiry line => exact absurd rfl (timer line)
  | overrideExpiry =>
    refine ⟨_, rfl, ?_⟩
    split
    · exact .unfed s.unfed_refl (.quiet ⟨s.setHold_quietly _, .inl (soft rfl)⟩)
    · exact .none
  | uartCharacter char err =>
    refine ⟨_, rfl, ?_⟩
    split
    · exact .none
    · exact .settle (.acts (s.takeCharacter_acts char err))
  | gapTimerExpiry =>
    refine ⟨_, rfl, ?_⟩
    split
    · exact .unfed s.unfed_refl (.quiet (State.hushed_trans (s.setLink_hushed _) (State.refuseReport_hushed ..)))
    · exact .none
  | requestTransaction frame =>
    refine ⟨_, rfl, ?_⟩
    split
    · exact .none
    · obtain ⟨p, e⟩ := s.requestTransaction_frame frame
      rw [e]
      exact .unfed s.unfed_refl (.quiet (s.setPort_hushed p))
  | ignoredTransaction => exact ⟨_, rfl, .none⟩
  | answerStart =>
    refine ⟨_, rfl, ?_⟩
    obtain ⟨p, e⟩ := s.startTransaction_frame .answer
    rw [e]
    exact .unfed s.unfed_refl (.quiet (s.setPort_hushed p))
  | answerEnd clocked => exact ⟨_, rfl, .unfed s.unfed_refl (.quiet (s.setPort_hushed _))⟩
  | readDigest => exact ⟨_, rfl, .carryOut s _ State.unfed_refl fun t => .none⟩
  | ackDigest tag =>
    exact ⟨_, rfl, .carryOut s _ State.unfed_refl fun t => .quiet (t.updateDigest_hushed ⟨rfl, rfl⟩)⟩
  | clearAlerts tag alerts =>
    exact ⟨_, rfl, .carryOut s _ (fun t => t.unfed_clearAlerts ..) fun t => .quiet ⟨t.clearAlerts_quietly .., .inl (soft rfl)⟩⟩
  | setAlertMask alerts =>
    exact ⟨_, rfl, .carryOut s _ (fun t => t.unfed_maskAlerts ..) fun t => .quiet (t.maskAlerts_hushed ..)⟩
  | queryReel id => exact ⟨_, rfl, .carryOut s _ (fun t => t.unfed_queryReel _) fun t => t.queryReel_effect _⟩
  | findReel lane shaft position => exact ⟨_, rfl, .query s _ fun t => t.findReel_state ..⟩
  | listReels selection handle => exact ⟨_, rfl, .query s _ fun t => t.listReels_state ..⟩
  | readMarks id page => exact ⟨_, rfl, .query s _ fun t => t.readMarks_state ..⟩
  | queryShaft shaft => exact ⟨_, rfl, .query s _ fun t => t.queryShaft_state _⟩
  | queryLane lane => exact ⟨_, rfl, .query s _ fun t => t.queryLane_state _⟩
  | mapSummary => exact ⟨_, rfl, .query s _ fun t => t.queryLane_state _⟩
  | readSettings => exact ⟨_, rfl, .query s _ fun t => rfl⟩
  | setLaneGeometry lane edge width =>
    exact ⟨_, rfl, .settle (s.carryOut_effect _ fun t _ => State.onLane_effect fun n => t.editGeometry_effect ..)⟩
  | setLaneShaft lane shaft =>
    refine ⟨_, rfl, .settle (s.carryOut_effect _ fun t _ => ?_)⟩
    split
    · exact .none
    · exact State.onLane_effect fun n => t.editShaft_effect ..
  | setLaneEnable lane =>
    exact ⟨_, rfl, .settle (s.carryOut_effect _ fun t _ => State.onLane_effect fun n => t.editEnable_effect n)⟩
  | setLaneDisable lane =>
    exact ⟨_, rfl, .settle (s.carryOut_effect _ fun t _ => State.onLane_effect fun n => t.editDisable_effect n)⟩
  | setLaneReference lane on =>
    refine ⟨_, rfl, .settle (s.carryOut_effect _ fun t _ => ?_)⟩
    split
    · exact .none
    · exact State.onLane_effect fun n => t.editReference_effect ..
  | setLaneClearTally lane => exact ⟨_, rfl, .settle (s.carryOut_effect _ fun t _ => t.clearTally_effect _)⟩
  | setJob job => exact ⟨_, rfl, .settle (s.carryOut_effect _ fun t _ => t.setJob_effect job)⟩
  | setPlanStep shaft number step =>
    refine ⟨_, rfl, .settle (s.carryOut_effect _ fun t _ => ?_)⟩
    unfold State.setPlanStep
    split
    · exact t.editPlan_effect ..
    · exact .none
  | clearPlan shaft => exact ⟨_, rfl, .settle (s.carryOut_effect _ fun t _ => t.clearPlan_effect _)⟩
  | setGradeTable index table => exact ⟨_, rfl, .settle (s.carryOut_effect _ fun t _ => t.setGradeTable_effect ..)⟩
  | stageParent parent =>
    exact ⟨_, rfl, .settle (s.carryOut_effect _ fun t _ =>
      .act (.parent t _ t.travel.spliceRefusals t.travel.tooLate))⟩
  | startShaft shaft =>
    exact ⟨_, rfl, .settle (s.carryOut_effect _ fun t _ => State.onShaft_effect t.startShaft_effect)⟩
  | stopShaft shaft =>
    exact ⟨_, rfl, .settle (s.carryOut_effect _ fun t _ => State.onShaft_effect t.stopShaft_effect)⟩
  | change shaft force =>
    refine ⟨_, rfl, .settle (s.carryOut_effect _ fun t _ => ?_)⟩
    split
    · exact .none
    · exact State.onShaft_effect (t.changeShaft_effect _)
  | cancelChange shaft =>
    exact ⟨_, rfl, .settle (s.carryOut_effect _ fun t _ => State.onShaft_effect t.cancelChange_effect)⟩
  | unloaded shaft spindle =>
    refine ⟨_, rfl, .settle (s.carryOut_effect _ fun t _ => ?_)⟩
    split
    · exact .none
    · exact State.onShaft_effect (t.unloadSpindle_effect _)
  | addMark shaft lanes back => exact ⟨_, rfl, .settle (s.carryOut_effect _ fun t _ => t.addMark_effect ..)⟩
  | overrideGrade id grade => exact ⟨_, rfl, .settle (s.carryOut_effect _ fun t _ => t.overrideGrade_effect ..)⟩
  | retire id revision => exact ⟨_, rfl, .settle (s.carryOut_effect _ fun t _ => t.retire_effect ..)⟩
  | sweep => exact ⟨_, rfl, .settle (s.carryOut_effect _ fun t _ => .acts t.trigger_acts)⟩
  | holdOverride => exact ⟨_, rfl, .settle (s.carryOut_effect _ fun t _ => .quiet ⟨t.startOverride_quietly, .inl (soft rfl)⟩)⟩
  | resetRun =>
    refine ⟨_, rfl, .settle (s.carryOut_effect _ fun t _ => ?_)⟩
    split
    · next rest => exact .acts (State.endRun_acts rest)
    · exact .none
  | setSettingsNEnc value =>
    refine ⟨_, rfl, .settle (s.carryOut_effect _ fun t _ => State.setItem_effect fun valid => ?_)⟩
    simp only [within, Bool.and_eq_true, decide_eq_true_eq] at valid
    exact State.setAtRest_effect (.act (.nEnc t _ valid.1 valid.2))
  | setSettingsStopTimeout value =>
    exact ⟨_, rfl, .settle (s.carryOut_effect _ fun t _ => State.setItem_effect fun valid =>
      .setting rfl rfl rfl fun h => by simp_all [Settings.valid])⟩
  | setSettingsSpliceDebounce value =>
    exact ⟨_, rfl, .settle (s.carryOut_effect _ fun t _ => State.setItem_effect fun valid =>
      .setting rfl rfl rfl fun h => by simp_all [Settings.valid])⟩
  | setSettingsDIk value =>
    exact ⟨_, rfl, .settle (s.carryOut_effect _ fun t _ => State.setItem_effect fun valid =>
      State.setAtRest_effect (.setting rfl rfl rfl fun h => by simp_all [Settings.valid]))⟩
  | setSettingsDSk value =>
    exact ⟨_, rfl, .settle (s.carryOut_effect _ fun t _ => State.setItem_effect fun valid =>
      State.setAtRest_effect (.setting rfl rfl rfl fun h => by simp_all [Settings.valid]))⟩
  | setSettingsDKw sh value =>
    exact ⟨_, rfl, .settle (s.carryOut_effect _ fun t _ => State.setItem_effect fun valid =>
      State.setAtRest_effect (.setting rfl rfl rfl fun h => by cases sh <;> simp_all [Settings.valid, Pair.set]))⟩
  | setSettingsHoldQuantum value =>
    exact ⟨_, rfl, .settle (s.carryOut_effect _ fun t _ => State.setItem_effect fun valid =>
      .setting rfl rfl rfl fun h => by simp_all [Settings.valid])⟩
  | setSettingsSweepInterval value =>
    refine ⟨_, rfl, .settle (s.carryOut_effect _ fun t _ => State.setItem_effect fun valid => .acts ?_)⟩
    refine (Acts.one (.settings t { t.settings with sweepInterval := value.toNat }
      ⟨rfl, fun h => ?_, .inl rfl, .inl rfl⟩ (.inr ⟨rfl, rfl, rfl, rfl⟩))).tail (State.armSweep_act ..)
    simp_all [Settings.valid]
  | setSettingsReelIdCounter value =>
    refine ⟨_, rfl, .settle (s.carryOut_effect _ fun t _ => State.setItem_effect fun valid => .act ?_)⟩
    refine .settings t _ ⟨rfl, fun h => by simp_all [Settings.valid], .inr ?_, .inl rfl⟩ (.inr ⟨rfl, rfl, rfl, rfl⟩)
    simpa [within] using valid
  | setSettingsTravelWatermarks lower upper =>
    refine ⟨_, rfl, .settle (s.carryOut_effect _ fun t _ => State.setItem_effect fun valid =>
      .before (.setting (x := { t.settings with travelLower := lower.toNat, travelUpper := upper.toNat }) rfl rfl rfl
        (fun h => ?_) (.inl (soft rfl))) ⟨State.applyTravelMarks_quietly _, .inl (soft rfl)⟩)⟩
    simp_all [Settings.valid]
  | setSettingsMarkWatermarks lower upper =>
    refine ⟨_, rfl, .settle (s.carryOut_effect _ fun t _ => State.setItem_effect fun valid =>
      .before (.setting (x := { t.settings with markLower := lower.toNat, markUpper := upper.toNat }) rfl rfl rfl
        (fun h => ?_) (.inl (soft rfl))) ⟨State.applyMarkMarks_quietly _, .inl (soft rfl)⟩)⟩
    simp_all [Settings.valid]
  | saveSettings =>
    refine ⟨_, rfl, .settle (s.carryOut_effect _ fun t _ => ?_)⟩
    split
    · exact .none
    · refine .act (.store t _ rfl (fun ⟨wf, _⟩ => ⟨wf, fun image h => ?_⟩) id id (.inr rfl))
      cases h
      rw [Settings.image_length]
      decide
  | saveComplete outcome =>
    refine ⟨_, rfl, ?_⟩
    split
    · exact .none
    · next saving => exact .unfed s.unfed_refl (.act (State.saved_act saving outcome))
  | preserve => exact ⟨_, rfl, .settle (s.carryOut_effect _ fun t _ => .act (.store t _ rfl id id id (.inr rfl)))⟩
  | cancelPreserve => exact ⟨_, rfl, .settle (s.carryOut_effect _ fun t _ => .act (.store t _ rfl id id id (.inr rfl)))⟩

/-- What every command but those that restart the part does. -/
theorem exec_effect {c : Instr} (goes : restarts c = false) (s : State) : ∃ t, exec c s = .next t ∧ Effect True s t := by
  by_cases timer : ∀ l, c ≠ .holdTimerExpiry l
  · obtain ⟨t, next, event⟩ := exec_event (L := True) goes timer (fun _ => trivial) s
    exact ⟨t, next, event.effect⟩
  · obtain ⟨l, rfl⟩ := not_forall_not.mp timer
    refine ⟨_, rfl, ?_⟩
    split
    · exact .none
    · split
      · exact .none
      · exact .quiet (State.quietly_trans (s.setHold_quietly _) (State.announce_quietly ..)).loud

/-- What every command does. -/
theorem exec_course (c : Instr) (s : State) : ∃ t, exec c s = .next t ∧ Course s t := by
  cases goes : restarts c with
  | false =>
    obtain ⟨t, next, effect⟩ := exec_effect goes s
    exact ⟨t, next, .effect effect⟩
  | true =>
    cases c with
    | powerOn => exact ⟨_, rfl, s.powerOn_course⟩
    | warmReset =>
      refine ⟨_, rfl, ?_⟩
      split
      · exact .effect .none
      · exact s.takeReset_course
    | resetEnd => exact ⟨_, rfl, s.endReset_course⟩
    | settingsLoadComplete ack =>
      refine ⟨_, rfl, ?_⟩
      split
      · next loads => exact .load ack loads
      · exact .effect .none
    | resetPart => exact ⟨_, rfl, s.carryOut_resetPart_course⟩
    | _ => cases goes

/-- What every step does: a command from the front of the queue, or a tick. -/
theorem step_course {s t : State} (h : step s = .next t) :
    (t = s.tick ∧ s.pending = []) ∨ ∃ c rest, s.pending = c :: rest ∧ exec c (s.setPending rest) = .next t ∧
      Course (s.setPending rest) t := by
  unfold step at h
  split at h
  · next e => cases h; exact .inl ⟨rfl, e⟩
  · next c rest e =>
    obtain ⟨u, hu, course⟩ := exec_course c (s.setPending rest)
    rw [hu] at h
    cases h
    exact .inr ⟨c, rest, e, hu, course⟩

/-- A law that says nothing of the queue and the timebase is kept by every step where what commands do keeps it. -/
theorem stepKeeps_of_course {law : State → Prop} (tick : ∀ s now pending, law s → law ((s.setNow now).setPending pending))
    (keeps : ∀ {s t}, Course s t → law s → law t) : StepKeeps law := by
  intro s t holds h
  obtain ⟨rfl, _⟩ | ⟨c, rest, _, _, course⟩ := step_course h
  · exact tick s _ _ holds
  · exact keeps course (tick s s.now rest holds)

end Sys2Proof.Machine
end

section
/-! PROOF. The knife map: what a new lane record must be for the lanes to stay apart, and the map order (R18, R19). -/

namespace Sys2Proof.Machine

/-- What R18 and R19 say of the lanes and the map order, but for the current reels. -/
def MapLaw (s : State) : Prop :=
  (∀ n, (s.lane n).edge ≤ 39900 ∧ 100 ≤ (s.lane n).width ∧ (s.lane n).width ≤ 40000) ∧
    (∀ m n, m ≠ n → (s.lane m).enabled = true → (s.lane n).enabled = true →
      (s.lane m).edge + (s.lane m).width ≤ (s.lane n).edge ∨ (s.lane n).edge + (s.lane n).width ≤ (s.lane m).edge) ∧
    (∀ n, (s.lane n).enabled = true → (s.lane n).edge + (s.lane n).width ≤ s.settings.webWidth) ∧
    (∀ n, (s.lane n).reference = true → (s.lane n).enabled = true) ∧
    (∀ m n, (s.lane m).reference = true → (s.lane n).reference = true → (s.lane m).shaft = (s.lane n).shaft → m = n) ∧
    (∀ n, (s.lane n).untracked = true → (s.lane n).enabled = true ∧ (s.lane n).current = none) ∧ OrderLaw s

theorem laneLaw_and_orderLaw_iff {s : State} : LaneLaw s ∧ OrderLaw s ↔ BlankLaw s ∧ MapLaw s := by
  simp only [LaneLaw, MapLaw, and_assoc]

theorem mapLaw_of_initial {s : State} (h : s.map = .initial) : MapLaw s := by
  have lane (n : Lane) : s.lane n = .initial := by unfold State.lane; rw [h]; exact State.reset_lane n
  refine ⟨fun n => by rw [lane]; decide, fun m n _ on => ?_, fun n on => ?_, fun n on => ?_, fun m n on => ?_, fun n on => ?_, ?_⟩
  iterate 5 rw [lane] at on; cases on
  refine ⟨by rw [h]; exact .refl _, ?_⟩
  rw [h]
  exact (List.pairwise_lt_finRange 24).imp fun {m n} lt => .inr ⟨by rw [lane, lane], lt⟩

/-- Ranges that do not meet stand apart. -/
theorem apart_of_not_meet {a v b w : Nat} (hv : 0 < v) (hw : 0 < w) (h : rangesMeet a v b w = false) :
    a + v ≤ b ∨ b + w ≤ a := by
  simp only [rangesMeet, decide_eq_false_iff_not] at h
  omega

theorem State.apart_of_overlapsOther {s : State} {n m : Lane} {edge width : Nat} (hw : 0 < width)
    (hm : 0 < (s.lane m).width) (h : s.overlapsOther n edge width = false) (ne : m ≠ n)
    (on : (s.lane m).enabled = true) :
    edge + width ≤ (s.lane m).edge ∨ (s.lane m).edge + (s.lane m).width ≤ edge := by
  refine apart_of_not_meet hw hm ?_
  have all := List.any_eq_false.mp h m (List.mem_finRange m)
  simpa [ne, on] using all

/-- A lane's new range, apart from those of the other enabled lanes, with a record otherwise sound. -/
theorem MapLaw.setLane {s : State} (law : MapLaw s) {n : Lane} {k : LaneRec} {order : List Lane}
    (range : k.edge ≤ 39900 ∧ 100 ≤ k.width ∧ k.width ≤ 40000)
    (apart : k.enabled = true → ∀ m, m ≠ n → (s.lane m).enabled = true →
      k.edge + k.width ≤ (s.lane m).edge ∨ (s.lane m).edge + (s.lane m).width ≤ k.edge)
    (web : k.enabled = true → k.edge + k.width ≤ s.settings.webWidth)
    (reference : k.reference = true → k.enabled = true ∧ ∀ m, m ≠ n → (s.lane m).reference = true →
      (s.lane m).shaft ≠ k.shaft)
    (untracked : k.untracked = true → k.enabled = true ∧ k.current = none)
    (sorted : OrderLaw ((s.setLane n k).setMap { (s.setLane n k).map with order := order })) :
    MapLaw ((s.setLane n k).setMap { (s.setLane n k).map with order := order }) := by
  obtain ⟨ranges, aparts, webs, references, unique, untrackeds, _⟩ := law
  have lane (m : Lane) : ((s.setLane n k).setMap { (s.setLane n k).map with order := order }).lane m =
      if m = n then k else s.lane m := State.setLane_lane s n m k
  refine ⟨fun m => ?_, fun l m ne => ?_, fun m => ?_, fun m => ?_, fun l m => ?_, fun m => ?_, sorted⟩
  · rw [lane]; split
    · exact range
    · exact ranges m
  · rw [lane, lane]
    split
    · next e =>
      split
      · next e' => exact absurd (e.trans e'.symm) ne
      · next e' => exact fun on onm => apart on m e' onm
    · next e =>
      split
      · exact fun onl on => (apart on l e onl).symm
      · exact aparts l m ne
  · rw [lane]; split
    · exact web
    · exact webs m
  · rw [lane]; split
    · exact fun on => (reference on).1
    · exact references m
  · rw [lane, lane]
    split
    · next e =>
      split
      · next e' => exact fun _ _ _ => e.trans e'.symm
      · next e' => exact fun on onm same => absurd same.symm ((reference on).2 m e' onm)
    · next e =>
      split
      · exact fun onl on same => absurd same ((reference on).2 l e onl)
      · exact unique l m
  · rw [lane]; split
    · exact untracked
    · exact untrackeds m

/-- A lane record written without a new range. -/
theorem MapLaw.setLane_steady {s : State} (law : MapLaw s) {n : Lane} {k : LaneRec}
    (edge : k.edge = (s.lane n).edge) (width : k.width = (s.lane n).width)
    (enabled : k.enabled = true → (s.lane n).enabled = true ∨ ((s.lane n).edge + (s.lane n).width ≤ s.settings.webWidth ∧
      s.overlapsOther n (s.lane n).edge (s.lane n).width = false))
    (reference : k.reference = true → k.enabled = true ∧ (s.lane n).reference = true ∧ k.shaft = (s.lane n).shaft)
    (untracked : k.untracked = true → k.enabled = true ∧ k.current = none) : MapLaw (s.setLane n k) := by
  obtain ⟨ranges, aparts, webs, _, unique, _, perm, sorted⟩ := id law
  have edges (m : Lane) : ((s.setLane n k).lane m).edge = (s.lane m).edge := by
    rw [State.setLane_lane]; split
    · next e => rw [edge, e]
    · rfl
  refine law.setLane (order := s.map.order) (by rw [edge, width]; exact ranges n) ?_ ?_ ?_ untracked ⟨perm, ?_⟩
  · intro on m ne onm
    rw [edge, width]
    obtain on | ⟨_, apart⟩ := enabled on
    · exact aparts n m ne.symm on onm
    · exact State.apart_of_overlapsOther (by have := (ranges n).2.1; omega) (by have := (ranges m).2.1; omega) apart ne onm
  · intro on
    rw [edge, width]
    obtain on | ⟨web, _⟩ := enabled on
    · exact webs n on
    · exact web
  · intro on
    obtain ⟨onk, onn, same⟩ := reference on
    exact ⟨onk, fun m ne onm e => ne (unique m n onm onn (e.trans same))⟩
  · refine sorted.imp fun {l m} before => ?_
    rw [← edges l, ← edges m] at before
    exact before

/-- Lane records written beside their ranges, and enabling none. -/
theorem MapLaw.of_lanes {s t : State} (law : MapLaw s) (order : t.map.order = s.map.order)
    (web : t.settings.webWidth = s.settings.webWidth)
    (range : ∀ n, (t.lane n).edge = (s.lane n).edge ∧ (t.lane n).width = (s.lane n).width)
    (enabled : ∀ n, (t.lane n).enabled = true → (s.lane n).enabled = true)
    (reference : ∀ n, (t.lane n).reference = true → (t.lane n).enabled = true)
    (unique : ∀ m n, (t.lane m).reference = true → (t.lane n).reference = true → (t.lane m).shaft = (t.lane n).shaft → m = n)
    (untracked : ∀ n, (t.lane n).untracked = true → (t.lane n).enabled = true ∧ (t.lane n).current = none) :
    MapLaw t := by
  obtain ⟨ranges, aparts, webs, _, _, _, perm, sorted⟩ := law
  refine ⟨fun n => ?_, fun m n ne om on => ?_, fun n on => ?_, reference, unique, untracked, order ▸ perm, ?_⟩
  · rw [(range n).1, (range n).2]; exact ranges n
  · rw [(range n).1, (range n).2, (range m).1, (range m).2]; exact aparts m n ne (enabled m om) (enabled n on)
  · rw [(range n).1, (range n).2, web]; exact webs n (enabled n on)
  · rw [order]
    refine sorted.imp fun {m n} before => ?_
    rw [(range m).1, (range n).1]
    exact before

theorem MapLaw.mapLanes_part {s : State} (law : MapLaw s) (sh : Shaft) :
    MapLaw (s.mapLanes fun l => if l.shaft = sh then { l with current := none, untracked := false } else l) := by
  obtain ⟨_, _, _, references, unique, untrackeds, _⟩ := id law
  have lane (n : Lane) : ∃ c u, (s.mapLanes fun l => if l.shaft = sh then
      { l with current := none, untracked := false } else l).lane n =
        { s.lane n with current := c, untracked := u } ∧ (u = true → (s.lane n).untracked = true ∧ c = (s.lane n).current) := by
    rw [State.mapLanes_lane]
    split
    · exact ⟨_, _, rfl, fun h => by cases h⟩
    · exact ⟨_, _, rfl, fun h => ⟨h, rfl⟩⟩
  refine law.of_lanes (State.mapLanes_order ..) (by simp [State.settings]) (fun n => ?_) (fun n => ?_) (fun n => ?_) (fun m n => ?_) fun n => ?_
  all_goals obtain ⟨c, u, e, hu⟩ := lane n; rw [e]
  · exact ⟨rfl, rfl⟩
  · exact id
  · exact references n
  · obtain ⟨_, _, e, _⟩ := lane m; rw [e]; exact unique m n
  · intro on
    obtain ⟨on, same⟩ := hu on
    obtain ⟨enabled, none⟩ := untrackeds n on
    exact ⟨enabled, same.trans none⟩

theorem MapLaw.setReference {s : State} (law : MapLaw s) {n : Lane} (on : (s.lane n).enabled = true) :
    MapLaw (s.setReference n) := by
  obtain ⟨_, _, _, references, unique, untrackeds, _⟩ := id law
  have lane (m : Lane) : ∃ b, (s.setReference n).lane m = { s.lane m with reference := b } ∧
      (b = true → m = n ∨ ((s.lane m).reference = true ∧ (s.lane m).shaft ≠ (s.lane n).shaft)) := by
    unfold State.setReference
    rw [State.setLane_lane, State.mapLanes_lane]
    split
    · next e => exact ⟨true, by rw [e], fun _ => .inl e⟩
    · split
      · exact ⟨false, rfl, fun h => by cases h⟩
      · next ne => exact ⟨_, rfl, fun h => .inr ⟨h, ne⟩⟩
  have order : (s.setReference n).map.order = s.map.order := by
    unfold State.setReference
    simp
  refine law.of_lanes order (by unfold State.setReference; simp [State.settings]) (fun l => ?_) (fun l => ?_) (fun l => ?_) (fun m l => ?_) fun l => ?_
  all_goals obtain ⟨b, e, hb⟩ := lane l; rw [e]
  · exact ⟨rfl, rfl⟩
  · exact id
  · intro h
    obtain rfl | h := hb h
    · exact on
    · exact references l h.1
  · obtain ⟨c, e, hc⟩ := lane m
    rw [e]
    intro hm hl same
    obtain rfl | ⟨hm, apart⟩ := hc hm
    · obtain rfl | ⟨_, apart⟩ := hb hl
      · rfl
      · exact absurd same.symm apart
    · obtain rfl | ⟨hl, _⟩ := hb hl
      · exact absurd same apart
      · exact unique m l hm hl same
  · exact untrackeds l

/-! ## The map order -/

theorem State.placeLane_perm (s : State) (n : Lane) (edge : Nat) (l : List Lane) : (s.placeLane n edge l).Perm (n :: l) := by
  induction l with
  | nil => exact .refl _
  | cons m ms ih =>
    unfold State.placeLane
    split
    · exact (ih.cons m).trans (.swap n m ms)
    · exact .refl _

/-- Lane m stands before lane n in the map order where the lanes have these left edges (R19). -/
def standsAhead (edge : Lane → Nat) (m n : Lane) : Prop := edge m < edge n ∨ (edge m = edge n ∧ m < n)

/-- Lane n put at its place keeps the order by edge and number, in which n has its new edge. -/
theorem State.placeLane_sorted {s : State} {n : Lane} {edge : Lane → Nat} (others : ∀ m, m ≠ n → edge m = (s.lane m).edge)
    {l : List Lane} (fresh : n ∉ l) (sorted : l.Pairwise (standsAhead edge)) :
    (s.placeLane n (edge n) l).Pairwise (standsAhead edge) := by
  induction l with
  | nil => exact List.pairwise_singleton _ _
  | cons m ms ih =>
    have ne : m ≠ n := fun e => fresh (e ▸ List.mem_cons_self)
    obtain ⟨first, rest⟩ := List.pairwise_cons.mp sorted
    have test : s.standsBefore m (edge n) n = true ↔ standsAhead edge m n := by
      simp [State.standsBefore, standsAhead, others m ne]
    unfold State.placeLane
    split
    · next h =>
      refine List.pairwise_cons.mpr ⟨fun k hk => ?_, ih (fun h => fresh (List.mem_cons_of_mem _ h)) rest⟩
      obtain rfl | hk := List.mem_cons.mp ((s.placeLane_perm n (edge n) ms).mem_iff.mp hk)
      · exact test.mp h
      · exact first k hk
    · next h =>
      have nm : standsAhead edge n m := by
        have := mt test.mpr h
        have := Fin.val_ne_of_ne ne
        simp only [standsAhead, Fin.lt_def] at *
        omega
      refine List.pairwise_cons.mpr ⟨fun k hk => ?_, sorted⟩
      obtain rfl | hk := List.mem_cons.mp hk
      · exact nm
      · have := first k hk
        simp only [standsAhead, Fin.lt_def] at *
        omega

theorem State.moveLane_perm {s : State} (perm : s.map.order.Perm (List.finRange 24)) (n : Lane) (e : Nat) :
    (s.moveLane n e).Perm (List.finRange 24) := by
  have nodup : s.map.order.Nodup := perm.nodup_iff.mpr (List.nodup_finRange 24)
  have others : (s.map.order.filter fun m => decide (m ≠ n)) = s.map.order.erase n := by
    rw [nodup.erase_eq_filter]
    exact List.filter_congr fun m _ => by rw [Bool.eq_iff_iff]; simp
  refine (s.placeLane_perm n e _).trans (.trans ?_ perm)
  rw [others]
  exact (List.perm_cons_erase (perm.mem_iff.mpr (List.mem_finRange n))).symm

theorem MapLaw.placeGeometry {s : State} (law : MapLaw s) {n : Lane} {e w : Nat} (edge : e ≤ 39900) (least : 100 ≤ w)
    (most : w ≤ 40000) (web : e + w ≤ s.settings.webWidth)
    (apart : (s.lane n).enabled = true → s.overlapsOther n e w = false) : MapLaw (s.placeGeometry n e w) := by
  obtain ⟨ranges, _, _, references, unique, untrackeds, perm, sorted⟩ := id law
  refine law.setLane (k := { s.lane n with edge := e, width := w }) (order := s.moveLane n e) ⟨edge, least, most⟩ ?_
    (fun _ => web) ?_ (untrackeds n) ⟨State.moveLane_perm perm n e, ?_⟩
  · intro on m ne onm
    exact State.apart_of_overlapsOther (Nat.lt_of_lt_of_le (by decide) least)
      (Nat.lt_of_lt_of_le (by decide) (ranges m).2.1) (apart on) ne onm
  · exact fun on => ⟨references n on, fun m ne onm same => ne (unique m n onm on same)⟩
  · let edges (m : Lane) : Nat := if m = n then e else (s.lane m).edge
    have lane (m : Lane) : (((s.setLane n { s.lane n with edge := e, width := w }).setMap
        { (s.setLane n { s.lane n with edge := e, width := w }).map with order := s.moveLane n e }).lane m).edge =
        edges m := by
      refine (congrArg LaneRec.edge (State.setLane_lane ..)).trans ?_
      by_cases h : m = n <;> simp [edges, h]
    have placed : (s.placeLane n (edges n) (s.map.order.filter fun m => decide (m ≠ n))).Pairwise (standsAhead edges) := by
      refine State.placeLane_sorted (fun m ne => if_neg ne) (fun h => ?_) ?_
      · simpa using List.of_mem_filter h
      · refine (List.pairwise_filter.mpr (sorted.imp fun {l m} ahead hl hm => ?_))
        simp only [decide_eq_true_eq] at hl hm
        simpa only [standsAhead, edges, if_neg hl, if_neg hm] using ahead
    rw [show edges n = e from if_pos rfl] at placed
    simp only [lane]
    exact placed

end Sys2Proof.Machine
end

section
/-! PROOF. A pass over the travel list as single falls, and every act and every part of an event as deeds: writes of one
block each, with what the laws of that block say of them. -/

namespace Sys2Proof.Machine

/-! ## Passes -/

/-- The position unit with other watches, arrivals and latches. -/
def PositionUnit.Beside (u v : PositionUnit) : Prop :=
  v = { u with watches := v.watches, arrivals := v.arrivals, latch := v.latch }

theorem PositionUnit.Beside.refl (u : PositionUnit) : u.Beside u := rfl

theorem PositionUnit.Beside.trans {u v w : PositionUnit} (h : u.Beside v) (k : v.Beside w) : u.Beside w := by
  rw [PositionUnit.Beside, k, h]

/-- One write within a pass: a landing, a tally, the trim tally, or a write of the travel list and the watches. -/
inductive Fall : State → State → Prop
  | land (s) (h : Handle) (m : Mark) : Fall s (s.land h m)
  | tally (s) (n : Lane) : Fall s (s.countUntracked n)
  | trim (s) (k : Nat) : Fall s (s.setMap { s.map with trim := k })
  | web (s) (u : PositionUnit) (tr : TravelList) (h : s.position.Beside u) : Fall s ((s.setPosition u).setTravel tr)

/-- Falls in a row. -/
abbrev Falls := Relation.ReflTransGen Fall

theorem Fall.travel (s : State) (tr : TravelList) : Fall s (s.setTravel tr) := .web s s.position tr (.refl _)

theorem Fall.watches {s t : State} (h : ∃ w a, t = { s with position := { s.position with watches := w, arrivals := a } }) :
    Fall s t := by
  obtain ⟨w, a, rfl⟩ := h
  exact .web s _ s.travel rfl

theorem State.countTrim_falls (s : State) (lo hi : Nat) : Falls s (s.countTrim lo hi) := by
  unfold State.countTrim
  split
  · exact .single (.trim s _)
  · exact .refl

theorem State.releaseLane_falls (s : State) (sh : Shaft) (e : NipEntry) (l : LaneHit) :
    Falls s (s.releaseLane sh e l) := by
  unfold State.releaseLane
  split
  · exact .single (.land ..)
  · unfold State.missed
    simp only []
    split
    · exact .tail (.single (.tally s _)) (.travel ..)
    · exact .single (.tally s _)

theorem State.releasePass_falls (s : State) (sh : Shaft) : Falls s (s.releasePass sh) := by
  have entry (s : State) (e : NipEntry) : Falls s (State.releaseEntry sh s e) :=
    (foldl_rel (fun _ => .refl) (fun h k => h.trans k) (fun t l => t.releaseLane_falls sh e l) e.lanes s).tail
      (.travel ..)
  unfold State.releasePass
  exact ((Relation.ReflTransGen.single (.travel ..)).trans
    (foldl_rel (fun _ => .refl) (fun h k => h.trans k) entry _ _)).tail (.watches (State.setNipWatch_frame ..))

theorem State.resolveEntry_falls (s : State) (e : ApproachEntry) : Falls s (s.resolveEntry e) := by
  have report (t : State) (f : Finding) (sh : Shaft) (lanes : List LaneHit) : Falls t (t.addReport e f sh lanes) := by
    unfold State.addReport
    split
    · exact .refl
    · exact .single (.travel ..)
  have slots : Falls s (s.setTravel { s.travel with free := s.travel.free + 2 }) := .single (.travel ..)
  unfold State.resolveEntry
  simp only []
  split
  · exact ((slots.trans (State.countTrim_falls ..)).trans (report ..)).trans (report ..)
  · exact (slots.tail (.travel ..)).tail (.travel ..)

theorem State.passIfGained_falls (before s : State) (sh : Shaft) : Falls s (before.passIfGained s sh) := by
  unfold State.passIfGained
  split
  · exact s.releasePass_falls sh
  · exact .refl

theorem State.knifePass_falls (s : State) : Falls s s.knifePass := by
  unfold State.knifePass
  exact ((((Relation.ReflTransGen.single (.travel ..)).trans
    (foldl_rel (fun _ => .refl) (fun h k => h.trans k) State.resolveEntry_falls _ _)).trans
    (State.passIfGained_falls ..)).trans (State.passIfGained_falls ..)).tail (.watches (State.setKnifeWatch_frame _))

theorem State.acceptEntry_falls (s : State) (e : ApproachEntry) : Falls s (s.acceptEntry e) := by
  unfold State.acceptEntry
  simp only []
  split
  · exact (Relation.ReflTransGen.single (.travel ..)).trans (State.knifePass_falls _)
  · exact .tail (.single (.travel ..)) (.watches (State.setKnifeWatch_frame _))

/-- An arrival taken leaves the list of those waiting, and nothing else is touched. -/
theorem State.takeArrival_frame {s t : State} {w : Watch} {a : Arrival} (h : s.takeArrival w = some (a, t)) :
    ∃ l, t = { s with position := { s.position with arrivals := l } } := by
  unfold State.takeArrival at h
  split at h
  · cases h
  · cases h; exact ⟨_, rfl⟩

theorem State.takeArrival_falls {s t : State} {w : Watch} {a : Arrival} (h : s.takeArrival w = some (a, t)) : Falls s t := by
  obtain ⟨l, e⟩ := State.takeArrival_frame h
  exact .single (.watches ⟨s.position.watches, l, e⟩)

theorem State.clearLatch_fall (s : State) (sh : Shaft) : Fall s (s.clearLatch sh) := .web s _ s.travel rfl

end Sys2Proof.Machine
end

section
/-! PROOF. Deeds: writes of one block each, with what the laws of the block need of them. Every act, every part of an
event that opens or closes records and so every command is a row of deeds, but for the freeing of a record, a power-on and
the completion of the settings load. -/

namespace Sys2Proof.Machine

variable {L : Prop}

/-! ## Counting -/

theorem countUp_range {n p r : Nat} (hn : 0 < n) (hp : p ≤ maxPosition) :
    (countUp n p r).1 ≤ maxPosition ∧ (countUp n p r).2.1 < n := by
  unfold countUp
  simp only []
  split
  · next h => exact ⟨h, Nat.mod_lt _ hn⟩
  · exact ⟨max_le hp le_rfl, hn⟩

theorem countDown_range {n p r : Nat} (hr : r < n) (hp : p ≤ maxPosition) :
    (countDown n p r).1 ≤ maxPosition ∧ (countDown n p r).2 < n := by
  unfold countDown
  split
  · exact ⟨hp, by simp only []; omega⟩
  · next lt =>
    simp only []
    split
    · refine ⟨(Nat.sub_le ..).trans hp, ?_⟩
      have split : n * ceilDiv (1000 - r) n + (1000 - r + (n - 1)) % n = 1000 - r + (n - 1) := Nat.div_add_mod ..
      have rest := Nat.mod_lt (1000 - r + (n - 1)) (show 0 < n by omega)
      rw [Nat.mul_comm]
      omega
    · exact ⟨Nat.zero_le _, by simp only []; omega⟩

theorem State.positionLimit_web (s : State) : s.positionLimit.position = { s.position with fault := true } := by
  unfold State.positionLimit
  split
  · next h => rw [← h]
  · rfl

/-- Where a forward count moves the web. -/
theorem State.forwardCount_web (s : State) :
    s.forwardCount.position.p = (countUp s.settings.nEnc s.position.p s.position.r).1 ∧
      s.forwardCount.position.r = (countUp s.settings.nEnc s.position.p s.position.r).2.1 := by
  unfold State.forwardCount
  simp only []
  generalize countUp s.settings.nEnc s.position.p s.position.r = c
  have limit (t : State) : (if c.2.2 = true then t.positionLimit else t).position.p = t.position.p ∧
      (if c.2.2 = true then t.positionLimit else t).position.r = t.position.r := by
    split
    · rw [State.positionLimit_web]; exact ⟨rfl, rfl⟩
    · exact ⟨rfl, rfl⟩
  split
  · obtain ⟨w, l, e⟩ := State.reportAll_frame (if c.2.2 = true then
      ((s.setPosition { s.position with p := c.1, r := c.2.1 }).moved .forward).positionLimit else
      ((s.setPosition { s.position with p := c.1, r := c.2.1 }).moved .forward))
    rw [e]
    exact limit _
  · exact limit _

theorem State.decodePair_range (s : State) (pair : Bool × Bool) (h : PositionLaw s) :
    (s.decodePair pair).position.p ≤ maxPosition ∧ (s.decodePair pair).position.r < s.settings.nEnc := by
  obtain ⟨hp, hr, _⟩ := h
  unfold State.decodePair
  simp only []
  split
  · rw [(State.forwardCount_web _).1, (State.forwardCount_web _).2]
    exact countUp_range (Nat.zero_lt_of_lt hr) hp
  · split
    · exact countDown_range hr hp
    · exact ⟨hp, hr⟩

theorem State.setPosition_calm (s : State) (u : PositionUnit) : s.calm (s.setPosition u) := State.calm_of_same rfl rfl rfl

/-- The first count that P cannot take raises POSITION_LIMIT, and no count another alert (R4). -/
theorem State.forwardCount_calm (s : State) : s.calm s.forwardCount := by
  unfold State.forwardCount
  simp only []
  have moved : s.calm ((s.setPosition { s.position with
      p := (countUp s.settings.nEnc s.position.p s.position.r).1
      r := (countUp s.settings.nEnc s.position.p s.position.r).2.1 }).moved .forward) :=
    State.calm_of_same rfl rfl rfl
  generalize (s.setPosition _).moved .forward = t at moved
  have limited : s.calm (if (countUp s.settings.nEnc s.position.p s.position.r).2.2 = true then t.positionLimit else t) := by
    split
    · unfold State.positionLimit
      split
      · exact moved
      · exact State.calm_trans moved (State.calm_trans (t.setPosition_calm _)
          (State.updateDigest_calm (DigestUnit.raise_sameHolds _ (by simp))))
    · exact moved
  generalize (if (countUp s.settings.nEnc s.position.p s.position.r).2.2 = true then t.positionLimit else t) = u at limited
  split
  · obtain ⟨w, l, e⟩ := u.reportAll_frame
    rw [e]
    exact State.calm_trans limited (State.calm_of_same rfl rfl rfl)
  · exact limited

theorem State.decodePair_calm (s : State) (pair : Bool × Bool) : s.calm (s.decodePair pair) := by
  have start := s.setPosition_calm { s.position with reference := pair }
  unfold State.decodePair
  simp only []
  split
  · exact State.calm_trans start (State.forwardCount_calm _)
  · split
    · exact State.calm_trans start (State.calm_of_same rfl rfl rfl)
    · exact start

theorem Settings.valid_nEnc {x : Settings} {n : Nat} (lo : 200 ≤ n) (hi : n ≤ 200000) (v : x.valid = true) :
    { x with nEnc := n }.valid = true := by
  have range : within 200 200000 n = true := by simp [within, lo, hi]
  simp_all [Settings.valid]

/-! ## Openings -/

/-- The reserved counts after an opening charged to the pool (R40). -/
def Pool.charged (pool : Pool) (sh : Shaft) (reserved : Pair Nat) : Pair Nat :=
  match pool with
  | .unreserved => reserved
  | .reservation => reserved.set sh (reserved.get sh - 1)

/-- An opening for a lane that fills the FREE record of a handle and charges the pool (R33, R40, R122). -/
def State.OpensAt (s t : State) (n : Lane) (sh : Shaft) (sp : Spindle) (x : Nat) (pool : Pool) (flags : ReelFlags)
    (h : Handle) (st : PlanStep) : Prop :=
  ∃ p q, t = { s with
    map := { s.map with lanes := s.map.lanes.set n { s.lane n with current := some h, untracked := false } }
    table := {
      reels := s.table.reels.set h (some (s.newReel n sh sp x flags st))
      free := s.table.free - 1
      reserved := pool.charged sh s.table.reserved }
    store := { s.store with settings := { s.settings with
      reelIdCounter := stepId (s.newReel n sh sp x flags st).id } }
    shafts := s.shafts.set sh { s.shaft sh with spindle1 := p, spindle2 := q } }

/-- An opening that is met and finds a FREE record takes the lowest (R40, R41). -/
theorem State.openForLane_opens {s : State} {n : Lane} {sh : Shaft} {sp : Spindle} {x : Nat} {pool : Pool}
    {flags : ReelFlags} {h : Handle} {t : State} (e : s.openRecord n sh sp x pool flags = some (h, t)) :
    ∃ st, s.poolMeets sh pool = true ∧ (s.shaft sh).currentStep = some st ∧ s.reel h = none ∧
      (∀ g, g < h → (s.reel g).isSome) ∧
      s.OpensAt (s.openForLane n sh sp x pool flags) n sh sp x pool flags h st := by
  obtain ⟨st, met, step, isFree, lowest, table, settings⟩ := State.openRecord_spec e
  refine ⟨st, met, step, isFree, lowest, ?_⟩
  unfold State.openForLane
  rw [e]
  obtain ⟨u, c, rfl⟩ := State.openRecord_frame e
  have counter : c = stepId (s.newReel n sh sp x flags st).id := congrArg Settings.reelIdCounter settings
  have filled : u = ⟨s.table.reels.set h (some (s.newReel n sh sp x flags st)), s.table.free - 1,
      pool.charged sh s.table.reserved⟩ := by
    refine table.trans ?_
    cases pool <;> rfl
  rw [counter, filled]
  exact ⟨_, _, rfl⟩

/-- What an opening for a lane comes to: a FREE record filled and the pool charged, or the lane UNTRACKED (R33, R40, R122). -/
theorem State.openForLane_cases (s : State) (n : Lane) (sh : Shaft) (sp : Spindle) (x : Nat) (pool : Pool)
    (flags : ReelFlags) :
    (∃ h st p q, s.poolMeets sh pool = true ∧ (s.shaft sh).currentStep = some st ∧ s.reel h = none ∧
      (∀ g, g < h → (s.reel g).isSome) ∧
      s.openForLane n sh sp x pool flags = { s with
        map := { s.map with lanes := s.map.lanes.set n { s.lane n with current := some h, untracked := false } }
        table := {
          reels := s.table.reels.set h (some (s.newReel n sh sp x flags st))
          free := s.table.free - 1
          reserved := pool.charged sh s.table.reserved }
        store := { s.store with settings := { s.settings with
          reelIdCounter := stepId (s.newReel n sh sp x flags st).id } }
        shafts := s.shafts.set sh { s.shaft sh with spindle1 := p, spindle2 := q } }) ∨
    s.openForLane n sh sp x pool flags = s.setLane n { s.lane n with current := none, untracked := true } := by
  cases e : s.openRecord n sh sp x pool flags with
  | some o =>
    obtain ⟨st, met, step, isFree, lowest, p, q, opens⟩ := State.openForLane_opens (h := o.1) (t := o.2) e
    exact .inl ⟨o.1, st, p, q, met, step, isFree, lowest, opens⟩
  | none =>
    unfold State.openForLane
    rw [e]
    exact .inr rfl

/-! ## Deeds -/

theorem State.mapLanes_map (s : State) (f : LaneRec → LaneRec) : s.mapLanes f = s.setMap (s.mapLanes f).map := rfl

theorem State.setReference_map (s : State) (n : Lane) : s.setReference n = s.setMap (s.setReference n).map := by
  have key (m : KnifeMap) (k : LaneRec) : (s.setMap m).setLane n k = s.setMap ((s.setMap m).setLane n k).map := rfl
  unfold State.setReference
  rw [State.mapLanes_map]
  exact key _ _

/-- A record written in place without a landing. -/
def Reel.Same (r q : Reel) : Prop := q.id = r.id ∧ q.chain = r.chain ∧ q.parents = r.parents

/-- A write of one block, with what the laws of the block need of it. -/
inductive Deed (L : Prop) : State → State → Prop
  | quiet {s t} (h : s.hushed L t) : Deed L s t
  | store (s) (x : SettingsStore) (same : x.settings = s.settings) (fits : EepromLaw s → EepromLaw (s.setStore x))
      (load : x.loading = true → s.store.loading = true) (clear : x.reset = .clearing → s.store.reset = .clearing)
      (stays : L ∨ x.reset = s.store.reset) : Deed L s (s.setStore x)
  | begins (s) (loud : L) (clears : s.store.reset = .clearing) :
      Deed L s (s.setStore { s.store with reset := .none, loading := true })
  | settings (s) (x : Settings) (range : PositionLaw s → PositionLaw (s.setSettings x))
      (counter : x.reelIdCounter = s.settings.reelIdCounter ∨ (1 ≤ x.reelIdCounter ∧ x.reelIdCounter ≤ maxPosition))
      (web : x.webWidth = s.settings.webWidth ∨ s.lanesBeyond x.webWidth = false)
      (stays : L ∨ s.settings.sameMarks x) : Deed L s (s.setSettings x)
  | web (s) (u : PositionUnit) (tr : TravelList) (range : PositionLaw s → PositionLaw (s.setPosition u)) :
      Deed L s ((s.setPosition u).setTravel tr)
  | map (s) (m : KnifeMap) (apart : MapLaw s → MapLaw (s.setMap m)) : Deed L s (s.setMap m)
  | rewrite (s) (v : Vector (Option Reel) 96) (same : ∀ h : Handle, Option.Rel Reel.Same (s.reel h) v[h]) :
      Deed L s (s.setTable { s.table with reels := v })
  | land (s) (h : Handle) (m : Mark) : Deed L s (s.land h m)
  | reserved (s) (sh : Shaft) (n : Nat) (le : RecordLaw s → RecordLaw (s.setReserved sh n)) : Deed L s (s.setReserved sh n)
  | shaft (s) (sh : Shaft) (r : ShaftRec) (h : (s.shaft sh).Sound r) : Deed L s (s.setShaft sh r)
  | engine (s) (e : SweepEngine) (apart : ClosingLaw s → ClosingLaw (s.setEngine e)) : Deed L s (s.setEngine e)
  | opening (s) (n : Lane) (sh : Shaft) (sp : Spindle) (x : Nat) (pool : Pool) (flags : ReelFlags)
      (on : (s.lane n).enabled = true) : Deed L s (s.openForLane n sh sp x pool flags)

/-- Deeds in a row. -/
abbrev Deeds (L : Prop) := Relation.ReflTransGen (Deed L)

theorem Deeds.one {s t : State} (h : Deed L s t) : Deeds L s t := .single h

theorem Deed.position (s : State) (u : PositionUnit) (range : PositionLaw s → PositionLaw (s.setPosition u)) :
    Deed L s (s.setPosition u) := .web s u s.travel range

theorem Deed.beside (s : State) (u : PositionUnit) (p : u.p = s.position.p) (r : u.r = s.position.r) :
    Deed L s (s.setPosition u) :=
  .position s u fun ⟨hp, hr, valid⟩ => ⟨p.symm ▸ hp, r.symm ▸ hr, valid⟩

theorem Deed.rewriteAll (s : State) {f : Reel → Reel} (same : ∀ r : Reel, r.Same (f r)) : Deed L s (s.mapReels f) := by
  refine .rewrite s (Vector.ofFn fun i => (s.table.reels[i]).map f) fun g => ?_
  change Option.Rel Reel.Same (s.reel g) ((s.mapReels f).reel g)
  rw [State.mapReels_reel]
  cases s.reel g with
  | none => exact .none
  | some q => exact .some (same q)

theorem Deed.laneSteady (s : State) (n : Lane) (k : LaneRec) (h : (s.lane n).Steady k) : Deed L s (s.setLane n k) := by
  refine .map s _ fun law => ?_
  obtain ⟨e, sub⟩ := h
  rw [e]
  exact law.setLane_steady rfl rfl .inl (fun on => ⟨law.2.2.2.1 n (sub on), sub on, rfl⟩) (law.2.2.2.2.2.1 n)

theorem Fall.deed {s t : State} (h : Fall s t) : Deed L s t := by
  cases h with
  | land h m => exact .land s h m
  | tally n => exact .laneSteady s n _ ⟨rfl, id⟩
  | trim k => exact .map s _ id
  | web u tr beside =>
    exact .web s u tr fun ⟨hp, hr, valid⟩ => by rw [PositionUnit.Beside] at beside; rw [beside]; exact ⟨hp, hr, valid⟩

theorem Falls.deeds {s t : State} (h : Falls s t) : Deeds L s t := h.lift id fun _ _ => Fall.deed

theorem Deeds.quiet {s t : State} (h : s.hushed L t) : Deeds L s t := .one (.quiet h)

theorem Reel.Kept.same {r q : Reel} (h : r.Kept q) : r.Same q := by
  obtain ⟨_, _, _, _, rfl, _⟩ := h
  exact ⟨rfl, rfl, rfl⟩

theorem Reel.close_same (x : Nat) (short : Bool) (r : Reel) : r.Same (r.close x short) := by
  unfold Reel.close
  simp only []
  split <;> exact ⟨rfl, rfl, rfl⟩

theorem Option.rel_imp {α : Type} {R S : α → α → Prop} (h : ∀ {a b}, R a b → S a b) {x y : Option α}
    (k : Option.Rel R x y) : Option.Rel S x y := by
  cases k with
  | some r => exact .some (h r)
  | none => exact .none

theorem State.doff_deed (s : State) (sh : Shaft) (sp : Spindle) (assumed : Bool) : Deed L s (s.doff sh sp assumed) := by
  refine .rewriteAll s fun r => ?_
  split <;> exact ⟨rfl, rfl, rfl⟩

/-- The two spindle states of a shaft. -/
theorem State.refreshSpindles_deed (s : State) (sh : Shaft) : Deed L s (s.refreshSpindles sh) :=
  .shaft s sh _ ⟨id, id⟩

theorem Act.deeds {s t : State} (h : Act L s t) : Deeds L s t := by
  cases h with
  | quiet h => exact .one (.quiet h)
  | store x same fits load clear stays => exact .one (.store s x same fits load clear stays)
  | settings x h stays =>
    obtain ⟨nEnc, valid, counter, web⟩ := h
    exact .one (.settings s x (fun ⟨hp, hr, v⟩ => ⟨hp, nEnc.symm ▸ hr, valid v⟩) counter web stays)
  | nEnc n lo hi =>
    have start : Deeds L s (s.setPosition { s.position with r := 0 }) :=
      .one (.position s _ fun ⟨hp, hr, v⟩ => ⟨hp, Nat.zero_lt_of_lt hr, v⟩)
    refine start.tail (.settings _ { s.settings with nEnc := n }
      (fun ⟨hp, _, v⟩ => ⟨hp, (show 0 < n by omega), ?_⟩) (.inl rfl) (.inl rfl) (.inr ⟨rfl, rfl, rfl, rfl⟩))
    exact Settings.valid_nEnc lo hi v
  | decode pair =>
    obtain ⟨u, d, e⟩ := s.decodePair_frame pair
    have range := s.decodePair_range pair
    have calm := s.decodePair_calm pair
    rw [e] at range calm ⊢
    exact (Deeds.one (.position s u fun law => ⟨(range law).1, (range law).2, law.2.2⟩)).tail
      (.quiet ⟨(s.setPosition u).setDigest_quietly d, .inr calm⟩)
  | sense d l e x b => exact .one (.beside s _ rfl rfl)
  | stamp sh _ => exact .one (.beside s _ rfl rfl)
  | taken w a _ h => exact (State.takeArrival_falls h).deeds
  | arm w x _ => exact .one (Fall.deed (.watches (s.arm_frame w x)))
  | disarm w _ => exact .one (Fall.deed (.watches (s.disarm_frame w)))
  | newRun _ => exact .one (.position s _ fun ⟨_, hr, v⟩ => ⟨Nat.zero_le _, Nat.zero_lt_of_lt hr, v⟩)
  | trim k => exact .one (.map s _ id)
  | lane n k h => exact .one (.laneSteady s n k h)
  | geometry n e w edge least most web apart =>
    exact .one (.map s _ fun law => law.placeGeometry edge least most web apart)
  | move n sh _ _ =>
    exact .one (.map s _ fun law => law.setLane_steady rfl rfl .inl (fun h => by cases h) (law.2.2.2.2.2.1 n))
  | enable n off web apart =>
    exact .one (.map s _ fun law => law.setLane_steady rfl rfl (fun _ => .inr ⟨web, apart⟩)
      (fun on => ⟨rfl, on, rfl⟩) fun on => ⟨rfl, (law.2.2.2.2.2.1 n on).2⟩)
  | refer n on =>
    rw [s.setReference_map]
    exact .one (.map s _ fun law => by rw [← s.setReference_map]; exact law.setReference on)
  | records v kept => exact .one (.rewrite s v fun h => Option.rel_imp Reel.Kept.same (kept h))
  | land h m => exact .one (.land s h m)
  | unload sh sp assumed => exact .tail (Deeds.one (s.doff_deed sh sp assumed)) (State.refreshSpindles_deed ..)
  | shaft sh r h => exact .one (.shaft s sh r h.1)
  | reserve sh n spare =>
    refine .one (.reserved s sh _ fun ⟨count, le⟩ => ⟨count, ?_⟩)
    unfold State.unreserved at spare
    cases sh <;> simp only [State.setReserved, State.setTable, Pair.set, Pair.get] <;> omega
  | release sh n le =>
    refine .one (.reserved s sh _ fun ⟨count, few⟩ => ⟨count, ?_⟩)
    cases sh <;> simp only [State.setReserved, State.setTable, Pair.set, Pair.get] at * <;> omega
  | engine e apart => exact .one (.engine s e apart)
  | parent x k l => exact .one (Fall.deed (.travel ..))
  | accept e _ => exact (s.acceptEntry_falls e).deeds
  | knife a h => exact Falls.deeds ((State.takeArrival_falls h).trans (State.knifePass_falls _))
  | nip sh a h => exact Falls.deeds ((State.takeArrival_falls h).trans (State.releasePass_falls _ sh))
  | cutReported sh => exact Falls.deeds (.head (s.clearLatch_fall sh) (State.releasePass_falls _ sh))

theorem Acts.deeds {s t : State} (h : Acts L s t) : Deeds L s t := by
  induction h with
  | refl => exact .refl
  | tail _ act ih => exact ih.trans act.deeds

theorem State.endCurrent_deed (s : State) (n : Lane) : Deed L s (s.endCurrent n) := by
  unfold State.endCurrent
  split
  · exact .quiet s.hushed_refl
  · next h _ =>
    refine .rewrite s (s.table.reels.set h ((s.reel h).map fun r => r.endByDisable s.position.p)) fun g => ?_
    change Option.Rel Reel.Same (s.reel g) ((s.setReel h ((s.reel h).map fun r => r.endByDisable s.position.p)).reel g)
    rw [State.setReel_reel]
    have same (r : Reel) : r.Same r := ⟨rfl, rfl, rfl⟩
    split
    · next e =>
      rw [e]
      cases s.reel h with
      | none => exact .none
      | some r => exact .some ⟨rfl, rfl, rfl⟩
    · cases s.reel g with
      | none => exact .none
      | some r => exact .some (same r)

theorem State.endCurrent_map (s : State) (n : Lane) : (s.endCurrent n).map = s.map := by
  unfold State.endCurrent
  split <;> rfl

theorem State.disableLane_deeds (s : State) (n : Lane) : Deeds L s (s.disableLane n) := by
  have same : s.lane n = (s.endCurrent n).lane n := by unfold State.lane; rw [State.endCurrent_map]
  unfold State.disableLane
  rw [same]
  exact .tail (Deeds.one (s.endCurrent_deed n)) (.map _ _ fun law => law.setLane_steady rfl rfl (fun h => by cases h)
    (fun h => by cases h) fun h => by cases h)

theorem Piece.deeds {s t : State} (h : Piece L s t) : Deeds L s t := by
  cases h with
  | act h => exact h.deeds
  | shaft sh r h => exact .one (.shaft s sh r h)
  | close sh x short =>
    refine .one (.rewriteAll s fun r => ?_)
    split
    · exact r.close_same x short
    · exact ⟨rfl, rfl, rfl⟩
  | opening n sh sp x pool flags on => exact .one (.opening s n sh sp x pool flags on)
  | disable n => exact s.disableLane_deeds n
  | part sh =>
    rw [s.mapLanes_map]
    exact .one (.map s _ fun law => by rw [← s.mapLanes_map]; exact law.mapLanes_part sh)

theorem Pieces.deeds {s t : State} (h : Pieces L s t) : Deeds L s t := by
  induction h with
  | refl => exact .refl
  | tail _ piece ih => exact ih.trans piece.deeds

end Sys2Proof.Machine
end

section
/-! PROOF. Cuts, starts and stops as rows of parts, and the principle by which a law is kept by every command: by every
deed, by the freeing of a record, by a power-on and by the completion of the settings load. -/

namespace Sys2Proof.Machine

variable {L : Prop}

/-! ## What acts leave of the shafts -/

/-- No shaft starts, stops or turns over. -/
def State.windsOn (s t : State) : Prop :=
  ∀ sh, ((t.shaft sh).phase = .idle ↔ (s.shaft sh).phase = .idle) ∧ (t.shaft sh).active = (s.shaft sh).active

theorem State.windsOn_refl (s : State) : s.windsOn s := fun _ => ⟨.rfl, rfl⟩

theorem State.windsOn_trans {s t u : State} (h : s.windsOn t) (k : t.windsOn u) : s.windsOn u :=
  fun sh => ⟨(k sh).1.trans (h sh).1, (k sh).2.trans (h sh).2⟩

theorem State.windsOn_of_shafts {s t : State} (h : t.shafts = s.shafts) : s.windsOn t := by
  intro sh
  unfold State.shaft
  rw [h]
  exact ⟨.rfl, rfl⟩

theorem State.windsOn_setShaft {s : State} {sh : Shaft} {r : ShaftRec} (phase : r.phase = .idle ↔ (s.shaft sh).phase = .idle)
    (active : r.active = (s.shaft sh).active) : s.windsOn (s.setShaft sh r) := by
  intro sh'
  rw [State.setShaft_shaft]
  split
  · next e => rw [e]; exact ⟨phase, active⟩
  · exact ⟨.rfl, rfl⟩

theorem Fall.shafts {s t : State} (h : Fall s t) : t.shafts = s.shafts := by
  cases h with
  | land h m =>
    obtain ⟨_, _, _, e⟩ := s.land_frame h m
    rw [e]
  | _ => rfl

theorem Falls.shafts {s t : State} (h : Falls s t) : t.shafts = s.shafts := by
  induction h with
  | refl => rfl
  | tail _ fall ih => exact fall.shafts.trans ih

theorem State.refreshSpindles_windsOn (s : State) (sh : Shaft) : s.windsOn (s.refreshSpindles sh) := by
  obtain ⟨x, y, e⟩ := s.refreshSpindles_frame sh
  rw [e]
  exact State.windsOn_setShaft (r := { s.shaft sh with spindle1 := x, spindle2 := y }) .rfl rfl

theorem Act.windsOn {s t : State} (h : Act L s t) : s.windsOn t := by
  cases h with
  | quiet h => obtain ⟨⟨_, _, _, _, _, _, rfl⟩, _⟩ := h; exact s.windsOn_refl
  | decode pair => obtain ⟨_, _, e⟩ := s.decodePair_frame pair; rw [e]; exact State.windsOn_of_shafts rfl
  | taken w a _ h => exact State.windsOn_of_shafts (Falls.shafts (State.takeArrival_falls h))
  | arm w x _ => exact State.windsOn_of_shafts (Fall.watches (s.arm_frame w x)).shafts
  | refer n _ => exact State.windsOn_of_shafts (by unfold State.setReference; simp)
  | land h m => exact State.windsOn_of_shafts (Fall.land s h m).shafts
  | unload sh sp assumed =>
    exact State.windsOn_trans (State.windsOn_of_shafts (State.mapReels_shafts ..)) (State.refreshSpindles_windsOn _ sh)
  | shaft sh r h => exact State.windsOn_setShaft h.2.2.2.2 h.2.1
  | accept e _ => exact State.windsOn_of_shafts (Falls.shafts (s.acceptEntry_falls e))
  | knife a h =>
    exact State.windsOn_of_shafts (Falls.shafts ((State.takeArrival_falls h).trans (State.knifePass_falls _)))
  | nip sh a h =>
    exact State.windsOn_of_shafts (Falls.shafts ((State.takeArrival_falls h).trans (State.releasePass_falls _ sh)))
  | cutReported sh =>
    exact State.windsOn_of_shafts (Falls.shafts (.head (s.clearLatch_fall sh) (State.releasePass_falls _ sh)))
  | _ => exact State.windsOn_of_shafts rfl

theorem Acts.windsOn {s t : State} (h : Acts L s t) : s.windsOn t := by
  induction h with
  | refl => exact s.windsOn_refl
  | tail _ act ih => exact State.windsOn_trans ih act.windsOn

/-! ## Parts of a cut -/

theorem Pieces.one {s t : State} (h : Piece L s t) : Pieces L s t := .single h

theorem State.closeSet_pieces (s : State) (sh : Shaft) (x : Nat) (short : Bool) : Pieces L s (s.closeSet sh x short) :=
  (Pieces.one (.close s sh x short)).trans (Acts.pieces (State.queueClosing_acts ..))

theorem State.closeSet_windsOn (s : State) (sh : Shaft) (x : Nat) (short : Bool) : s.windsOn (s.closeSet sh x short) :=
  State.windsOn_trans (State.windsOn_of_shafts (State.mapReels_shafts ..)) (Acts.windsOn (L := True) (State.queueClosing_acts ..))

theorem State.assumeUnload_acts (s : State) (sh : Shaft) : Acts L s (s.assumeUnload sh) := by
  unfold State.assumeUnload
  simp only []
  split
  · exact (Acts.one (.unload s sh _ true)).trans (Acts.quiet (State.raise_hushed ..))
  · exact .refl

theorem State.turnOver_pieces (s : State) (sh : Shaft) : Pieces L s (s.turnOver sh) :=
  (Pieces.one (.shaft s sh { s.shaft sh with active := (s.shaft sh).active.other } ⟨id, id⟩)).tail
    (.shaft _ sh _ ⟨id, id⟩)

theorem State.turnOver_phase (s : State) (sh : Shaft) : ((s.turnOver sh).shaft sh).phase = (s.shaft sh).phase := by
  unfold State.turnOver State.refreshSpindles
  simp only [State.setShaft_shaft, if_true]

theorem ShaftRec.planned_of_winds {r : ShaftRec} (winds : r.phase ≠ .idle) (len : r.plan.length ≤ 8)
    (least : 1 ≤ r.step) (most : r.step ≤ r.plan.length) : r.planned :=
  ⟨len, fun h => absurd h winds, fun _ => ⟨least, most⟩⟩

/-- The closed set counted keeps the current step inside the plan (R121). -/
theorem ShaftRec.countSet_sound {r : ShaftRec} (winds : r.phase ≠ .idle) : r.Sound r.countSet.1 := by
  unfold ShaftRec.countSet
  split
  · exact ⟨id, id⟩
  · next phase =>
    have wind (n : Nat) (c : Word16) (fits : r.planned → 1 ≤ n ∧ n ≤ r.plan.length) :
        r.Sound { r.toPhase .winding with step := n, counter := c } :=
      ⟨fun p => planned_of_winds (by simp [toPhase]) p.1 (fits p).1 (fits p).2, fun _ => rfl⟩
    have stays : r.planned → 1 ≤ r.step ∧ r.step ≤ r.plan.length := fun p => p.2.2 winds
    simp only []
    split
    · exact wind r.step r.counter stays
    · split
      · exact wind r.step _ stays
      · split
        · exact wind r.step _ stays
        · split
          · next next found =>
            obtain ⟨lt, _⟩ := List.getElem?_eq_some_iff.mp found
            exact wind _ _ fun _ => ⟨Nat.le_add_left .., lt⟩
          · exact ⟨fun p => planned_of_winds (by simp [toPhase]) p.1 (stays p).1 (stays p).2, fun _ => rfl⟩

theorem State.countCut_pieces {s : State} {sh : Shaft} (winds : (s.shaft sh).phase ≠ .idle) : Pieces L s (s.countCut sh) :=
  (Pieces.one (.shaft s sh _ (ShaftRec.countSet_sound winds))).tail (.act (.quiet (State.raiseIf_hushed ..)))

/-- An opening leaves every lane as enabled as it was. -/
theorem State.openForLane_enabled (s : State) (n : Lane) (sh : Shaft) (sp : Spindle) (x : Nat) (pool : Pool)
    (flags : ReelFlags) (m : Lane) : ((s.openForLane n sh sp x pool flags).lane m).enabled = (s.lane m).enabled := by
  have set (k : LaneRec) (same : k.enabled = (s.lane n).enabled) : ((s.setLane n k).lane m).enabled = (s.lane m).enabled := by
    rw [State.setLane_lane]
    split
    · next e => rw [e, same]
    · rfl
  obtain ⟨h, st, p, q, _, _, _, _, e⟩ | e := s.openForLane_cases n sh sp x pool flags
  · rw [e]; exact set _ rfl
  · rw [e]; exact set _ rfl

/-- Openings for enabled lanes, one by one. -/
theorem State.openLanes_pieces (sh : Shaft) (x : Nat) (pool : State → Pool) (flags : ReelFlags) (ns : List Lane) (s : State)
    (on : ∀ n ∈ ns, (s.lane n).enabled = true) :
    Pieces L s (ns.foldl (fun u n => u.openForLane n sh (u.shaft sh).active x (pool u) flags) s) := by
  induction ns generalizing s with
  | nil => exact .refl
  | cons n ns ih =>
    exact (Pieces.one (.opening s n sh _ x _ flags (on n List.mem_cons_self))).trans
      (ih _ fun m hm => (s.openForLane_enabled ..).trans (on m (List.mem_cons_of_mem _ hm)))

theorem State.mem_enabledLanes {s : State} {sh : Shaft} {n : Lane} :
    n ∈ s.enabledLanes sh ↔ (s.lane n).enabled = true ∧ (s.lane n).shaft = sh := by
  simp [State.enabledLanes, allLanes]

theorem State.openSet_pieces (s : State) (sh : Shaft) (c : Nat) (taken : Phase) : Pieces L s (s.openSet sh c taken) :=
  (Pieces.one (.act (.quiet (State.raiseIf_hushed ..)))).trans (State.openLanes_pieces sh c (fun u => u.cutPool sh taken) _ _ _
    fun _ h => (State.mem_enabledLanes.mp h).1)

theorem State.openThresholds_acts (s : State) (sh : Shaft) (x : Nat) : Acts L s (s.openThresholds sh x) := by
  unfold State.openThresholds
  split
  · exact .refl
  · exact (Acts.one (.beside s sh rfl)).trans (foldl_rel (fun _ => .refl) (fun h k => h.trans k)
      (fun t k => Acts.one (.arm t (.threshold sh k) _ trivial)) _ _)

theorem State.baseTension_acts (s : State) (sh : Shaft) : Acts L s (s.baseTension sh) := by
  unfold State.baseTension
  split
  · exact .refl
  · exact Acts.one (.beside s sh rfl)

/-- A cut is a row of acts, the closing of the set, the writes of the shaft's record and the openings of the next set. -/
theorem State.takeCut_pieces {s : State} {sh : Shaft} (winds : (s.shaft sh).phase ≠ .idle) (c : Nat) :
    Pieces L s (s.takeCut sh c) := by
  unfold State.takeCut
  simp only []
  have fired : Acts L s ((s.fireUpTo sh c true allThresholds).assumeUnload sh) :=
    (s.fireUpTo_acts ..).trans (State.assumeUnload_acts ..)
  generalize (s.fireUpTo sh c true allThresholds).assumeUnload sh = s1 at *
  have turned : Pieces L s1 ((s1.closeSet sh c (s1.shaft sh).short).turnOver sh) :=
    (s1.closeSet_pieces ..).trans (State.turnOver_pieces ..)
  have winds : (((s1.closeSet sh c (s1.shaft sh).short).turnOver sh).shaft sh).phase ≠ .idle := by
    rw [State.turnOver_phase]
    exact mt ((s1.closeSet_windsOn sh c _ sh).1.trans (fired.windsOn sh).1).mp winds
  generalize (s1.closeSet sh c (s1.shaft sh).short).turnOver sh = s2 at *
  have opened := ((fired.pieces.trans turned).trans (State.countCut_pieces winds)).trans
    (State.openSet_pieces _ sh c (s.shaft sh).phase)
  generalize (s2.countCut sh).openSet sh c (s.shaft sh).phase = s3 at *
  have settled := (opened.trans (s3.releaseReserved_acts sh).pieces).tail
    (.act (.beside (s3.releaseReserved sh) sh (q := ((s3.releaseReserved sh).shaft sh).settleCut) rfl))
  generalize (s3.releaseReserved sh).setShaft sh ((s3.releaseReserved sh).shaft sh).settleCut = s5 at *
  have last : Acts L s5 ((((s5.openThresholds sh c).baseTension sh).clearLatch sh).reportCut sh) :=
    (((s5.openThresholds_acts sh c).trans (State.baseTension_acts ..)).tail (.cutReported _ sh)).trans
      (State.attributeHeld_acts ..)
  exact settled.trans last.pieces

/-! ## Parts of a start, a stop and an enabling -/

theorem ShaftRec.begin_sound {r : ShaftRec} {st : PlanStep} {later : List PlanStep} (plan : r.plan = st :: later) :
    r.Sound (r.begin st) := by
  refine ⟨fun p => planned_of_winds (by simp [ShaftRec.begin, toPhase, clearRetry]) p.1 le_rfl ?_, fun _ => rfl⟩
  show 1 ≤ r.plan.length
  rw [plan]
  exact Nat.le_add_left ..

theorem State.start_pieces {s : State} {sh : Shaft} {st : PlanStep} {later : List PlanStep}
    (plan : (s.shaft sh).plan = st :: later) : Pieces L s (s.start sh st) := by
  unfold State.start
  simp only []
  refine ((Pieces.one (.shaft s sh _ (ShaftRec.begin_sound plan))).trans
    (State.openLanes_pieces sh s.position.p (fun _ => .unreserved) _ _ _ fun _ h => (State.mem_enabledLanes.mp h).1)).trans
    (Acts.pieces ((State.openThresholds_acts _ sh s.position.p).trans (State.baseTension_acts ..)))

theorem State.disarmThresholds_acts (s : State) (sh : Shaft) : Acts L s (s.disarmThresholds sh) :=
  foldl_rel (fun _ => .refl) (fun h k => h.trans k) (fun t k => Acts.one (.disarm t (.threshold sh k) trivial)) _ s

theorem State.halt_pieces (s : State) (sh : Shaft) : Pieces L s (s.halt sh) := by
  unfold State.halt
  simp only []
  have closed := (s.closeSet_pieces (L := L) sh s.position.p false).trans (State.releaseReserved_acts _ sh).pieces
  generalize (s.closeSet sh s.position.p false).releaseReserved sh = s1 at *
  have idle : (s1.shaft sh).Sound (s1.shaft sh).halt :=
    ⟨fun p => ⟨p.1, fun _ => rfl, fun h => absurd rfl h⟩, fun _ => rfl⟩
  have stopped : Pieces L s ((s1.setShaft sh (s1.shaft sh).halt).refreshSpindles sh) :=
    (closed.tail (.shaft s1 sh _ idle)).tail (.shaft _ sh _ ⟨id, id⟩)
  exact (stopped.trans (State.disarmThresholds_acts _ sh).pieces).tail (.part _ sh)

theorem State.enableLane_pieces {s : State} {n : Lane} (off : (s.lane n).enabled = false)
    (web : (s.lane n).edge + (s.lane n).width ≤ s.settings.webWidth)
    (apart : s.overlapsOther n (s.lane n).edge (s.lane n).width = false) : Pieces L s (s.enableLane n) := by
  have on : Pieces L s (s.setLane n { s.lane n with enabled := true }) := .one (.act (.enable s n off web apart))
  unfold State.enableLane
  simp only []
  split
  · exact on
  · exact on.tail (.opening _ n _ _ _ _ _ (by rw [State.setLane_lane_self]))

/-! ## What every command keeps -/

/-- A law that every deed and every freeing keeps is kept by every command but those that start the part or end a reset
or the load. -/
theorem Effect.keeps {law : State → Prop} {s t : State} (h : Effect L s t)
    (deed : ∀ {s t}, Deed L s t → law s → law t)
    (retire : ∀ {s g r}, s.reel g = some r → r.state = .doffed → law s → law (s.freeReel g r)) (holds : law s) : law t := by
  have row {s t : State} (h : Deeds L s t) (holds : law s) : law t := by
    induction h with
    | refl => exact holds
    | tail _ d ih => exact deed d ih
  have quiet {s t : State} (h : s.hushed L t) (holds : law s) : law t := row (Deeds.quiet h) holds
  cases h with
  | acts h => exact row h.deeds holds
  | cut sh c before _ winds after => exact quiet after (row (State.takeCut_pieces winds c).deeds (quiet before holds))
  | start sh st later before plan _ _ after => exact quiet after (row (State.start_pieces plan).deeds (quiet before holds))
  | halt sh before _ after => exact quiet after (row (State.halt_pieces _ sh).deeds (quiet before holds))
  | enable n before off web apart after =>
    exact quiet after (row (State.enableLane_pieces off web apart).deeds (quiet before holds))
  | disable n before _ after => exact quiet after (row (State.disableLane_deeds _ n) (quiet before holds))
  | retire g r before there doffed after => exact quiet after (retire there doffed (quiet before holds))

/-- A law that every deed, every freeing, every power-on and every completed load keeps is kept by every command. -/
theorem Course.keeps {law : State → Prop} {s t : State} (h : Course s t)
    (deed : ∀ {s t}, Deed True s t → law s → law t)
    (retire : ∀ {s g r}, s.reel g = some r → r.state = .doffed → law s → law (s.freeReel g r))
    (power : ∀ {u : State} {kind reset loading}, u.now = s.now → u.pending = s.pending →
      (EepromLaw s → Memory.wf u.store.eeprom) → law s → law (u.powerUp kind reset loading))
    (load : ∀ {ack}, s.store.loading = true → law s → law (s.completeLoad (loadImage ack s.store.eeprom)))
    (holds : law s) : law t := by
  cases h with
  | effect h => exact h.keeps deed retire holds
  | powerUp kind reset loading now pending _ fits => exact power now pending fits holds
  | begins clears => exact deed (.begins s trivial clears) holds
  | load ack loads => exact load loads holds

end Sys2Proof.Machine
end

section
/-! PROOF. The laws of the queue, the pools, the records, the position, the plans, CUTREQ, the EEPROM and the lanes: each
is kept by every deed (O3, O7, O8, O11, O15, O17 and parts of O9, O10 and O13). -/

namespace Sys2Proof.Machine

variable {L : Prop}

/-! ## Sums over the handles -/

/-- A sum over distinct things in which one addend changes. -/
theorem sum_map_change {α : Type} [DecidableEq α] {l : List α} (nodup : l.Nodup) {a : α} (mem : a ∈ l) {f g : α → Nat}
    (same : ∀ b, b ≠ a → g b = f b) : (l.map g).sum + f a = (l.map f).sum + g a := by
  induction l with
  | nil => cases mem
  | cons b l ih =>
    obtain ⟨fresh, nodup⟩ := List.nodup_cons.mp nodup
    simp only [List.map_cons, List.sum_cons]
    by_cases e : b = a
    · subst e
      rw [List.map_congr_left fun c hc => same c fun e => fresh (e ▸ hc)]
      omega
    · have := ih nodup ((List.mem_cons.mp mem).resolve_left (Ne.symm e))
      rw [same b e]
      omega

theorem length_filter_eq_sum {α : Type} (p : α → Bool) (l : List α) :
    (l.filter p).length = (l.map fun a => if p a then 1 else 0).sum := by
  induction l with
  | nil => rfl
  | cons a l ih => cases h : p a <;> simp [h, ih]; omega

/-- A state with one record replaced. -/
def State.rewritten (s t : State) (h : Handle) (x : Option Reel) : Prop :=
  ∀ g, t.reel g = if g = h then x else s.reel g

theorem State.rewritten.chainedMarks {s t : State} {h : Handle} {x : Option Reel} (e : s.rewritten t h x) :
    t.chainedMarks + chainLength (s.reel h) = s.chainedMarks + chainLength x := by
  have := sum_map_change (List.nodup_finRange 96) (List.mem_finRange h) (f := fun g => chainLength (s.reel g))
    (g := fun g => chainLength (t.reel g)) fun g ne => by rw [e g, if_neg ne]
  rwa [e h, if_pos rfl] at this

theorem State.rewritten.freeRecords {s t : State} {h : Handle} {x : Option Reel} (e : s.rewritten t h x) :
    t.freeRecords + (if (s.reel h).isNone then 1 else 0) = s.freeRecords + if x.isNone then 1 else 0 := by
  unfold State.freeRecords
  rw [length_filter_eq_sum, length_filter_eq_sum]
  have := sum_map_change (List.nodup_finRange 96) (List.mem_finRange h) (f := fun g => if (s.reel g).isNone then 1 else 0)
    (g := fun g => if (t.reel g).isNone then 1 else 0) fun g ne => by rw [e g, if_neg ne]
  rwa [e h, if_pos rfl] at this

theorem State.chainedMarks_congr {s t : State} (h : ∀ g, chainLength (t.reel g) = chainLength (s.reel g)) :
    t.chainedMarks = s.chainedMarks := by
  unfold State.chainedMarks
  rw [List.map_congr_left fun g _ => h g]

theorem State.freeRecords_congr {s t : State} (h : ∀ g, (t.reel g).isNone = (s.reel g).isNone) :
    t.freeRecords = s.freeRecords := by
  unfold State.freeRecords
  rw [List.filter_congr fun g _ => h g]

/-! ## Landings -/

/-- The record that a landing leaves (R66, R69). -/
def State.landedReel (s : State) (m : Mark) (r : Reel) : Reel :=
  if r.landed m (s.chains r) s.settings.tables[r.table] = r then r
  else (r.landed m (s.chains r) s.settings.tables[r.table]).bump

/-- What a landing on a record that is not FREE does, but for its alerts. -/
theorem State.land_there {s : State} {h : Handle} {r : Reel} (there : s.reel h = some r) (m : Mark) :
    ∃ d, s.land h m = { s with
      table := { s.table with reels := s.table.reels.set h (some (s.landedReel m r)) }
      freeMarks := if s.chains r then s.freeMarks - 1 else s.freeMarks
      digest := d } := by
  unfold State.land
  rw [there]
  simp only []
  obtain ⟨d, e⟩ := State.raiseIf_frame (if s.chains r = true then
      (s.setReel h (some (s.landedReel m r))).setFreeMarks ((s.setReel h (some (s.landedReel m r))).freeMarks - 1)
    else s.setReel h (some (s.landedReel m r))) (!s.chains r) .marksDropped
  unfold State.landedReel at e ⊢
  rw [e]
  obtain ⟨d', e'⟩ := State.raiseIf_frame _ _ .lateChange
  rw [e']
  split <;> exact ⟨d', rfl⟩

theorem State.land_free {s : State} {h : Handle} (free : s.reel h = none) (m : Mark) : s.land h m = s := by
  unfold State.land
  rw [free]

theorem State.land_rewritten {s : State} {h : Handle} {r : Reel} (there : s.reel h = some r) (m : Mark) :
    s.rewritten (s.land h m) h (some (s.landedReel m r)) := by
  obtain ⟨d, e⟩ := State.land_there there m
  intro g
  rw [e]
  exact State.setReel_reel s h g _

theorem Reel.extendParents_beside (r : Reel) (m : Mark) : ∃ p f, r.extendParents m = { r with parents := p, flags := f } := by
  unfold Reel.extendParents
  split
  · simp only []
    split <;> exact ⟨_, _, rfl⟩
  · exact ⟨_, _, rfl⟩

theorem Reel.extendParents_sorted {r : Reel} (m : Mark) (h : r.parents.Pairwise fun d e => d.footage ≤ e.footage) :
    (r.extendParents m).parents.Pairwise fun d e => d.footage ≤ e.footage := by
  unfold Reel.extendParents
  split
  · simp only []
    split
    · rw [insertParent_eq]; exact insertBy_sorted h
    · exact h
  · exact h

/-- What a landing leaves of a record. -/
theorem Reel.landed_beside (r : Reel) (m : Mark) (chained : Bool) (g : GradeTable) : ∃ p f d k,
    r.landed m chained g = { r with
      tallies := r.tallies.count m.finding
      chain := if chained then insertMark m r.chain else r.chain
      dropped := d
      parents := p
      computed := k
      flags := f } := by
  unfold Reel.landed Reel.chainOrDrop
  simp only []
  cases chained with
  | true =>
    obtain ⟨p, f, e⟩ := ({ { r with tallies := r.tallies.count m.finding } with chain := insertMark m r.chain }).extendParents_beside m
    simp only [if_true, e]
    exact ⟨p, _, _, _, rfl⟩
  | false =>
    obtain ⟨p, f, e⟩ := ({ { r with tallies := r.tallies.count m.finding } with
      dropped := satInc r.dropped, flags := { r.flags with marksDropped := true } }).extendParents_beside m
    simp only [Bool.false_eq_true, if_false, e]
    exact ⟨p, _, _, _, rfl⟩

theorem Reel.landed_sorted {r : Reel} (m : Mark) (chained : Bool) (g : GradeTable)
    (h : r.parents.Pairwise fun d e => d.footage ≤ e.footage) :
    (r.landed m chained g).parents.Pairwise fun d e => d.footage ≤ e.footage := by
  unfold Reel.landed Reel.chainOrDrop
  cases chained <;> exact Reel.extendParents_sorted m h

/-- What a landing leaves of the record in place. -/
theorem State.landedReel_beside (s : State) (m : Mark) (r : Reel) : (s.landedReel m r).id = r.id ∧
    (s.landedReel m r).chain = (if s.chains r then insertMark m r.chain else r.chain) ∧
    ((r.parents.Pairwise fun d e => d.footage ≤ e.footage) →
      (s.landedReel m r).parents.Pairwise fun d e => d.footage ≤ e.footage) := by
  have landed : ∀ q, q = r.landed m (s.chains r) s.settings.tables[r.table] → q.id = r.id ∧
      q.chain = (if s.chains r then insertMark m r.chain else r.chain) ∧
      ((r.parents.Pairwise fun d e => d.footage ≤ e.footage) → q.parents.Pairwise fun d e => d.footage ≤ e.footage) := by
    rintro q rfl
    obtain ⟨_, _, _, _, e⟩ := r.landed_beside m (s.chains r) s.settings.tables[r.table]
    exact ⟨by rw [e], by rw [e], Reel.landed_sorted m _ _⟩
  unfold State.landedReel
  split
  · next same => exact landed r same.symm
  · obtain ⟨id, chain, parents⟩ := landed _ rfl
    exact ⟨id, chain, parents⟩

/-! ## The marks (O7) -/

theorem Reel.Same.chainLength {x y : Option Reel} (h : Option.Rel Reel.Same x y) : chainLength y = chainLength x := by
  cases h with
  | some h => exact congrArg List.length h.2.1
  | none => rfl

/-- An opening fills one FREE record. -/
theorem State.openForLane_reels (s : State) (n : Lane) (sh : Shaft) (sp : Spindle) (x : Nat) (pool : Pool)
    (flags : ReelFlags) :
    (∃ h st, s.reel h = none ∧ s.poolMeets sh pool = true ∧
      s.rewritten (s.openForLane n sh sp x pool flags) h (some (s.newReel n sh sp x flags st)) ∧
      (s.openForLane n sh sp x pool flags).freeMarks = s.freeMarks ∧
      (s.openForLane n sh sp x pool flags).table.free = s.table.free - 1 ∧
      (s.openForLane n sh sp x pool flags).table.reserved = pool.charged sh s.table.reserved ∧
      (s.openForLane n sh sp x pool flags).settings =
        { s.settings with reelIdCounter := stepId (s.newReel n sh sp x flags st).id }) ∨
    ((s.openForLane n sh sp x pool flags).table = s.table ∧ (s.openForLane n sh sp x pool flags).freeMarks = s.freeMarks ∧
      (s.openForLane n sh sp x pool flags).settings = s.settings) := by
  obtain ⟨h, st, p, q, met, _, free, _, e⟩ | e := s.openForLane_cases n sh sp x pool flags
  · exact .inl ⟨h, st, free, met, fun g => by rw [e]; exact State.setReel_reel s h g _, by rw [e], by rw [e], by rw [e],
      by rw [e]⟩
  · exact .inr ⟨by rw [e]; rfl, by rw [e]; rfl, by rw [e]; rfl⟩

/-- The laws of the marks, of states that differ in records without a mark. -/
theorem markLaw_of_rel {s t : State} (law : MarkLaw s ∧ ChainLaw s) (marks : t.freeMarks = s.freeMarks)
    (same : ∀ h, Option.Rel Reel.Same (s.reel h) (t.reel h)) : MarkLaw t ∧ ChainLaw t := by
  obtain ⟨⟨total, few⟩, sorted⟩ := law
  have back {h : Handle} {q : Reel} (hq : q ∈ t.reel h) : ∃ r ∈ s.reel h, r.Same q := by
    have := same h
    rw [Option.mem_def.mp hq] at this
    cases hr : s.reel h with
    | none => rw [hr] at this; cases this
    | some r => rw [hr] at this; cases this with | some e => exact ⟨r, rfl, e⟩
  refine ⟨⟨?_, fun h q hq => ?_⟩, fun h q hq => ?_⟩
  · rw [State.chainedMarks_congr fun h => Reel.Same.chainLength (same h), marks, total]
  · obtain ⟨r, hr, _, chain, _⟩ := back hq
    rw [chain]; exact few h r hr
  · obtain ⟨r, hr, _, chain, parents⟩ := back hq
    rw [chain, parents]; exact sorted h r hr

theorem markLaw_refl {s t : State} (law : MarkLaw s ∧ ChainLaw s) (marks : t.freeMarks = s.freeMarks)
    (reels : ∀ h, t.reel h = s.reel h) : MarkLaw t ∧ ChainLaw t := by
  refine markLaw_of_rel law marks fun h => ?_
  rw [reels]
  cases s.reel h with
  | none => exact .none
  | some r => exact .some ⟨rfl, rfl, rfl⟩

/-- The laws of the marks, of states that differ in one record. -/
theorem markLaw_of_rewritten {s t : State} {h : Handle} {x : Option Reel} (law : MarkLaw s ∧ ChainLaw s)
    (e : s.rewritten t h x) (count : chainLength x + t.freeMarks = chainLength (s.reel h) + s.freeMarks)
    (few : ∀ r ∈ x, r.chain.length ≤ 64) (sorted : ∀ r ∈ x, r.chain.Pairwise (fun m n => m.arrival ≤ n.arrival) ∧
      r.parents.Pairwise (fun d e => d.footage ≤ e.footage)) : MarkLaw t ∧ ChainLaw t := by
  obtain ⟨⟨total, fews⟩, sorteds⟩ := law
  have sum := e.chainedMarks
  refine ⟨⟨by omega, fun g q hq => ?_⟩, fun g q hq => ?_⟩
  all_goals rw [e g] at hq; split at hq
  · exact few q hq
  · exact fews g q hq
  · exact sorted q hq
  · exact sorteds g q hq

theorem Deed.keeps_marks {s t : State} (h : Deed L s t) (law : MarkLaw s ∧ ChainLaw s) : MarkLaw t ∧ ChainLaw t := by
  cases h with
  | quiet h => obtain ⟨⟨_, _, _, _, _, _, rfl⟩, _⟩ := h; exact markLaw_refl law rfl fun _ => rfl
  | rewrite v same => exact markLaw_of_rel law rfl same
  | land h m =>
    cases there : s.reel h with
    | none => rw [State.land_free there]; exact law
    | some r =>
      obtain ⟨⟨_, few⟩, sorted⟩ := id law
      obtain ⟨chains, parents⟩ := sorted h r there
      obtain ⟨_, chain, kept⟩ := s.landedReel_beside m r
      have marks : (s.land h m).freeMarks = if s.chains r then s.freeMarks - 1 else s.freeMarks := by
        obtain ⟨_, e⟩ := State.land_there there m
        rw [e]
      refine markLaw_of_rewritten law (State.land_rewritten there m) ?_ ?_ ?_
      · rw [there, marks]
        simp only [chainLength, Option.map_some, Option.getD_some, chain]
        split
        · next c =>
          simp only [State.chains, Bool.and_eq_true, decide_eq_true_eq] at c
          rw [insertMark_length]
          omega
        · rfl
      · rintro q ⟨⟩
        rw [chain]
        split
        · next c =>
          simp only [State.chains, Bool.and_eq_true, decide_eq_true_eq, chainLimit] at c
          rw [insertMark_length]
          omega
        · exact few h r there
      · rintro q ⟨⟩
        refine ⟨?_, kept parents⟩
        rw [chain]
        split
        · rw [insertMark_eq]; exact insertBy_sorted chains
        · exact chains
  | opening n sh sp x pool flags on =>
    obtain ⟨g, st, free, _, e, marks, _⟩ | ⟨table, marks, _⟩ := s.openForLane_reels n sh sp x pool flags
    · refine markLaw_of_rewritten law e (by rw [free, marks]; rfl) ?_ ?_
      · rintro q ⟨⟩
        exact Nat.zero_le _
      · rintro q ⟨⟩
        exact ⟨.nil, List.pairwise_singleton _ _⟩
    · exact markLaw_refl law marks fun h => by unfold State.reel; rw [table]
  | _ => exact markLaw_refl law rfl fun _ => rfl

theorem State.powerUp_reel (s : State) (kind : ResetKind) (reset : ResetActivity) (loading : Bool) (h : Handle) :
    (s.powerUp kind reset loading).reel h = none := State.reset_reel h

theorem State.powerUp_shaft (s : State) (kind : ResetKind) (reset : ResetActivity) (loading : Bool) (sh : Shaft) :
    (s.powerUp kind reset loading).shaft sh = .initial := State.reset_shaft sh

/-- The part with the loaded settings in force, before the hold unit takes its watermarks (R175). -/
def State.loadedWith (s : State) (image : Option Settings) (w : WatchTable) (l : List Arrival) : State :=
  { s with
    store := { s.store with settings := image.getD s.settings, loading := false, defaulted := image.isNone }
    position := { s.position with
      reference := s.encoder
      r := if (image.getD s.settings).nEnc = s.settings.nEnc then s.position.r else 0
      watches := w
      arrivals := l } }

/-- What the completion of a load does but for the hold unit and the alerts (R175). -/
theorem State.completeLoad_quietly (s : State) (image : Option Settings) :
    ∃ w l, (s.loadedWith image w l).quietly (s.completeLoad image) := by
  have last (t : State) : t.quietly (s.announce t.applyTravelMarks.applyMarkMarks) :=
    State.quietly_trans t.applyTravelMarks_quietly (State.quietly_trans (State.applyMarkMarks_quietly _)
      (State.announce_quietly ..))
  obtain ⟨d, raised⟩ := (s.putLoaded image).raiseIf_frame image.isNone .settingsDefaulted
  unfold State.completeLoad
  simp only [raised]
  obtain ⟨w, l, armed⟩ := State.armSweep_frame (State.firstReference { s.putLoaded image with digest := d } s.settings.nEnc)
    ((State.firstReference { s.putLoaded image with digest := d } s.settings.nEnc).position.p +
      (State.firstReference { s.putLoaded image with digest := d } s.settings.nEnc).settings.sweepInterval)
  refine ⟨w, l, State.quietly_trans ?_ (last _)⟩
  rw [armed]
  exact ⟨_, _, _, _, _, _, rfl⟩

/-- Settles O7: landings take their mark entries from the pool and keep the orders, and a retired record gives its marks
back. -/
theorem marksStayAccounted : Obligations.MarksStayAccounted := by
  unfold Obligations.MarksStayAccounted
  refine stepKeeps_of_course (fun _ _ _ law => law) fun {s _} h law => h.keeps Deed.keeps_marks ?_ ?_ ?_ law
  · intro s g r there _ law
    refine markLaw_of_rewritten (h := g) (x := none) law (fun k => State.setReel_reel s g k none) ?_ (fun _ h => by cases h)
      fun _ h => by cases h
    rw [there]
    show 0 + (s.freeMarks + r.chain.length) = r.chain.length + s.freeMarks
    omega
  · intro u kind reset loading _ _ _ _
    have none (h : Handle) := u.powerUp_reel kind reset loading h
    refine markLaw_refl (s := .reset) lawsHoldAfterReset.2.1 rfl fun h => ?_
    rw [none, State.reset_reel]
  · intro ack _ law
    obtain ⟨_, _, quiet⟩ := s.completeLoad_quietly (loadImage ack s.store.eeprom)
    exact Deed.keeps_marks (.quiet quiet.loud) (markLaw_refl law rfl fun _ => rfl)

end Sys2Proof.Machine
end

section
/-! PROOF. The laws of the records, the closing list, the ids, the position, the plans, CUTREQ and the EEPROM (O3, O8, O11,
O15, O17 and parts of O9 and O13). -/

namespace Sys2Proof.Machine

variable {L : Prop}

/-! ## The queue and the timebase (O3) -/

theorem Deed.queue {s t : State} (h : Deed L s t) : t.pending = s.pending ∧ t.now = s.now := by
  cases h with
  | quiet h => obtain ⟨⟨_, _, _, _, _, _, rfl⟩, _⟩ := h; exact ⟨rfl, rfl⟩
  | land h m => obtain ⟨_, _, _, e⟩ := s.land_frame h m; rw [e]; exact ⟨rfl, rfl⟩
  | opening n sh sp x pool flags _ =>
    obtain ⟨_, _, _, _, _, e⟩ := s.openForLane_frame n sh sp x pool flags
    rw [e]; exact ⟨rfl, rfl⟩
  | _ => exact ⟨rfl, rfl⟩

/-- What every command leaves of the queue and the timebase. -/
theorem Course.queue {s t : State} (h : Course s t) : t.pending = s.pending ∧ t.now = s.now := by
  refine h.keeps (law := fun u => u.pending = s.pending ∧ u.now = s.now) (fun d h => ?_) (fun _ _ h => h) ?_ ?_ ⟨rfl, rfl⟩
  · exact ⟨d.queue.1.trans h.1, d.queue.2.trans h.2⟩
  · exact fun now pending _ _ => ⟨pending, now⟩
  · intro ack _ h
    obtain ⟨_, _, quiet⟩ := s.completeLoad_quietly (loadImage ack s.store.eeprom)
    obtain ⟨pending, now⟩ := Deed.queue (.quiet quiet.loud)
    exact ⟨pending.trans h.1, now.trans h.2⟩

/-- Settles O3: every arm of the dispatch answers a next state. -/
theorem everyCommandCompletes : Obligations.EveryCommandCompletes := by
  unfold Obligations.EveryCommandCompletes
  intro c s
  obtain ⟨t, next, course⟩ := exec_course c s
  exact ⟨t, next, course.queue.1, course.queue.2.ge⟩

/-! ## The records (O8) -/

theorem recordLaw_of_reels {s t : State} (law : RecordLaw s) (free : t.table.free = s.table.free)
    (reserved : t.table.reserved = s.table.reserved) (same : ∀ h, (t.reel h).isNone = (s.reel h).isNone) : RecordLaw t := by
  obtain ⟨count, few⟩ := law
  exact ⟨by rw [free, State.freeRecords_congr same, count], by rw [reserved, free]; exact few⟩

theorem Deed.keeps_records {s t : State} (h : Deed L s t) (law : RecordLaw s) : RecordLaw t := by
  cases h with
  | quiet h => obtain ⟨⟨_, _, _, _, _, _, rfl⟩, _⟩ := h; exact law
  | rewrite v same =>
    refine recordLaw_of_reels law rfl rfl fun h => ?_
    change v[h].isNone = (s.reel h).isNone
    have related := same h
    generalize s.reel h = was, v[h] = now at related
    cases related <;> rfl
  | land h m =>
    cases there : s.reel h with
    | none => rw [State.land_free there]; exact law
    | some r =>
      obtain ⟨d, e⟩ := State.land_there there m
      have reels := State.land_rewritten there m
      refine recordLaw_of_reels law (by rw [e]) (by rw [e]) fun g => ?_
      rw [reels g]
      split
      · next same => rw [same, there]; rfl
      · rfl
  | reserved sh n le => exact le law
  | opening n sh sp x pool flags on =>
    obtain ⟨g, st, free, met, e, _, count, reserved, _⟩ | ⟨table, _⟩ := s.openForLane_reels n sh sp x pool flags
    · obtain ⟨total, few⟩ := law
      have sum := e.freeRecords
      rw [free] at sum
      simp only [Option.isNone_none, Option.isNone_some, if_true, Bool.false_eq_true, if_false] at sum
      refine ⟨by omega, ?_⟩
      rw [count, reserved]
      cases pool with
      | unreserved => simp only [State.poolMeets, decide_eq_true_eq] at met; simp only [Pool.charged]; omega
      | reservation =>
        have met : 1 ≤ s.table.reserved.get sh := of_decide_eq_true met
        cases sh <;> simp only [Pool.charged, Pair.set, Pair.get] at met ⊢ <;> omega
    · refine recordLaw_of_reels law (by rw [table]) (by rw [table]) fun h => ?_
      unfold State.reel
      rw [table]
  | _ => exact law

theorem Deed.keeps_closing {s t : State} (h : Deed L s t) (law : ClosingLaw s) : ClosingLaw t := by
  cases h with
  | quiet h => obtain ⟨⟨_, _, _, _, _, _, rfl⟩, _⟩ := h; exact law
  | land h m => obtain ⟨_, _, _, e⟩ := s.land_frame h m; rw [e]; exact law
  | engine e apart => exact apart law
  | opening n sh sp x pool flags _ =>
    obtain ⟨_, _, _, _, _, e⟩ := s.openForLane_frame n sh sp x pool flags
    rw [e]; exact law
  | _ => exact law

theorem recordLaw_powerUp (u : State) (kind : ResetKind) (reset : ResetActivity) (loading : Bool) :
    RecordLaw (u.powerUp kind reset loading) := by
  refine recordLaw_of_reels (s := .reset) RecordLaw.reset rfl rfl fun h => ?_
  rw [State.powerUp_reel, State.reset_reel]

/-- Settles O8: an opening takes one FREE record from its pool, RETIRE gives one back. -/
theorem recordsStayAccounted : Obligations.RecordsStayAccounted := by
  unfold Obligations.RecordsStayAccounted
  constructor
  · refine stepKeeps_of_course (fun _ _ _ law => law) fun {s _} h law => h.keeps Deed.keeps_records ?_ ?_ ?_ law
    · intro s g r there _ law
      obtain ⟨count, few⟩ := law
      have sum := State.rewritten.freeRecords (s := s) (t := s.freeReel g r) (h := g) (x := none)
        fun k => State.setReel_reel s g k none
      rw [there] at sum
      simp only [Option.isNone_none, Option.isNone_some, if_true, Bool.false_eq_true, if_false] at sum
      refine ⟨?_, few.trans (Nat.le_succ _)⟩
      show s.table.free + 1 = _
      omega
    · exact fun _ _ _ _ => recordLaw_powerUp ..
    · intro ack _ law
      obtain ⟨_, _, quiet⟩ := s.completeLoad_quietly (loadImage ack s.store.eeprom)
      exact Deed.keeps_records (.quiet quiet.loud) law
  · refine stepKeeps_of_course (fun _ _ _ law => law) fun {s _} h law => h.keeps Deed.keeps_closing (fun _ _ law => law)
      (fun _ _ _ _ => .nil) ?_ law
    intro ack _ law
    obtain ⟨_, _, quiet⟩ := s.completeLoad_quietly (loadImage ack s.store.eeprom)
    exact Deed.keeps_closing (.quiet quiet.loud) law

/-! ## The ids (O17) -/

theorem stepId_range {c : Nat} (h : 1 ≤ c ∧ c ≤ maxPosition) : 1 ≤ stepId c ∧ stepId c ≤ maxPosition := by
  unfold stepId
  split
  · omega
  · exact ⟨le_rfl, by decide⟩

theorem freeId_range (held : List Nat) (k : Nat) {c : Nat} (h : 1 ≤ c ∧ c ≤ maxPosition) :
    1 ≤ freeId held k c ∧ freeId held k c ≤ maxPosition := by
  induction k generalizing c with
  | zero => exact h
  | succ k ih =>
    unfold freeId
    split
    · exact ih (stepId_range h)
    · exact h

/-- The id counter stepped on so many times. -/
theorem iterate_stepId {c : Nat} (h : c ≤ maxPosition) (i : Nat) (few : i < maxPosition) :
    stepId^[i] c = if c + i ≤ maxPosition then c + i else c + i - maxPosition := by
  induction i with
  | zero => rw [if_pos (by omega)]; rfl
  | succ i ih =>
    rw [Function.iterate_succ_apply', ih (by omega), stepId]
    have : maxPosition = 4294967295 := rfl
    split_ifs <;> omega

/-- The candidates of a search are distinct, whatever the counter stands at. -/
theorem iterate_stepId_injOn (c : Nat) {k : Nat} (small : k < maxPosition) {i j : Nat} (hi : i ≤ k) (hj : j ≤ k)
    (e : stepId^[i] c = stepId^[j] c) : i = j := by
  have limit : maxPosition = 4294967295 := rfl
  by_cases inside : c ≤ maxPosition
  · rw [iterate_stepId inside i (by omega), iterate_stepId inside j (by omega)] at e
    split_ifs at e <;> omega
  · have first : stepId c = 1 := if_neg (by omega)
    have later (m : Nat) (hm : m < maxPosition) : stepId^[m + 1] c = 1 + m := by
      rw [Function.iterate_succ_apply, first, iterate_stepId (by omega) m hm, if_pos (by omega)]
    cases i with
    | zero =>
      cases j with
      | zero => rfl
      | succ j => rw [later j (by omega), Function.iterate_zero_apply] at e; omega
    | succ i =>
      cases j with
      | zero => rw [later i (by omega), Function.iterate_zero_apply] at e; omega
      | succ j => rw [later i (by omega), later j (by omega)] at e; omega

/-- A candidate that is held in the end was held at every step of the search. -/
theorem iterate_mem_of_freeId_mem {held : List Nat} {k c : Nat} (h : freeId held k c ∈ held) :
    ∀ i ≤ k, stepId^[i] c ∈ held := by
  induction k generalizing c with
  | zero => intro i hi; rw [Nat.le_zero.mp hi]; exact h
  | succ k ih =>
    unfold freeId at h
    split at h
    · next mem =>
      intro i hi
      cases i with
      | zero => simpa using mem
      | succ i => exact ih h i (by omega)
    · next fresh => exact absurd h (by simpa using fresh)

/-- The search among more candidates than ids are held finds an id that no record holds (R39). -/
theorem freeId_fresh {held : List Nat} {k c : Nat} (few : held.length ≤ k) (small : k < maxPosition) :
    freeId held k c ∉ held := by
  intro mem
  have all := iterate_mem_of_freeId_mem mem
  have sub : ((Finset.range (k + 1)).image fun i => stepId^[i] c) ⊆ held.toFinset := by
    intro x hx
    obtain ⟨i, hi, rfl⟩ := Finset.mem_image.mp hx
    exact List.mem_toFinset.mpr (all i (Nat.le_of_lt_succ (Finset.mem_range.mp hi)))
  have apart : ((Finset.range (k + 1)).image fun i => stepId^[i] c).card = k + 1 := by
    rw [Finset.card_image_of_injOn, Finset.card_range]
    intro i hi j hj e
    have hi := Finset.mem_range.mp (Finset.mem_coe.mp hi)
    have hj := Finset.mem_range.mp (Finset.mem_coe.mp hj)
    exact iterate_stepId_injOn c small (by omega) (by omega) e
  have := Finset.card_le_card sub
  have := held.toFinset_card_le
  omega

theorem State.heldIds_length (s : State) : s.heldIds.length ≤ 96 :=
  (List.length_filterMap_le ..).trans (List.length_finRange (n := 96)).le

theorem State.mem_heldIds {s : State} {h : Handle} {r : Reel} (there : r ∈ s.reel h) : r.id ∈ s.heldIds :=
  List.mem_filterMap.mpr ⟨h, List.mem_finRange h, by rw [Option.mem_def.mp there]; rfl⟩

/-- The id that an opening gives (R39). -/
def State.nextId (s : State) : Nat := freeId s.heldIds 96 s.settings.reelIdCounter

theorem State.newReel_id (s : State) (n : Lane) (sh : Shaft) (sp : Spindle) (x : Nat) (flags : ReelFlags) (st : PlanStep) :
    (s.newReel n sh sp x flags st).id = s.nextId := rfl

theorem State.nextId_fresh {s : State} {g : Handle} {r : Reel} (there : r ∈ s.reel g) : r.id ≠ s.nextId :=
  fun e => freeId_fresh s.heldIds_length (by decide) (show s.nextId ∈ _ from e ▸ State.mem_heldIds there)

/-- The laws of the ids, of states whose records keep their ids. -/
theorem idLaw_of_ids {s t : State} (law : IdLaw s)
    (counter : 1 ≤ t.settings.reelIdCounter ∧ t.settings.reelIdCounter ≤ maxPosition)
    (back : ∀ h, ∀ q ∈ t.reel h, ∃ r ∈ s.reel h, q.id = r.id) : IdLaw t := by
  obtain ⟨_, range, apart⟩ := law
  refine ⟨counter, fun h q hq => ?_, fun g h ne q hq q' hq' => ?_⟩
  · obtain ⟨r, hr, e⟩ := back h q hq
    rw [e]; exact range h r hr
  · obtain ⟨r, hr, e⟩ := back g q hq
    obtain ⟨r', hr', e'⟩ := back h q' hq'
    rw [e, e']; exact apart g h ne r hr r' hr'

theorem Option.rel_back {α : Type} {R : α → α → Prop} {x y : Option α} (h : Option.Rel R x y) {b : α} (hb : b ∈ y) :
    ∃ a ∈ x, R a b := by
  cases h with
  | some r => cases hb; exact ⟨_, rfl, r⟩
  | none => cases hb

theorem Deed.keeps_ids {s t : State} (h : Deed L s t) (law : IdLaw s) : IdLaw t := by
  cases h with
  | quiet h => obtain ⟨⟨_, _, _, _, _, _, rfl⟩, _⟩ := h; exact law
  | store x same _ _ _ => exact idLaw_of_ids law (by rw [State.settings, State.setStore_store, same]; exact law.1) fun h q hq => ⟨q, hq, rfl⟩
  | settings x _ counter _ _ =>
    refine idLaw_of_ids law ?_ fun h q hq => ⟨q, hq, rfl⟩
    exact counter.elim (fun e => e.symm ▸ law.1) id
  | rewrite v same =>
    refine idLaw_of_ids law law.1 fun h q hq => ?_
    obtain ⟨r, hr, e⟩ := Option.rel_back (same h) hq
    exact ⟨r, hr, e.1⟩
  | land h m =>
    cases there : s.reel h with
    | none => rw [State.land_free there]; exact law
    | some r =>
      obtain ⟨_, e⟩ := State.land_there there m
      refine idLaw_of_ids law (by rw [e]; exact law.1) fun g q hq => ?_
      rw [State.land_rewritten there m g] at hq
      split at hq
      · next same => cases hq; rw [same]; exact ⟨r, there, (s.landedReel_beside m r).1⟩
      · exact ⟨q, hq, rfl⟩
  | opening n sh sp x pool flags on =>
    obtain ⟨g, st, _, _, e, _, _, _, settings⟩ | ⟨table, _, settings⟩ := s.openForLane_reels n sh sp x pool flags
    · obtain ⟨counter, range, apart⟩ := law
      have fresh (h : Handle) (r : Reel) (there : r ∈ s.reel h) := State.nextId_fresh there
      have new : 1 ≤ s.nextId ∧ s.nextId ≤ maxPosition := freeId_range _ _ counter
      refine ⟨by rw [settings]; exact stepId_range new, fun h q hq => ?_, fun h h' ne q hq q' hq' => ?_⟩
      · rw [e h] at hq
        split at hq
        · cases hq; exact new
        · exact range h q hq
      · rw [e h] at hq
        rw [e h'] at hq'
        split at hq
        · next e => 
          split at hq'
          · next e' => exact absurd (e.trans e'.symm) ne
          · cases hq; exact (fresh h' q' hq').symm
        · split at hq'
          · cases hq'; exact fresh h q hq
          · exact apart h h' ne q hq q' hq'
    · refine idLaw_of_ids law (by rw [settings]; exact law.1) fun h q hq => ?_
      unfold State.reel at hq
      rw [table] at hq
      exact ⟨q, hq, rfl⟩
  | _ => exact law

/-- The settings that a load puts in force are those of a valid image, or the ones in force. -/
theorem loadImage_valid {ack : Bool} {m : Memory} {x : Settings} (h : loadImage ack m = some x) : x.valid = true := by
  unfold loadImage settingsOfBody at h
  simp only [] at h
  split at h
  · split at h
    · next ok => cases h; simp only [Bool.and_eq_true] at ok; exact ok.2
    · cases h
  · cases h

theorem Settings.valid_counter {x : Settings} (h : x.valid = true) : 1 ≤ x.reelIdCounter ∧ x.reelIdCounter ≤ maxPosition := by
  simp only [Settings.valid, Bool.and_eq_true, within, decide_eq_true_eq] at h
  tauto

/-- The settings in force after a load keep what a law says of every valid settings. -/
theorem loaded_settings {s : State} {ack : Bool} {Q : Settings → Prop} (valid : ∀ x : Settings, x.valid = true → Q x)
    (old : Q s.settings) : Q ((loadImage ack s.store.eeprom).getD s.settings) := by
  cases e : loadImage ack s.store.eeprom with
  | none => exact old
  | some x => exact valid x (loadImage_valid e)

theorem reelIdsRange_reset :
    1 ≤ State.reset.settings.reelIdCounter ∧ State.reset.settings.reelIdCounter ≤ maxPosition := by decide

/-- Settles O17: an opening searches among more candidates than records hold ids. -/
theorem reelIdsStayDistinct : Obligations.ReelIdsStayDistinct := by
  unfold Obligations.ReelIdsStayDistinct
  refine stepKeeps_of_course (fun _ _ _ law => law) fun {s _} h law => h.keeps Deed.keeps_ids ?_ ?_ ?_ law
  · intro s g r there _ law
    refine idLaw_of_ids law law.1 fun h q hq => ?_
    rw [show (s.freeReel g r).reel h = if h = g then none else s.reel h from State.setReel_reel s g h none] at hq
    split at hq
    · cases hq
    · exact ⟨q, hq, rfl⟩
  · intro u kind reset loading _ _ _ law
    refine ⟨reelIdsRange_reset, fun h r there => ?_, fun g h _ q there => ?_⟩
    all_goals rw [State.powerUp_reel] at there; cases there
  · intro ack _ law
    obtain ⟨_, _, quiet⟩ := s.completeLoad_quietly (loadImage ack s.store.eeprom)
    refine Deed.keeps_ids (.quiet quiet.loud) (idLaw_of_ids law ?_ fun h q hq => ⟨q, hq, rfl⟩)
    exact loaded_settings (Q := fun x => 1 ≤ x.reelIdCounter ∧ x.reelIdCounter ≤ maxPosition)
      (fun _ => Settings.valid_counter) law.1

/-! ## The position (O11) -/

theorem Deed.keeps_position {s t : State} (h : Deed L s t) (law : PositionLaw s) : PositionLaw t := by
  cases h with
  | quiet h => obtain ⟨⟨_, _, _, _, _, _, rfl⟩, _⟩ := h; exact law
  | store x same _ _ _ =>
    unfold PositionLaw State.settings
    rw [State.setStore_store, same]
    exact law
  | settings x range _ _ _ => exact range law
  | web u tr range => exact range law
  | land h m => obtain ⟨_, _, _, e⟩ := s.land_frame h m; rw [e]; exact law
  | opening n sh sp x pool flags _ =>
    have counter : 1 ≤ s.nextId ∧ s.nextId ≤ maxPosition := freeId_range _ _ (Settings.valid_counter law.2.2)
    obtain ⟨_, _, _, _, _, _, _, _, e⟩ | e := s.openForLane_cases n sh sp x pool flags
    · rw [e]
      refine ⟨law.1, law.2.1, ?_⟩
      have valid := law.2.2
      have new : within 1 maxPosition (stepId s.nextId) = true := by
        simp only [within, Bool.and_eq_true, decide_eq_true_eq]
        exact stepId_range counter
      simp only [Settings.valid, Bool.and_eq_true, State.newReel_id] at valid ⊢
      simp_all
    · rw [e]; exact law
  | _ => exact law

theorem positionLaw_reset : PositionLaw State.reset := by
  unfold PositionLaw
  decide

/-- Settles O11: a count carries at most to the limit and the residual stays below N_enc; every setting written is
tested first. -/
theorem positionStaysInRange : Obligations.PositionStaysInRange := by
  unfold Obligations.PositionStaysInRange
  refine stepKeeps_of_course (fun _ _ _ law => law) fun {s _} h law => h.keeps Deed.keeps_position (fun _ _ law => law) ?_ ?_ law
  · exact fun _ _ _ _ => positionLaw_reset
  · intro ack _ law
    obtain ⟨w, l, quiet⟩ := s.completeLoad_quietly (loadImage ack s.store.eeprom)
    refine Deed.keeps_position (.quiet quiet.loud) ⟨law.1, ?_, ?_⟩
    · have pos : 0 < ((loadImage ack s.store.eeprom).getD s.settings).nEnc := by
        refine loaded_settings (Q := fun x => 0 < x.nEnc) (fun x valid => ?_) (Nat.zero_lt_of_lt law.2.1)
        simp only [Settings.valid, Bool.and_eq_true, within, decide_eq_true_eq] at valid
        omega
      show (if _ then _ else _) < ((loadImage ack s.store.eeprom).getD s.settings).nEnc
      split
      · next same => rw [same]; exact law.2.1
      · exact pos
    · exact loaded_settings (Q := fun x => x.valid = true) (fun _ => id) law.2.2

/-! ## Plans and CUTREQ (O9, O13) -/

theorem planLaw_iff {s : State} : PlanLaw s ↔ ∀ sh, (s.shaft sh).planned := .rfl

theorem cutRequestLaw_iff {s : State} : CutRequestLaw s ↔ ∀ sh, (s.shaft sh).asks := .rfl

/-- Every deed writes sound shaft records. -/
theorem Deed.shafts_sound {s t : State} (h : Deed L s t) (sh : Shaft) : (s.shaft sh).Sound (t.shaft sh) := by
  cases h with
  | quiet h => obtain ⟨⟨_, _, _, _, _, _, rfl⟩, _⟩ := h; exact ⟨id, id⟩
  | land h m => obtain ⟨_, _, _, e⟩ := s.land_frame h m; rw [e]; exact ⟨id, id⟩
  | shaft sh' r h =>
    rw [State.setShaft_shaft]
    split
    · next e => rw [e]; exact h
    · exact ⟨id, id⟩
  | opening n sh' sp x pool flags _ =>
    obtain ⟨_, _, _, p, q, e⟩ := s.openForLane_frame n sh' sp x pool flags
    rw [e]
    have := State.setShaft_shaft s sh' sh { s.shaft sh' with spindle1 := p, spindle2 := q }
    unfold State.shaft at *
    rw [show (s.setShaft sh' _).shafts = s.shafts.set sh' _ from rfl] at this
    rw [this]
    split
    · next e => rw [e]; exact ⟨id, id⟩
    · exact ⟨id, id⟩
  | _ => exact ⟨id, id⟩

theorem ShaftRec.retryRaised_sound (r : ShaftRec) : r.Sound r.retryRaised := r.retryRaised_steady.1

theorem State.freeReel_shaft (s : State) (g : Handle) (r : Reel) (sh : Shaft) :
    (s.freeReel g r).shaft sh = (s.shaft sh).retryRaised := by cases sh <;> rfl

/-- A law of each shaft record that sound writes keep is kept by every command. -/
theorem Course.keeps_shafts {Q : ShaftRec → Prop} (sound : ∀ {r q : ShaftRec}, r.Sound q → Q r → Q q) (initial : Q .initial)
    {s t : State} (h : Course s t) (law : ∀ sh, Q (s.shaft sh)) : ∀ sh, Q (t.shaft sh) := by
  refine h.keeps (law := fun u => ∀ sh, Q (u.shaft sh)) (fun d law sh => sound (d.shafts_sound sh) (law sh)) ?_ ?_ ?_ law
  · intro s g r _ _ law sh
    rw [State.freeReel_shaft]
    exact sound (ShaftRec.retryRaised_sound _) (law sh)
  · intro u kind reset loading _ _ _ _ sh
    rw [State.powerUp_shaft]
    exact initial
  · intro ack _ law
    obtain ⟨_, _, quiet⟩ := s.completeLoad_quietly (loadImage ack s.store.eeprom)
    obtain ⟨_, _, _, _, _, _, e⟩ := quiet
    rw [e]
    exact law

theorem Course.keeps_plans {s t : State} (h : Course s t) (law : PlanLaw s) : PlanLaw t :=
  h.keeps_shafts (fun k => k.1) (by unfold ShaftRec.planned; decide) law

theorem Course.keeps_cutRequests {s t : State} (h : Course s t) (law : CutRequestLaw s) : CutRequestLaw t :=
  h.keeps_shafts (fun k => k.2) rfl law

/-! ## The EEPROM (O15) -/

theorem Deed.keeps_eeprom {s t : State} (h : Deed L s t) (law : EepromLaw s) : EepromLaw t := by
  cases h with
  | quiet h => obtain ⟨⟨_, _, _, _, _, _, rfl⟩, _⟩ := h; exact law
  | store x _ fits _ _ => exact fits law
  | land h m => obtain ⟨_, _, _, e⟩ := s.land_frame h m; rw [e]; exact law
  | opening n sh sp x pool flags _ =>
    obtain ⟨_, _, _, _, _, e⟩ := s.openForLane_frame n sh sp x pool flags
    rw [e]; exact law
  | _ => exact law

/-- Settles O15: only a save, a failed save and an abandoned one write the EEPROM, each within its size. -/
theorem eepromStaysCanonical : Obligations.EepromStaysCanonical := by
  unfold Obligations.EepromStaysCanonical
  refine stepKeeps_of_course (fun _ _ _ law => law) fun {s _} h law => h.keeps Deed.keeps_eeprom (fun _ _ law => law) ?_ ?_ law
  · exact fun _ _ fits _ => ⟨fits law, fun _ h => by cases h⟩
  · intro ack _ law
    obtain ⟨_, _, quiet⟩ := s.completeLoad_quietly (loadImage ack s.store.eeprom)
    exact Deed.keeps_eeprom (.quiet quiet.loud) law

end Sys2Proof.Machine
end

section
/-! PROOF. Requests as the port stands to them, the part while it starts (BlankLaw), and the lanes (O10, O19). -/

namespace Sys2Proof.Machine

variable {L : Prop}

/-! ## Requests -/

/-- Every request is carried out by its owning block, and most of them end with the hold unit's part. -/
theorem exec_request {c : Instr} {q : Request} (h : encodeRequest c = some q) : ∃ (act : State → Reply) (settles : Bool),
    ∀ s, exec c s = .next (if settles then s.settle (s.carryOut c act) else s.carryOut c act) := by
  cases c with
  | readDigest | ackDigest | clearAlerts | setAlertMask | queryReel | findReel | listReels | readMarks | queryShaft
  | queryLane | mapSummary | readSettings | resetPart => exact ⟨_, false, fun _ => rfl⟩
  | setLaneGeometry | setLaneShaft | setLaneEnable | setLaneDisable | setLaneReference | setLaneClearTally | setJob
  | setPlanStep | clearPlan | setGradeTable | stageParent | startShaft | stopShaft | change | cancelChange | unloaded
  | addMark | overrideGrade | retire | sweep | holdOverride | resetRun | setSettingsNEnc | setSettingsStopTimeout
  | setSettingsSpliceDebounce | setSettingsDIk | setSettingsDSk | setSettingsDKw | setSettingsHoldQuantum
  | setSettingsSweepInterval | setSettingsReelIdCounter | setSettingsTravelWatermarks | setSettingsMarkWatermarks
  | saveSettings | preserve | cancelPreserve => exact ⟨_, true, fun _ => rfl⟩
  | _ => cases h

/-- A request that the port leaves or turns away does nothing but to the port. -/
theorem exec_of_carryOut {c : Instr} {q : Request} (h : encodeRequest c = some q) {s : State} {p : Port}
    (turned : ∀ act, s.carryOut c act = s.setPort p) : exec c s = .next (s.setPort p) := by
  obtain ⟨act, settles, e⟩ := exec_request h
  rw [e s, turned act]
  cases settles
  · rfl
  · simp

theorem exec_request_reset {c : Instr} {q : Request} (h : encodeRequest c = some q) {s : State} (reset : s.inReset = true) :
    exec c s = .next s :=
  exec_of_carryOut (p := s.port) h fun act => State.carryOut_reset reset c act

theorem exec_request_loading {c : Instr} {q : Request} (h : encodeRequest c = some q) {s : State}
    (reset : s.inReset = false) (loads : s.store.loading = true) :
    exec c s = .next (s.setPort (s.port.refuse .loading q.code)) :=
  exec_of_carryOut h fun act => State.carryOut_loading h reset loads act

theorem exec_request_busy {c : Instr} {q : Request} (h : encodeRequest c = some q) {s : State}
    (reset : s.inReset = false) (loads : s.store.loading = false) (busy : s.port.buffer = .working)
    (work : s.port.held.isSome ∨ s.port.inWork.bind decodeRequest ≠ some c) :
    exec c s = .next (s.setPort (s.port.turnAway q.code)) :=
  exec_of_carryOut h fun act => State.carryOut_busy h reset loads busy work act

/-! ## The part while it starts -/

/-- Neither the settings load nor a clearing reset is in progress. -/
def State.awake (s : State) : Prop := s.store.loading = false ∧ s.store.reset ≠ .clearing

theorem Deed.keeps_awake {s t : State} (h : Deed L s t) (law : s.awake) : t.awake := by
  cases h with
  | quiet h => obtain ⟨⟨_, _, _, _, _, _, rfl⟩, _⟩ := h; exact law
  | store x _ _ load clear =>
    refine ⟨Bool.eq_false_iff.mpr fun h => ?_, fun h => law.2 (clear h)⟩
    exact Bool.eq_false_iff.mp law.1 (load h)
  | begins _ clears => exact absurd clears law.2
  | land h m => obtain ⟨_, _, _, e⟩ := s.land_frame h m; rw [e]; exact law
  | opening n sh sp x pool flags _ =>
    obtain ⟨_, _, _, _, _, e⟩ := s.openForLane_frame n sh sp x pool flags
    rw [e]; exact law
  | _ => exact law

theorem Effect.keeps_awake {s t : State} (h : Effect L s t) (law : s.awake) : t.awake :=
  h.keeps Deed.keeps_awake (fun _ _ law => law) law

theorem State.awake.blankLaw {s : State} (h : s.awake) : BlankLaw s := by
  obtain ⟨loads, clears⟩ := h
  exact ⟨fun either => either.elim (fun h => by rw [loads] at h; cases h) fun h => absurd h clears,
    fun h => absurd h clears, fun h => by rw [loads] at h; cases h⟩

theorem BlankLaw.powerUp (u : State) (kind : ResetKind) {reset : ResetActivity} {loading : Bool}
    (how : (reset = .none ∧ loading = true) ∨ (reset = .clearing ∧ loading = false)) :
    BlankLaw (u.powerUp kind reset loading) := by
  refine ⟨fun _ => ⟨rfl, rfl, rfl, rfl, rfl, rfl, rfl, rfl, rfl, rfl⟩, fun _ => ⟨rfl, rfl, rfl⟩, fun loads => ?_⟩
  obtain ⟨e, _⟩ | ⟨_, e⟩ := how
  · exact e
  · exact absurd (e.symm.trans loads) (by decide)

/-- Nothing changes but the ports, the digest unit and the encoder pins, and in a clearing reset the pins alone. -/
def State.dormantly (s t : State) : Prop :=
  ∃ p l d e, t = { s with port := p, link := l, digest := d, encoder := e } ∧
    (s.store.reset = .clearing → p = s.port ∧ l = s.link ∧ d = s.digest)

theorem State.dormantly_refl (s : State) : s.dormantly s := ⟨_, _, _, _, rfl, fun _ => ⟨rfl, rfl, rfl⟩⟩

theorem State.dormantly.blankLaw {s t : State} (h : s.dormantly t) (law : BlankLaw s) : BlankLaw t := by
  obtain ⟨p, l, d, e, rfl, same⟩ := h
  obtain ⟨blank, ports, order⟩ := law
  refine ⟨blank, fun clears => ?_, order⟩
  obtain ⟨rfl, rfl, rfl⟩ := same clears
  exact ports clears

theorem State.inReset_iff {s : State} : s.inReset = true ↔ s.store.reset ≠ .none := by simp [State.inReset]

theorem State.takeArrival_none {s : State} (h : s.position.arrivals = []) (w : Watch) : s.takeArrival w = none := by
  unfold State.takeArrival
  rw [h]
  rfl

/-- A character received during the settings load touches the receiver and the alerts (R164). -/
theorem State.takeCharacter_loading {s : State} (loads : s.store.loading = true) (char : Byte) (err : Bool) :
    ∃ l d, s.takeCharacter char err = { s with link := l, digest := d } := by
  unfold State.takeCharacter
  split
  · split <;> exact ⟨_, _, rfl⟩
  · split
    · exact ⟨_, _, rfl⟩
    · split
      · unfold State.takeFrame
        split
        · rw [if_pos (show ((s.setLink s.link.hunting).store.loading = true) from loads)]; exact ⟨_, _, rfl⟩
        · exact ⟨_, _, rfl⟩
      · exact ⟨_, _, rfl⟩

theorem Port.endAnswer_initial (clocked : Nat) : Port.initial.endAnswer clocked = Port.initial := rfl

/-- While the part starts, no command but a start, a reset or an end of one does anything to a block. -/
theorem exec_dormant {c : Instr} (goes : restarts c = false) {s : State} (law : BlankLaw s)
    (starts : s.store.loading = true ∨ s.store.reset = .clearing) : ∃ t, exec c s = .next t ∧ s.dormantly t := by
  obtain ⟨position, map, table, marks, travel, shafts, engine, hold, settings, save⟩ := law.1 starts
  have arrivals : s.position.arrivals = [] := by rw [position]; rfl
  have tracking : s.tracking = false := by
    unfold State.tracking
    obtain h | h := starts <;> simp [h]
  have awake : s.store.reset = .clearing ∨ (s.store.loading = true ∧ s.inReset = false ∧ s.store.reset ≠ .clearing) := by
    by_cases h : s.store.reset = .clearing
    · exact .inl h
    · have loads := starts.resolve_right h
      exact .inr ⟨loads, by simp [State.inReset, law.2.2 loads], h⟩
  have clearing (h : s.store.reset = .clearing) : s.inReset = true := by simp [State.inReset, h]
  cases hq : encodeRequest c with
  | some q =>
    obtain h | ⟨loads, reset, h⟩ := awake
    · exact ⟨s, exec_request_reset hq (clearing h), s.dormantly_refl⟩
    · exact ⟨_, exec_request_loading hq reset loads, _, _, _, _, rfl, fun k => absurd k h⟩
  | none =>
    cases c with
    | quadratureChange x y =>
      refine ⟨_, rfl, s.port, s.link, s.digest, (x, y), ?_, fun _ => ⟨rfl, rfl, rfl⟩⟩
      rw [if_neg (by rw [show (s.setEncoder (x, y)).tracking = s.tracking from rfl, tracking]; decide)]
      exact State.settle_untouched rfl rfl rfl rfl rfl rfl
    | stopTimerExpiry =>
      refine ⟨_, rfl, ?_⟩
      rw [show s.position.stopTimer = none by rw [position]; rfl]
      exact s.dormantly_refl
    | splicePulse =>
      refine ⟨_, rfl, ?_⟩
      simp only [tracking, Bool.false_and, Bool.false_eq_true, if_false, State.settle_self]
      exact s.dormantly_refl
    | cutPulse sh =>
      refine ⟨_, rfl, ?_⟩
      simp only [tracking, Bool.false_eq_true, if_false]
      exact s.dormantly_refl
    | cutTaken sh =>
      refine ⟨_, rfl, ?_⟩
      have none : s.position.latch.get sh = none := by rw [position]; cases sh <;> rfl
      simp only [State.cut, none, State.settle_self]
      exact s.dormantly_refl
    | knifeWatchArrival =>
      refine ⟨_, rfl, ?_⟩
      rw [State.takeArrival_none arrivals]
      exact s.dormantly_refl
    | nipWatchArrival sh =>
      refine ⟨_, rfl, ?_⟩
      rw [State.takeArrival_none arrivals]
      exact s.dormantly_refl
    | thresholdArrival sh k =>
      refine ⟨_, rfl, ?_⟩
      rw [State.takeArrival_none arrivals]
      exact s.dormantly_refl
    | automaticRetry sh =>
      refine ⟨_, rfl, ?_⟩
      rw [if_pos (by unfold State.shaft; rw [shafts]; cases sh <;> rfl)]
      exact s.dormantly_refl
    | sweepWatchArrival =>
      refine ⟨_, rfl, ?_⟩
      rw [State.takeArrival_none arrivals]
      split <;> exact s.dormantly_refl
    | visitComplete =>
      refine ⟨_, rfl, ?_⟩
      rw [engine]
      exact s.dormantly_refl
    | closingComplete =>
      refine ⟨_, rfl, ?_⟩
      rw [engine]
      exact s.dormantly_refl
    | holdTimerExpiry line =>
      refine ⟨_, rfl, ?_⟩
      rw [show s.hold.expiry line = none by rw [hold]; cases line <;> rfl]
      exact s.dormantly_refl
    | overrideExpiry =>
      refine ⟨_, rfl, ?_⟩
      rw [show s.hold.override = none by rw [hold]; rfl]
      exact s.dormantly_refl
    | uartCharacter char err =>
      refine ⟨_, rfl, ?_⟩
      obtain h | ⟨loads, reset, h⟩ := awake
      · rw [if_pos (clearing h)]; exact s.dormantly_refl
      · obtain ⟨l, d, e⟩ := State.takeCharacter_loading loads char err
        have settled := State.settle_untouched (before := s) (after := { s with link := l, digest := d })
          rfl rfl rfl rfl rfl rfl
        rw [if_neg (by rw [reset]; decide), e, settled]
        exact ⟨_, _, _, _, rfl, fun k => absurd k h⟩
    | gapTimerExpiry =>
      refine ⟨_, rfl, ?_⟩
      obtain h | ⟨loads, reset, h⟩ := awake
      · rw [clearing h]
        simp only [Bool.not_true, Bool.and_false, Bool.false_and, Bool.false_eq_true, if_false]
        exact s.dormantly_refl
      · split
        · exact ⟨_, _, _, _, rfl, fun k => absurd k h⟩
        · exact s.dormantly_refl
    | requestTransaction frame =>
      refine ⟨_, rfl, ?_⟩
      obtain h | ⟨loads, reset, h⟩ := awake
      · rw [if_pos (clearing h)]; exact s.dormantly_refl
      · obtain ⟨p, e⟩ := s.requestTransaction_frame frame
        rw [if_neg (by rw [reset]; decide), e]
        exact ⟨_, _, _, _, rfl, fun k => absurd k h⟩
    | ignoredTransaction => exact ⟨_, rfl, s.dormantly_refl⟩
    | answerStart =>
      refine ⟨_, rfl, ?_⟩
      unfold State.startTransaction
      obtain h | ⟨loads, reset, h⟩ := awake
      · rw [if_pos (clearing h)]; exact s.dormantly_refl
      · rw [if_neg (by rw [reset]; decide)]
        exact ⟨_, _, _, _, rfl, fun k => absurd k h⟩
    | answerEnd clocked =>
      refine ⟨_, rfl, _, _, _, _, rfl, fun h => ⟨?_, rfl, rfl⟩⟩
      rw [(law.2.1 h).1]
      rfl
    | saveComplete outcome =>
      refine ⟨_, rfl, ?_⟩
      rw [save]
      exact s.dormantly_refl
    | powerOn => cases goes
    | warmReset => cases goes
    | resetEnd => cases goes
    | settingsLoadComplete ack => cases goes
    | setSettingsDKw shaft value => cases shaft <;> cases hq
    | _ => cases hq

theorem State.takeReset_blankLaw (s : State) : BlankLaw s.takeReset := by
  unfold State.takeReset
  split
  · exact State.awake.blankLaw ⟨rfl, show ResetActivity.preserving ≠ .clearing by decide⟩
  · exact .powerUp _ _ (.inr ⟨rfl, rfl⟩)

/-- The commands that start the part, reset it or end a reset keep the law of a part that starts. -/
theorem BlankLaw.restarts {c : Instr} {s t : State} (law : BlankLaw s)
    (starts : s.store.loading = true ∨ s.store.reset = .clearing) (goes : restarts c = true)
    (h : exec c s = .next t) : BlankLaw t := by
  cases c with
  | powerOn =>
    cases h
    unfold State.powerOn
    split
    · exact .powerUp _ _ (.inr ⟨rfl, rfl⟩)
    · exact .powerUp _ _ (.inl ⟨rfl, rfl⟩)
  | warmReset =>
    cases h
    split
    · exact law
    · exact s.takeReset_blankLaw
  | resetEnd =>
    cases h
    unfold State.endReset
    split
    · exact law
    · next clears =>
      refine ⟨fun _ => law.1 starts, fun h => ?_, fun _ => rfl⟩
      exact absurd (show ResetActivity.none = .clearing from h) (by decide)
    · next preserves =>
      obtain loads | clears := starts
      · exact absurd ((law.2.2 loads).symm.trans preserves) (by decide)
      · exact absurd (clears.symm.trans preserves) (by decide)
  | settingsLoadComplete ack =>
    cases h
    split
    · next loads =>
      obtain ⟨_, _, quiet⟩ := s.completeLoad_quietly (loadImage ack s.store.eeprom)
      refine (Deed.keeps_awake (.quiet quiet.loud) ⟨rfl, ?_⟩).blankLaw
      show s.store.reset ≠ .clearing
      rw [law.2.2 loads]
      decide
    · exact law
  | resetPart =>
    have hq : encodeRequest .resetPart = some ⟨0x44, []⟩ := rfl
    by_cases reset : s.inReset = true
    · rw [exec_request_reset hq reset] at h
      cases h
      exact law
    · have reset : s.inReset = false := by simpa using reset
      have none : s.store.reset = .none := by simpa [State.inReset] using reset
      have loads := starts.resolve_right (by rw [none]; decide)
      rw [exec_request_loading hq reset loads] at h
      cases h
      exact ⟨law.1, fun clears => absurd (none.symm.trans clears) (by decide), law.2.2⟩
  | _ => cases goes

/-- A step keeps BlankLaw. -/
theorem blankLaw_kept {c : Instr} {s t : State} (law : BlankLaw s) (h : exec c s = .next t) : BlankLaw t := by
  by_cases awake : s.awake
  · obtain ⟨u, hu, course⟩ := exec_course c s
    rw [hu] at h
    cases h
    cases course with
    | effect h => exact (h.keeps_awake awake).blankLaw
    | powerUp kind reset loading _ _ how _ => exact .powerUp _ kind how
    | begins clears => exact absurd clears awake.2
    | load ack loads => rw [awake.1] at loads; cases loads
  · have starts : s.store.loading = true ∨ s.store.reset = .clearing := by
      unfold State.awake at awake
      cases hl : s.store.loading with
      | true => exact .inl rfl
      | false => exact .inr (not_not.mp fun h => awake ⟨hl, h⟩)
    cases goes : restarts c with
    | false =>
      obtain ⟨u, hu, dormant⟩ := exec_dormant goes law starts
      rw [hu] at h
      cases h
      exact dormant.blankLaw law
    | true => exact BlankLaw.restarts law starts goes h

theorem blankLaw_steps : StepKeeps BlankLaw := by
  intro s t law h
  obtain ⟨rfl, _⟩ | ⟨c, rest, _, e, _⟩ := step_course h
  · exact law
  · exact blankLaw_kept (s := s.setPending rest) law e

/-! ## The lanes (O10) -/

theorem MapLaw.congr {s t : State} (law : MapLaw s) (map : t.map = s.map) (web : t.settings.webWidth = s.settings.webWidth) :
    MapLaw t := by
  have lane (n : Lane) : t.lane n = s.lane n := by unfold State.lane; rw [map]
  obtain ⟨_, _, _, references, unique, untrackeds, _⟩ := id law
  refine law.of_lanes (by rw [map]) web (fun n => by rw [lane]; exact ⟨rfl, rfl⟩) (fun n => by rw [lane]; exact id)
    (fun n => by rw [lane]; exact references n) (fun m n => by rw [lane, lane]; exact unique m n)
    fun n => by rw [lane]; exact untrackeds n

/-- Another web width that no enabled lane ends beyond (R20). -/
theorem MapLaw.web {s : State} (law : MapLaw s) {x : Settings}
    (h : x.webWidth = s.settings.webWidth ∨ s.lanesBeyond x.webWidth = false) : MapLaw (s.setSettings x) := by
  obtain h | h := h
  · exact law.congr rfl h
  · obtain ⟨ranges, aparts, _, rest⟩ := law
    refine ⟨ranges, aparts, fun n on => ?_, rest⟩
    have on : (s.lane n).enabled = true := on
    have all := List.any_eq_false.mp h (s.lane n) (by unfold State.lane; simp)
    simpa [on] using all

theorem Deed.keeps_map {s t : State} (h : Deed L s t) (law : MapLaw s) : MapLaw t := by
  cases h with
  | quiet h => obtain ⟨⟨_, _, _, _, _, _, rfl⟩, _⟩ := h; exact law.congr rfl rfl
  | store x same _ _ _ => exact law.congr rfl (by rw [State.settings, State.setStore_store, same])
  | begins _ => exact law.congr rfl rfl
  | settings x _ _ web _ => exact law.web web
  | web u tr _ => exact law.congr rfl rfl
  | map m apart => exact apart law
  | rewrite v _ => exact law.congr rfl rfl
  | land h m => obtain ⟨_, _, _, e⟩ := s.land_frame h m; rw [e]; exact law.congr rfl rfl
  | reserved sh n _ => exact law.congr rfl rfl
  | shaft sh r _ => exact law.congr rfl rfl
  | engine e _ => exact law.congr rfl rfl
  | opening n sh sp x pool flags on =>
    have reference := law.2.2.2.1 n
    obtain ⟨h, _, _, _, _, _, _, _, e⟩ | e := s.openForLane_cases n sh sp x pool flags
    · have lane := law.setLane_steady (n := n) (k := { s.lane n with current := some h, untracked := false }) rfl rfl .inl
        (fun on => ⟨reference on, on, rfl⟩) fun h => by cases h
      rw [e]
      exact lane.congr rfl rfl
    · rw [e]
      exact law.setLane_steady rfl rfl .inl (fun on => ⟨reference on, on, rfl⟩) fun _ => ⟨on, rfl⟩

/-- Settles O10: a lane is enabled or placed only where it is tested to be apart; a load finds no lane enabled. -/
theorem lanesStayApart : Obligations.LanesStayApart := by
  unfold Obligations.LanesStayApart
  intro s t law h
  rw [laneLaw_and_orderLaw_iff] at law ⊢
  obtain ⟨blank, map⟩ := law
  refine ⟨blankLaw_steps s t blank h, ?_⟩
  obtain ⟨rfl, _⟩ | ⟨c, rest, _, _, course⟩ := step_course h
  · exact map
  · refine course.keeps Deed.keeps_map (fun _ _ law => law.congr rfl rfl) ?_ ?_ (map.congr rfl rfl)
    · exact fun _ _ _ _ => mapLaw_of_initial rfl
    · intro ack loads _
      obtain ⟨_, _, quiet⟩ := (s.setPending rest).completeLoad_quietly (loadImage ack s.store.eeprom)
      exact Deed.keeps_map (.quiet quiet.loud) (mapLaw_of_initial (blank.1 (.inl loads)).2.1)

/-! ## Requests turned away (O19) -/

/-- Settles O19: the standing of the port decides before the request's own block is asked. -/
theorem requestsTurnedAway : Obligations.RequestsTurnedAway := by
  unfold Obligations.RequestsTurnedAway
  intro i q s hq
  exact ⟨exec_request_reset hq, exec_request_loading hq, exec_request_busy hq⟩

end Sys2Proof.Machine
end

section
/-! PROOF. Fields of bytes: where a field stands in a payload, and what the frames and the image spell. -/

namespace Sys2Proof.Machine

/-! ## Fields -/

/-- A field behind a first part of the bytes. -/
@[simp] theorem fieldAt_skip {fst bs : List Byte} {off len : Nat} (h : fst.length ≤ off) :
    fieldAt (fst ++ bs) off len = fieldAt bs (off - fst.length) len := by
  rw [fieldAt, fieldAt, List.drop_append, List.drop_eq_nil_of_le h, List.nil_append]

/-- A field within a first part of the bytes. -/
@[simp] theorem fieldAt_within {fst bs : List Byte} {off len : Nat} (h : off + len ≤ fst.length) :
    fieldAt (fst ++ bs) off len = fieldAt fst off len := by
  rw [fieldAt, fieldAt, List.drop_append_of_le_length (by omega), List.take_append_of_le_length (by simp; omega)]

@[simp] theorem fieldAt_beBytes (k n : Nat) : fieldAt (beBytes k n) 0 k = n % 256 ^ k := by
  rw [fieldAt, List.drop_zero, List.take_of_length_le (by simp), ofBE_beBytes_mod]

@[simp] theorem fieldAt_one (b : Byte) (bs : List Byte) : fieldAt (b :: bs) 0 1 = b.toNat := by
  simp [fieldAt, ofBE]

@[simp] theorem fieldAt_cons (b : Byte) (bs : List Byte) {off len : Nat} (h : 1 ≤ off) :
    fieldAt (b :: bs) off len = fieldAt bs (off - 1) len := by
  obtain ⟨k, rfl⟩ := Nat.exists_eq_add_of_le' h
  rfl

@[simp] theorem bytes16_length (w : Word16) : (bytes16 w).length = 2 := beBytes_length 2 _
@[simp] theorem bytes24_length (w : BitVec 24) : (bytes24 w).length = 3 := beBytes_length 3 _
@[simp] theorem bytes32_length (w : Word32) : (bytes32 w).length = 4 := beBytes_length 4 _

@[simp] theorem fieldAt_bytes16 (w : Word16) : fieldAt (bytes16 w) 0 2 = w.toNat := by
  exact (fieldAt_beBytes 2 w.toNat).trans (Nat.mod_eq_of_lt w.isLt)

@[simp] theorem fieldAt_bytes24 (w : BitVec 24) : fieldAt (bytes24 w) 0 3 = w.toNat := by
  exact (fieldAt_beBytes 3 w.toNat).trans (Nat.mod_eq_of_lt w.isLt)

@[simp] theorem fieldAt_bytes32 (w : Word32) : fieldAt (bytes32 w) 0 4 = w.toNat := by
  exact (fieldAt_beBytes 4 w.toNat).trans (Nat.mod_eq_of_lt w.isLt)

/-! ## Request frames (O21) -/

theorem payloadLength_le {code n : Nat} (h : payloadLength code = some n) : n ≤ 31 := by
  unfold payloadLength at h
  split at h <;> cases h <;> decide

/-- The payload of a request has the length that the catalogue gives for its code. -/
theorem encodeRequest_catalogued {i : Instr} {q : Request} (h : encodeRequest i = some q) :
    payloadLength q.code.toNat = some q.payload.length := by
  have table (t : GradeTable) := tableBytes_length t
  cases i with
  | setSettingsDKw shaft value => cases shaft <;> cases h <;> rfl
  | setGradeTable index t =>
    cases h
    show some 25 = some (1 + (tableBytes t).length)
    rw [table]
  | _ => cases h <;> rfl

/-- Bytes with their CRC-16 behind them: their length, the bytes themselves and the CRC again. -/
theorem checked_frame (bytes : List Byte) :
    (bytes ++ bytes16 (crc16 bytes)).length = bytes.length + 2 ∧
      (bytes ++ bytes16 (crc16 bytes)).take (bytes.length + 2 - 2) = bytes ∧
      fieldAt (bytes ++ bytes16 (crc16 bytes)) (bytes.length + 2 - 2) 2 = (crc16 bytes).toNat :=
  ⟨by simp, by simp, by simp [fieldAt_skip, fieldAt_bytes16]⟩

theorem requestFrame_valid {q : Request} (h : payloadLength q.code.toNat = some q.payload.length) :
    frameValid (requestFrame q) = true ∧ frameCode (requestFrame q) = q.code ∧
      framePayload (requestFrame q) = q.payload := by
  have short := payloadLength_le h
  obtain ⟨code, payload⟩ := q
  have size : (byteOf (1 + payload.length)).toNat = 1 + payload.length := by
    rw [byteOf_toNat]
    exact Nat.mod_eq_of_lt (by simp only at short; omega)
  refine ⟨?_, rfl, ?_⟩
  · have catalogue : catalogued (requestFrame ⟨code, payload⟩) = true := by
      unfold catalogued
      show (match payloadLength code.toNat with
        | none => false
        | some n => decide ((byteOf (1 + payload.length)).toNat = 1 + n)) = true
      rw [h, size]
      simp
    obtain ⟨length, body, check⟩ := checked_frame (byteOf (1 + payload.length) :: code :: payload)
    have first : (requestFrame ⟨code, payload⟩).getD 0 0 = byteOf (1 + payload.length) := rfl
    unfold frameValid
    rw [catalogue, first, size]
    unfold requestFrame
    rw [length, body, check]
    simp
    omega
  · simp [framePayload, requestFrame]

/-! ## What a payload spells -/

section Words
variable {fst bs : List Byte} {off : Nat}

@[simp] theorem word16At_bytes16 (w : Word16) : word16At (bytes16 w) 0 = w := by
  rw [word16At, fieldAt_bytes16, BitVec.ofNat_toNat, BitVec.setWidth_eq]

@[simp] theorem word24At_bytes24 (w : BitVec 24) : word24At (bytes24 w) 0 = w := by
  rw [word24At, fieldAt_bytes24, BitVec.ofNat_toNat, BitVec.setWidth_eq]

@[simp] theorem word32At_bytes32 (w : Word32) : word32At (bytes32 w) 0 = w := by
  rw [word32At, fieldAt_bytes32, BitVec.ofNat_toNat, BitVec.setWidth_eq]

@[simp] theorem word16At_skip (h : fst.length ≤ off) : word16At (fst ++ bs) off = word16At bs (off - fst.length) := by
  rw [word16At, fieldAt_skip h, word16At]

@[simp] theorem word24At_skip (h : fst.length ≤ off) : word24At (fst ++ bs) off = word24At bs (off - fst.length) := by
  rw [word24At, fieldAt_skip h, word24At]

@[simp] theorem word32At_skip (h : fst.length ≤ off) : word32At (fst ++ bs) off = word32At bs (off - fst.length) := by
  rw [word32At, fieldAt_skip h, word32At]

@[simp] theorem word16At_within (h : off + 2 ≤ fst.length) : word16At (fst ++ bs) off = word16At fst off := by
  rw [word16At, fieldAt_within h, word16At]

@[simp] theorem word24At_within (h : off + 3 ≤ fst.length) : word24At (fst ++ bs) off = word24At fst off := by
  rw [word24At, fieldAt_within h, word24At]

@[simp] theorem word32At_within (h : off + 4 ≤ fst.length) : word32At (fst ++ bs) off = word32At fst off := by
  rw [word32At, fieldAt_within h, word32At]

@[simp] theorem word16At_cons (b : Byte) (h : 1 ≤ off) : word16At (b :: bs) off = word16At bs (off - 1) := by
  rw [word16At, fieldAt_cons b bs h, word16At]

@[simp] theorem word24At_cons (b : Byte) (h : 1 ≤ off) : word24At (b :: bs) off = word24At bs (off - 1) := by
  rw [word24At, fieldAt_cons b bs h, word24At]

@[simp] theorem word32At_cons (b : Byte) (h : 1 ≤ off) : word32At (b :: bs) off = word32At bs (off - 1) := by
  rw [word32At, fieldAt_cons b bs h, word32At]

@[simp] theorem byteAt_skip (h : fst.length ≤ off) : byteAt (fst ++ bs) off = byteAt bs (off - fst.length) := by
  simp [byteAt, List.getElem?_append_right h]

@[simp] theorem byteAt_within (h : off + 1 ≤ fst.length) : byteAt (fst ++ bs) off = byteAt fst off := by
  simp [byteAt, List.getElem?_append_left (Nat.lt_of_succ_le h)]

@[simp] theorem byteAt_zero (b : Byte) : byteAt (b :: bs) 0 = b := rfl

@[simp] theorem byteAt_cons (b : Byte) (h : 1 ≤ off) : byteAt (b :: bs) off = byteAt bs (off - 1) := by
  obtain ⟨k, rfl⟩ := Nat.exists_eq_add_of_le' h
  rfl

end Words

theorem jobAt_jobBytes (job : JobFields) : jobAt (jobBytes job) = job := by
  simp [jobAt, jobBytes, shaftJobAt, shaftJobBytes]

theorem stepAt_stepBytes (b c : Byte) (st : StepFields) : stepAt ([b, c] ++ stepBytes st) 2 = st := by
  simp [stepAt, stepBytes]

/-- A table's 24 bytes behind others are read back as the table. -/
theorem tableAt_behind {fst : List Byte} {off : Nat} (h : fst.length = off) (t : GradeTable) (bs : List Byte) :
    tableAt (fst ++ (tableBytes t ++ bs)) off = t := by
  subst h
  have shift : tableAt (fst ++ (tableBytes t ++ bs)) fst.length = tableAt (tableBytes t ++ bs) 0 := by
    simp [tableAt, maximaAt, Nat.add_assoc]
  rw [shift]
  simp [tableAt, maximaAt, tableBytes, Maxima.toBytes]

/-- The payload of a request spells its command. -/
theorem decodeRequest_encode {i : Instr} {q : Request} (h : encodeRequest i = some q) (wf : i.wf = true) :
    decodeRequest q = some i := by
  cases i with
  | queryLane lane => 
    cases h
    have other : lane ≠ 0 := by simpa [Instr.wf] using wf
    exact if_neg other
  | setJob job => cases h; exact congrArg (fun j => some (Instr.setJob j)) (jobAt_jobBytes job)
  | setPlanStep shaft number st =>
    cases h
    exact congrArg (fun x => some (Instr.setPlanStep shaft number x)) (stepAt_stepBytes shaft number st)
  | setGradeTable index t =>
    cases h
    have spelt := tableAt_behind (fst := [index]) rfl t []
    rw [List.append_nil] at spelt
    exact congrArg (fun x => some (Instr.setGradeTable index x)) spelt
  | setSettingsDKw shaft value => cases shaft <;> cases h <;> simp [decodeRequest, decodeSetting, settingEdit]
  | _ => cases h <;> simp [decodeRequest, decodeLaneEdit, laneEdit, decodeSetting, settingEdit]

/-- Settles O21. -/
theorem requestFramesRoundTrip : Obligations.RequestFramesRoundTrip := by
  unfold Obligations.RequestFramesRoundTrip
  intro i q hq wf
  obtain ⟨valid, code, payload⟩ := requestFrame_valid (encodeRequest_catalogued hq)
  exact ⟨valid, code, payload, decodeRequest_encode hq wf⟩

/-! ## A request through the port (O20) -/

/-- Carried out where its transaction has brought it, a request does what its command alone does. -/
theorem exec_taken {i : Instr} {q : Request} (hq : encodeRequest i = some q) (spelt : decodeRequest q = some i)
    {s : State} (takes : s.takesRequests) (free : s.port.held = none) :
    exec i (s.setPort (s.port.take q)) = exec i s := by
  obtain ⟨act, settles, e⟩ := exec_request hq
  have carried : (s.setPort (s.port.take q)).carryOut i act = s.carryOut i act := by
    rw [State.carryOut_free hq takes act]
    exact State.carryOut_inWork (s := s.setPort (s.port.take q)) hq takes.1 takes.2.1 rfl free spelt act
  rw [e, e, carried]
  rfl

/-- Settles O20. -/
theorem requestThroughThePort : Obligations.RequestThroughThePort := by
  unfold Obligations.RequestThroughThePort
  intro i q s hq wf takes free
  obtain ⟨valid, code, payload⟩ := requestFrame_valid (encodeRequest_catalogued hq)
  have spelt := decodeRequest_encode hq wf
  refine ⟨s.setPort (s.port.take q), ?_, exec_taken hq spelt takes free, rfl⟩
  obtain ⟨awake, loaded, idle⟩ := takes
  have taken : (s.startTransaction .request).endRequest (requestFrame q) = s.setPort (s.port.take q) := by
    simp [State.startTransaction, Port.start, Port.take, State.endRequest, State.takeRequest, awake, loaded, idle,
      valid, code, payload, spelt]
  show Host.Outcome.next (if s.inReset then s else (s.startTransaction .request).endRequest (requestFrame q)) = _
  rw [awake, taken]
  rfl

end Sys2Proof.Machine
end

section
/-! PROOF. The settings image (O22) and the layout of the answer payloads (O23). -/

namespace Sys2Proof.Machine

/-! ## Fields of a list of records -/

@[simp] theorem shows_nil (bs : List Byte) : Shows bs [] := fun _ h => absurd h List.not_mem_nil

@[simp] theorem shows_cons (bs : List Byte) (f : Nat × Nat × Nat) (fs : List (Nat × Nat × Nat)) :
    Shows bs (f :: fs) ↔ fieldAt bs f.1 f.2.1 = f.2.2 % 256 ^ f.2.1 ∧ Shows bs fs :=
  List.forall_mem_cons

/-- A payload whose fields all lie in its first part. -/
theorem Shows.append {bs : List Byte} {fs : List (Nat × Nat × Nat)} (h : Shows bs fs)
    (fits : ∀ f ∈ fs, f.1 + f.2.1 ≤ bs.length) (rest : List Byte) : Shows (bs ++ rest) fs :=
  fun f hf => (fieldAt_within (fits f hf)).trans (h f hf)

/-- A field of the record at place i among records of one length. -/
theorem fieldAt_flatMap {α : Type} {f : α → List Byte} {k : Nat} {l : List α} (size : ∀ x ∈ l, (f x).length = k)
    {i : Nat} {x : α} (h : l[i]? = some x) {off len : Nat} (fits : off + len ≤ k) :
    fieldAt (l.flatMap f) (k * i + off) len = fieldAt (f x) off len := by
  induction l generalizing i with
  | nil => simp at h
  | cons y l ih =>
    rw [List.flatMap_cons]
    have first := size y List.mem_cons_self
    cases i with
    | zero =>
      cases Option.some.inj h
      rw [Nat.mul_zero, Nat.zero_add, fieldAt_within (by omega)]
    | succ i =>
      rw [fieldAt_skip (by rw [first, Nat.mul_succ]; omega), first,
        show k * (i + 1) + off - k = k * i + off by rw [Nat.mul_succ]; omega]
      exact ih (fun z hz => size z (List.mem_cons_of_mem _ hz)) h

theorem length_flatMap_of_size {α : Type} {f : α → List Byte} {k : Nat} {l : List α} (size : ∀ x ∈ l, (f x).length = k) :
    (l.flatMap f).length = k * l.length := by
  induction l with
  | nil => rfl
  | cons y l ih =>
    rw [List.flatMap_cons, List.length_append, size y List.mem_cons_self,
      ih fun z hz => size z (List.mem_cons_of_mem _ hz), List.length_cons, Nat.mul_succ, Nat.add_comm]

@[simp] theorem byte_mod (b : Byte) : b.toNat % 256 = b.toNat := Nat.mod_eq_of_lt b.isLt
@[simp] theorem word16_mod (w : Word16) : w.toNat % 65536 = w.toNat := Nat.mod_eq_of_lt w.isLt
@[simp] theorem word24_mod (w : BitVec 24) : w.toNat % 16777216 = w.toNat := Nat.mod_eq_of_lt w.isLt
@[simp] theorem word32_mod (w : Word32) : w.toNat % 4294967296 = w.toNat := Nat.mod_eq_of_lt w.isLt

/-! ## The settings body -/

/-- The 19 numbers of the body with their places (R186). -/
theorem Settings.toBody_shows (st : Settings) : Shows st.toBody [(0, 3, st.nEnc), (3, 2, st.stopTimeout),
    (5, 3, st.debounce), (8, 3, st.dIk), (11, 3, st.dSk), (14, 3, st.dKw.a), (17, 3, st.dKw.b), (20, 1, st.travelLower),
    (21, 2, st.travelUpper), (23, 2, st.markLower), (25, 2, st.markUpper), (27, 2, st.quantum),
    (29, 3, st.sweepInterval), (32, 4, st.reelIdCounter), (36, 2, st.webWidth), (38, 1, st.thickness),
    (39, 2, st.packing), (41, 3, st.rho.a), (44, 3, st.rho.b)] := by
  unfold Settings.toBody
  generalize st.tables.toList.flatMap tableBytes = tables
  simp

theorem Settings.toBody_job (st : Settings) (sh : Shaft) :
    let o := match sh with
      | .a => 47
      | .b => 53
    let j := st.job.get sh
    Shows st.toBody [(o, 2, j.approach), (o + 2, 1, windowCode j.window + if j.auto then 128 else 0),
      (o + 3, 3, j.overrun)] := by
  unfold Settings.toBody
  generalize st.tables.toList.flatMap tableBytes = tables
  cases sh
  · simp [ShaftJob.toBody, byteOf_toNat, Pair.get]
    rfl
  · simp [ShaftJob.toBody, byteOf_toNat, Pair.get]
    rfl

theorem Settings.toBody_tables (st : Settings) : ∃ items : List Byte, items.length = 59 ∧
    st.toBody = items ++ st.tables.toList.flatMap tableBytes := by
  refine ⟨_, ?_, rfl⟩
  simp [ShaftJob.toBody]

theorem tableAt_flatMap {l : List GradeTable} {i : Nat} {t : GradeTable} (h : l[i]? = some t) {items : List Byte}
    (size : items.length = 59) : tableAt (items ++ l.flatMap tableBytes) (59 + 24 * i) = t := by
  obtain ⟨short, rfl⟩ := List.getElem?_eq_some_iff.mp h
  have split : l.flatMap tableBytes =
      (l.take i).flatMap tableBytes ++ (tableBytes l[i] ++ (l.drop (i + 1)).flatMap tableBytes) := by
    rw [← List.flatMap_cons, ← List.drop_eq_getElem_cons, ← List.flatMap_append, List.take_append_drop]
  rw [split, ← List.append_assoc]
  refine tableAt_behind ?_ _ _
  rw [List.length_append, size, length_flatMap_of_size fun t _ => tableBytes_length t, List.length_take,
    Nat.min_eq_left (Nat.le_of_lt short)]

/-! ## The image (O22) -/

theorem windowOfCode_windowCode {w : Nat} (h : windowValid w = true) : windowOfCode (windowCode w) = w := by
  simp only [windowValid, Bool.or_eq_true, decide_eq_true_eq] at h
  obtain ((rfl | rfl) | rfl) | rfl := h <;> rfl

theorem windowCode_lt (w : Nat) : windowCode w < 4 := by
  unfold windowCode
  split_ifs <;> decide

/-- The window and auto-change byte is read back. -/
theorem window_byte (w : Nat) (auto : Bool) :
    let b := (windowCode w + if auto then 128 else 0) % 256
    b % 4 = windowCode w ∧ decide (128 ≤ b) = auto ∧ windowByteValid b = true := by
  have low := windowCode_lt w
  cases auto <;> simp [windowByteValid] <;> omega

theorem Settings.jobInBody_get {st : Settings} (valid : st.valid = true) (sh : Shaft) :
    jobInBody st.toBody (match sh with
      | .a => 47
      | .b => 53) = st.job.get sh := by
  have job : (st.job.get sh).valid = true := by
    simp only [Settings.valid, Bool.and_eq_true] at valid
    cases sh
    · exact valid.1.2
    · exact valid.2
  have shown := st.toBody_job sh
  simp only [shows_cons, shows_nil, and_true] at shown
  obtain ⟨approach, window, overrun⟩ := shown
  obtain ⟨code, auto, -⟩ := window_byte (st.job.get sh).window (st.job.get sh).auto
  simp only [ShaftJob.valid, within, Bool.and_eq_true, decide_eq_true_eq] at job
  obtain ⟨⟨⟨_, ranged⟩, windowed⟩, short⟩ := job
  unfold jobInBody
  rw [approach, window, overrun]
  simp only [Nat.pow_one] at *
  rw [code, auto, windowOfCode_windowCode windowed, Nat.mod_eq_of_lt (by omega), Nat.mod_eq_of_lt (by omega)]

theorem settingsInBody_toBody {st : Settings} (valid : st.valid = true) : settingsInBody st.toBody = st := by
  have numbers := st.toBody_shows
  simp only [shows_cons, shows_nil, and_true] at numbers
  obtain ⟨h1, h2, h3, h4, h5, h6, h7, h8, h9, h10, h11, h12, h13, h14, h15, h16, h17, h18, h19⟩ := numbers
  have jobs : (⟨jobInBody st.toBody 47, jobInBody st.toBody 53⟩ : Pair ShaftJob) = st.job := by
    rw [Settings.jobInBody_get valid .a, Settings.jobInBody_get valid .b]
    rfl
  have tables : (Vector.ofFn fun i : Fin 8 => tableAt st.toBody (59 + 24 * i.val)) = st.tables := by
    obtain ⟨items, size, body⟩ := st.toBody_tables
    ext1 i hi
    rw [Vector.getElem_ofFn, body]
    exact tableAt_flatMap (by simp) size
  unfold settingsInBody
  rw [jobs, tables, h1, h2, h3, h4, h5, h6, h7, h8, h9, h10, h11, h12, h13, h14, h15, h16, h17, h18, h19]
  simp only [Settings.valid, within, distanceValid, travelMarksValid, markMarksValid, sweepIntervalValid, rhoValid,
    maxPosition, Bool.and_eq_true, Bool.or_eq_true, decide_eq_true_eq, and_assoc] at valid
  obtain ⟨_, _, _, _, _, _, _, _, _, _, _, _, _, _, _, _, _, _, _, _, _, _, _, _, _, _, _, _, _, _, _, _⟩ := valid
  simp (disch := omega) only [Nat.mod_eq_of_lt]

/-- The body of settings in range is accepted and spells them. -/
theorem settingsOfBody_toBody {st : Settings} (valid : st.valid = true) : settingsOfBody st.toBody = some st := by
  have bytes (sh : Shaft) := st.toBody_job sh
  have windows (sh : Shaft) := (window_byte (st.job.get sh).window (st.job.get sh).auto).2.2
  have a : windowByteValid (fieldAt st.toBody 49 1) = true := by
    rw [bytes .a _ (List.mem_cons_of_mem _ List.mem_cons_self)]
    exact windows .a
  have b : windowByteValid (fieldAt st.toBody 55 1) = true := by
    rw [bytes .b _ (List.mem_cons_of_mem _ List.mem_cons_self)]
    exact windows .b
  rw [settingsOfBody, settingsInBody_toBody valid, a, b, valid]
  rfl

/-- Settles O22. -/
theorem settingsImageRoundTrip : Obligations.SettingsImageRoundTrip := by
  unfold Obligations.SettingsImageRoundTrip
  intro m st wf valid
  exact ⟨(loadImage_writeImage m st.toBody wf st.toBody_length).trans (settingsOfBody_toBody valid), rfl⟩

/-! ## The answers field by field (O23) -/

/-- A field within a part of the bytes that begins at a place. -/
theorem fieldAt_part {bs part : List Byte} {place off len : Nat} (h : (bs.drop place).take part.length = part)
    (fits : off + len ≤ part.length) : fieldAt bs (place + off) len = fieldAt part off len := by
  have whole : bs.drop place = part ++ (bs.drop place).drop part.length := by
    conv_lhs => rw [← List.take_append_drop part.length (bs.drop place), h]
  rw [← fieldAt_within (bs := (bs.drop place).drop part.length) fits, ← whole, fieldAt, fieldAt, List.drop_drop]

@[simp] theorem fieldAt_padTo {bs : List Byte} {k off len : Nat} (h : off + len ≤ bs.length) :
    fieldAt (padTo k bs) off len = fieldAt bs off len := fieldAt_within h

theorem State.digestAlerts_length (s : State) : s.digestAlerts.length = 50 := by
  simp [State.digestAlerts, length_flatMap_of_size (k := 2)]

theorem State.digestPosition_length (s : State) : s.digestPosition.length = 18 := by simp [State.digestPosition]

theorem State.digestShaft_length (s : State) (sh : Shaft) : (s.digestShaft sh).length = 13 := by simp [State.digestShaft]

theorem State.digestHolds_length (s : State) : s.digestHolds.length = 19 := by simp [State.digestHolds]

theorem State.digestFaults_length (s : State) : s.digestFaults.length = 14 := by simp [State.digestFaults]

theorem State.digestBytes_length (s : State) : s.digestBytes.length = 127 := by
  simp [State.digestBytes, State.digestAlerts_length, State.digestPosition_length, State.digestShaft_length,
    State.digestHolds_length, State.digestFaults_length]

theorem setBits_testBit (d : DigestUnit) (i : Fin 20) : d.setBits.testBit i.val = (d.alerts[i]).isSet := by
  simp [DigestUnit.setBits, bitSet_testBit]

theorem maskBits_testBit (d : DigestUnit) (i : Fin 20) : d.maskBits.testBit i.val = (d.alerts[i]).masked := by
  simp [DigestUnit.maskBits, bitSet_testBit]

theorem State.digestBytes_tag (s : State) (i : Fin 20) :
    Shows s.digestBytes [(10 + 2 * i.val, 2, (s.digest.alerts[i]).tag.toNat)] := by
  have place : s.digest.alerts.toList[i.val]? = some s.digest.alerts[i] := by simp
  have tag := fieldAt_flatMap (f := fun c => bytes16 c.tag) (k := 2) (fun _ _ => rfl) place (off := 0) (len := 2) (by decide)
  have here : fieldAt s.digestAlerts (10 + 2 * i.val) 2 = (s.digest.alerts[i]).tag.toNat := by
    unfold State.digestAlerts
    rw [fieldAt_skip (by simp), ← fieldAt_bytes16, ← tag]
    simp
  simp only [shows_cons, shows_nil, and_true, State.digestBytes, List.append_assoc]
  rw [fieldAt_within (by rw [s.digestAlerts_length]; omega), here]
  simp

theorem State.digestBytes_shows (s : State) : Shows s.digestBytes [(0, 2, s.digest.changeTag.toNat),
    (2, 2, s.digest.ackedTag.toNat), (4, 3, s.digest.setBits), (7, 3, s.digest.maskBits), (50, 4, s.position.p),
    (54, 1, (directionByte s.position.direction).toNat), (55, 1, (lineByte s.position.line).toNat),
    (56, 4, s.travel.staged.getD 0), (60, 4, s.travel.current.a), (64, 4, s.travel.current.b), (94, 2, s.travel.free),
    (96, 2, s.freeMarks), (98, 1, s.table.free), (99, 1, s.table.reserved.a), (100, 1, s.table.reserved.b),
    (101, 1, (levelByte s.hold.level).toNat), (102, 2, s.hold.causes.bits),
    (104, 1, (boolByte s.hold.override.isSome).toNat), (105, 2, s.hold.slowEntries), (107, 2, s.hold.stopEntries),
    (109, 2, s.hold.renewals), (111, 2, s.map.trim), (113, 2, s.link.badFrame), (115, 2, s.link.range),
    (117, 2, s.link.travelFull), (119, 2, s.link.loading), (121, 2, s.travel.spliceRefusals),
    (123, 2, s.travel.tooLate), (125, 1, bitSet [s.position.fault, s.store.defaulted]),
    (126, 1, (resetKindByte s.store.lastReset).toNat)] := by
  have alerts : Shows s.digestAlerts [(0, 2, s.digest.changeTag.toNat), (2, 2, s.digest.ackedTag.toNat),
      (4, 3, s.digest.setBits), (7, 3, s.digest.maskBits)] := by
    unfold State.digestAlerts
    generalize s.digest.alerts.toList.flatMap _ = tags
    simp
  simp only [shows_cons, shows_nil, and_true] at alerts
  simp [State.digestBytes, State.digestAlerts_length, State.digestShaft_length, alerts, State.digestPosition,
    State.digestHolds, State.digestFaults, byteOf_toNat]

theorem State.digestBytes_shaft (s : State) (sh : Shaft) :
    let at0 := match sh with
      | .a => 68
      | .b => 81
    let r := s.shaft sh
    Shows s.digestBytes [(at0, 1, (phaseByte r.phase).toNat), (at0 + 1, 1, (spindleStateByte r.spindle1).toNat),
      (at0 + 2, 1, (spindleStateByte r.spindle2).toNat), (at0 + 3, 1, r.step), (at0 + 4, 2, r.counter.toNat),
      (at0 + 6, 1, (reasonByte r.reason).toNat), (at0 + 7, 2, r.tension), (at0 + 9, 1, s.reelsIn sh .winding),
      (at0 + 10, 1, s.reelsIn sh .ended), (at0 + 11, 1, s.reelsIn sh .doffing), (at0 + 12, 1, s.reelsIn sh .doffed)] := by
  cases sh <;>
    simp [State.digestBytes, State.digestAlerts_length, State.digestPosition_length, State.digestShaft, byteOf_toNat]

/-! ### Reels -/

theorem Reel.parentBytes_length (r : Reel) : r.parentBytes.length = 33 := by
  have size : ((r.parents.take 4).flatMap fun e => beBytes 4 e.parent ++ beBytes 4 e.footage).length ≤ 32 := by
    rw [length_flatMap_of_size (k := 8) (by simp), List.length_take]
    omega
  simp only [Reel.parentBytes, List.length_append, List.length_singleton, padTo_length]
  omega

theorem Tallies.toBytes_length (t : Tallies) : (Tallies.toBytes t).length = 14 := by simp [Tallies.toBytes]

theorem Reel.header_length (r : Reel) (h : Handle) (x : Nat) : (r.header h x).length = 101 := by
  unfold Reel.header
  simp [Reel.parentBytes_length, Tallies.toBytes_length]

theorem Reel.header_shows (r : Reel) (h : Handle) (x : Nat) :
    Shows (r.header h x) [(0, 1, h.val), (1, 4, r.id), (5, 1, (reelStateByte r.state).toNat), (6, 1, r.lane.val + 1),
      (7, 1, (shaftByte r.shaft).toNat), (8, 1, (spindleByte r.spindle).toNat),
      (9, 1, bitSet [r.stopAt.isSome, r.override.isSome]), (10, 4, r.start), (14, 4, r.stopAt.getD 0), (18, 4, x),
      (22, 4, r.diameter), (26, 4, r.rho), (30, 1, r.thickness), (31, 2, r.packing), (33, 4, r.core), (37, 4, r.limit),
      (41, 1, r.table.val), (42, 1, r.step), (43, 2, r.ordinal.toNat), (45, 1, r.parents.length),
      (78, 2, r.tallies.defect1), (80, 2, r.tallies.defect2), (82, 2, r.tallies.defect3), (84, 2, r.tallies.defect4),
      (86, 2, r.tallies.register), (88, 2, r.tallies.splice), (90, 2, r.tallies.flag),
      (92, 1, (gradeByte (some r.computed)).toNat), (93, 1, (gradeByte r.override).toNat), (94, 1, r.chain.length),
      (95, 2, r.dropped), (97, 2, r.flags.bits), (99, 2, r.revision.toNat)] := by
  have parents : fieldAt r.parentBytes 0 1 = r.parents.length % 256 := by simp [Reel.parentBytes, byteOf_toNat]
  unfold Reel.header
  simp [Reel.parentBytes_length, parents, Tallies.toBytes, byteOf_toNat, laneNumber]

/-- The fields of the record at place i, where records of one length stand one behind the other. -/
theorem Shows.record {α : Type} {f : α → List Byte} {k : Nat} {l : List α} (size : ∀ x ∈ l, (f x).length = k)
    {bs : List Byte} {start : Nat} (stands : (bs.drop start).take (l.flatMap f).length = l.flatMap f)
    {i : Nat} {x : α} (place : l[i]? = some x) {fs : List (Nat × Nat × Nat)} (h : Shows (f x) fs)
    (fits : ∀ g ∈ fs, g.1 + g.2.1 ≤ k) : Shows bs (fs.map fun g => (start + k * i + g.1, g.2)) := by
  intro g hg
  obtain ⟨g, mem, rfl⟩ := List.mem_map.mp hg
  have short := (List.getElem?_eq_some_iff.mp place).1
  have inside : k * i + g.1 + g.2.1 ≤ (l.flatMap f).length := by
    rw [length_flatMap_of_size size]
    calc k * i + g.1 + g.2.1 ≤ k * (i + 1) := by rw [Nat.mul_succ]; have := fits g mem; omega
      _ ≤ k * l.length := Nat.mul_le_mul_left k short
  show fieldAt bs (start + k * i + g.1) g.2.1 = _
  rw [Nat.add_assoc, fieldAt_part stands (by omega), fieldAt_flatMap size place (fits g mem)]
  exact h g mem

/-- The entries of a parent list as a header holds them. -/
def parentRecords (l : List ParentEntry) : List Byte :=
  (l.take 4).flatMap fun e => beBytes 4 e.parent ++ beBytes 4 e.footage

theorem Reel.parentBytes_eq (r : Reel) : r.parentBytes = [byteOf r.parents.length] ++ padTo 32 (parentRecords r.parents) := rfl

theorem Reel.header_parent (r : Reel) (h : Handle) (x : Nat) {i : Fin 4} {e : ParentEntry}
    (place : r.parents[i.val]? = some e) :
    Shows (r.header h x) [(46 + 8 * i.val, 4, e.parent), (50 + 8 * i.val, 4, e.footage)] := by
  have taken : (r.parents.take 4)[i.val]? = some e := by rw [List.getElem?_take_of_lt i.isLt, place]
  have stands : ((r.header h x).drop 46).take (parentRecords r.parents).length = parentRecords r.parents := by
    unfold Reel.header
    rw [r.parentBytes_eq]
    simp [padTo, List.drop_append, List.drop_eq_nil_of_le]
  have entry : Shows (beBytes 4 e.parent ++ beBytes 4 e.footage) [(0, 4, e.parent), (4, 4, e.footage)] := by simp
  rw [show 50 + 8 * i.val = 46 + 8 * i.val + 4 by omega]
  exact entry.record (k := 8) (by simp) stands taken (by simp)

theorem Reel.found_length (r : Reel) (h : Handle) (x : Nat) : (r.found h x).length = 10 := by simp [Reel.found]

theorem Reel.found_shows (r : Reel) (h : Handle) (x : Nat) :
    Shows (r.found h x) [(0, 4, r.id), (4, 1, h.val), (5, 1, (reelStateByte r.state).toNat),
      (6, 4, footageAt r.start r.rho x)] := by
  simp [Reel.found, byteOf_toNat]

/-! ### Marks -/

theorem Mark.toBytes_length (m : Mark) (r : Reel) : (m.toBytes r).length = 22 := by
  unfold Mark.toBytes
  simp

theorem Reel.pageMarks_length (r : Reel) (page : Nat) : (r.pageMarks page).length = min 8 (r.chain.length - 8 * page) := by
  simp [Reel.pageMarks]

theorem Reel.markRecords_length (r : Reel) (page : Nat) :
    ((r.pageMarks page).flatMap fun m => m.toBytes r).length = 22 * min 8 (r.chain.length - 8 * page) := by
  rw [length_flatMap_of_size fun m _ => m.toBytes_length r, r.pageMarks_length]

theorem Reel.markPage_length (r : Reel) (page : Nat) : (r.markPage page).length = 185 := by
  simp only [Reel.markPage, List.length_append, padTo_length, r.markRecords_length, beBytes_length, bytes16_length,
    List.length_cons, List.length_nil]
  omega

theorem Reel.markPage_shows (r : Reel) (page : Nat) :
    Shows (r.markPage page) [(0, 4, r.id), (4, 2, r.revision.toNat), (6, 1, r.chain.length), (7, 1, page),
      (8, 1, min 8 (r.chain.length - 8 * page))] := by
  simp [Reel.markPage, r.pageMarks_length, byteOf_toNat]

theorem Mark.toBytes_shows (m : Mark) (r : Reel) :
    Shows (m.toBytes r) [(0, 1, (findingKind m.finding).toNat), (1, 1, (findingClass m.finding).toNat),
      (2, 1, (findingOrigin m.finding).toNat), (3, 1, (boolByte m.late).toNat), (4, 4, m.arrival), (8, 2, m.offset),
      (10, 2, m.width), (12, 2, (findingError m.finding).toNat), (14, 4, findingParent m.finding),
      (18, 4, footageAt r.start r.rho m.arrival)] := by
  unfold Mark.toBytes
  simp

theorem Reel.markPage_mark (r : Reel) (page : Nat) {i : Fin 8} {m : Mark} (place : r.chain[8 * page + i.val]? = some m) :
    let o := 9 + 22 * i.val
    Shows (r.markPage page) [(o, 1, (findingKind m.finding).toNat), (o + 1, 1, (findingClass m.finding).toNat),
      (o + 2, 1, (findingOrigin m.finding).toNat), (o + 3, 1, (boolByte m.late).toNat), (o + 4, 4, m.arrival),
      (o + 8, 2, m.offset), (o + 10, 2, m.width), (o + 12, 2, (findingError m.finding).toNat),
      (o + 14, 4, findingParent m.finding), (o + 18, 4, footageAt r.start r.rho m.arrival)] := by
  have taken : (r.pageMarks page)[i.val]? = some m := by
    rw [Reel.pageMarks, List.getElem?_take_of_lt i.isLt, List.getElem?_drop, place]
  have stands : ((r.markPage page).drop 9).take ((r.pageMarks page).flatMap fun m => m.toBytes r).length =
      (r.pageMarks page).flatMap fun m => m.toBytes r := by
    simp [Reel.markPage, padTo, List.drop_append, List.drop_eq_nil_of_le]
  exact (m.toBytes_shows r).record (fun m _ => m.toBytes_length r) stands taken (by simp)

/-! ### The reel list -/

theorem State.reel_of_matching {s : State} {sel : Option ReelState} {first h : Handle} (m : h ∈ s.matching sel first) :
    ∃ r, s.reel h = some r := by
  have := (List.mem_filter.mp m).2
  cases e : s.reel h with
  | some r => exact ⟨r, rfl⟩
  | none => simp [e] at this

theorem State.listEntry_length {s : State} {h : Handle} {r : Reel} (e : s.reel h = some r) : (s.listEntry h).length = 9 := by
  simp [State.listEntry, e]

theorem State.listEntry_shows {s : State} {h : Handle} {r : Reel} (e : s.reel h = some r) :
    Shows (s.listEntry h) [(0, 1, h.val), (1, 4, r.id), (5, 1, (reelStateByte r.state).toNat), (6, 1, r.lane.val + 1),
      (7, 1, (shaftByte r.shaft).toNat), (8, 1, (boolByte r.flags.previousRun).toNat)] := by
  simp [State.listEntry, e, byteOf_toNat, laneNumber]

theorem State.listed_length {s : State} {sel : Option ReelState} {first : Handle} :
    ∀ h ∈ (s.matching sel first).take 12, (s.listEntry h).length = 9 := fun h m => by
  obtain ⟨r, e⟩ := State.reel_of_matching (List.mem_of_mem_take m)
  exact State.listEntry_length e

theorem State.reelList_length (s : State) (sel : Option ReelState) (first : Handle) :
    (s.reelList sel first).length = 110 := by
  simp only [State.reelList, List.length_append, padTo_length, length_flatMap_of_size State.listed_length,
    List.length_take, List.length_cons, List.length_nil]
  omega

/-- The continuation handle is the one behind the twelfth listed, where there is one (R54). -/
theorem continuation_toNat {l : List Handle} (short : l.length ≤ 12) :
    (continuation l).toNat = (match l[11]? with
      | some h => if h.val = 95 then 255 else h.val + 1
      | none => 255) % 256 := by
  by_cases full : l.length = 12
  · have last : l.getLast? = l[11]? := by rw [List.getLast?_eq_getElem?, full]
    have some : l[11]? = some l[11] := List.getElem?_eq_getElem (by omega)
    have range := l[11].isLt
    rw [continuation, last, some]
    by_cases end95 : l[11].val = 95
    · simp [full, end95]
    · have before : l[11].val + 1 < 96 := by omega
      simp [full, end95, before, byteOf_toNat]
  · have none : l[11]? = none := List.getElem?_eq_none (by omega)
    rw [none, continuation]
    cases l.getLast? <;> simp [full]

theorem State.reelList_shows (s : State) (sel : Option ReelState) (first : Handle) :
    let listed := (s.matching sel first).take 12
    Shows (s.reelList sel first) [(0, 1, listed.length), (1, 1, match listed[11]? with
      | some h => if h.val = 95 then 255 else h.val + 1
      | none => 255)] := by
  have next := continuation_toNat (l := (s.matching sel first).take 12) (List.length_take_le ..)
  unfold State.reelList
  generalize (s.matching sel first).take 12 = listed at *
  simp only [shows_cons, shows_nil, and_true]
  exact ⟨by simp [byteOf_toNat], by simpa using next⟩

theorem State.reelList_entry (s : State) (sel : Option ReelState) (first : Handle) {i : Fin 12} {h : Handle} {r : Reel}
    (place : ((s.matching sel first).take 12)[i.val]? = some h) (e : s.reel h = some r) :
    let o := 2 + 9 * i.val
    Shows (s.reelList sel first) [(o, 1, h.val), (o + 1, 4, r.id), (o + 5, 1, (reelStateByte r.state).toNat),
      (o + 6, 1, r.lane.val + 1), (o + 7, 1, (shaftByte r.shaft).toNat),
      (o + 8, 1, (boolByte r.flags.previousRun).toNat)] := by
  refine (State.listEntry_shows e).record (k := 9) State.listed_length ?_ place (by simp)
  simp [State.reelList, padTo]

/-! ### Lanes -/

theorem State.laneBytes_length (s : State) (n : Lane) : (s.laneBytes n).length = 12 := by simp [State.laneBytes]

theorem State.laneBytes_shows (s : State) (n : Lane) : let l := s.lane n
    Shows (s.laneBytes n) [(0, 1, n.val + 1), (1, 1, (boolByte l.enabled).toNat), (2, 2, l.edge), (4, 2, l.width),
      (6, 1, (shaftByte l.shaft).toNat), (7, 1, (boolByte l.reference).toNat),
      (8, 1, (l.current.map Fin.val).getD 255), (9, 2, l.tally), (11, 1, (boolByte l.untracked).toNat)] := by
  have current : (handleByte (s.lane n).current).toNat = ((s.lane n).current.map Fin.val).getD 255 % 256 := by
    cases (s.lane n).current with
    | none => rfl
    | some h => exact byteOf_toNat _
  simp [State.laneBytes, byteOf_toNat, laneNumber, current]

theorem State.summaryEntry_length (s : State) (n : Lane) : (s.summaryEntry n).length = 7 := by simp [State.summaryEntry]

theorem State.mapBytes_length {s : State} (law : OrderLaw s) : s.mapBytes.length = 172 := by
  have lanes : s.map.order.length = 24 := by rw [law.1.length_eq, List.length_finRange]
  rw [State.mapBytes, List.length_append, length_flatMap_of_size fun n _ => s.summaryEntry_length n, lanes]
  simp

theorem State.mapBytes_shows (s : State) : Shows s.mapBytes [(0, 2, s.settings.webWidth), (2, 2, s.map.trim)] := by
  simp [State.mapBytes]

theorem State.mapBytes_entry (s : State) {i : Nat} {n : Lane} (place : s.map.order[i]? = some n) :
    let l := s.lane n
    let o := 4 + 7 * i
    Shows s.mapBytes [(o, 1, n.val + 1), (o + 1, 1, bitSet [l.enabled, l.reference, l.untracked]), (o + 2, 2, l.edge),
      (o + 4, 2, l.width), (o + 6, 1, (shaftByte l.shaft).toNat)] := by
  have entry : Shows (s.summaryEntry n) [(0, 1, n.val + 1),
      (1, 1, bitSet [(s.lane n).enabled, (s.lane n).reference, (s.lane n).untracked]), (2, 2, (s.lane n).edge),
      (4, 2, (s.lane n).width), (6, 1, (shaftByte (s.lane n).shaft).toNat)] := by
    simp [State.summaryEntry, byteOf_toNat, laneNumber]
  refine entry.record (k := 7) (fun n _ => s.summaryEntry_length n) ?_ place (by simp)
  simp [State.mapBytes, List.drop_append, List.drop_eq_nil_of_le]

/-! ### Shafts -/

theorem PlanStep.toBytes_length (st : PlanStep) : st.toBytes.length = 23 := by simp [PlanStep.toBytes]

theorem thresholdBytes_length (th : Option ThresholdSet) : (thresholdBytes th).length = 17 := by
  cases th <;> simp [thresholdBytes]

/-- The plan takes 184 bytes of the answer. -/
theorem planBytes_length {plan : List PlanStep} (short : plan.length ≤ 8) :
    (padTo 184 (plan.flatMap PlanStep.toBytes)).length = 184 := by
  rw [padTo_length, length_flatMap_of_size fun st _ => st.toBytes_length]
  omega

theorem State.shaftBytes_length (s : State) {sh : Shaft} (short : (s.shaft sh).plan.length ≤ 8) :
    (s.shaftBytes sh).length = 235 := by
  unfold State.shaftBytes
  simp only [List.length_append, planBytes_length short, thresholdBytes_length, beBytes_length, bytes16_length,
    List.length_cons, List.length_nil]

theorem State.shaftBytes_shows (s : State) {sh : Shaft} (short : (s.shaft sh).plan.length ≤ 8) :
    let r := s.shaft sh
    let j := s.settings.job.get sh
    let latch := s.position.latch.get sh
    Shows (s.shaftBytes sh) [(0, 1, (phaseByte r.phase).toNat), (1, 1, (spindleByte r.active).toNat),
      (2, 1, (spindleStateByte r.spindle1).toNat), (3, 1, (spindleStateByte r.spindle2).toNat), (4, 1, r.plan.length),
      (189, 1, r.step), (190, 2, r.counter.toNat), (192, 1, bitSet [r.firstFree, r.short, r.retry, latch.isSome]),
      (210, 1, (reasonByte r.reason).toNat), (211, 2, j.approach), (213, 2, j.window), (215, 4, j.overrun),
      (219, 1, (boolByte j.auto).toNat), (220, 1, s.table.reserved.get sh), (221, 4, latch.getD 0),
      (225, 2, s.position.bounces.get sh), (227, 2, r.ignoredCuts), (229, 2, r.tension),
      (231, 1, s.reelsIn sh .winding), (232, 1, s.reelsIn sh .ended), (233, 1, s.reelsIn sh .doffing),
      (234, 1, s.reelsIn sh .doffed)] := by
  have plan := planBytes_length short
  have thresholds := thresholdBytes_length (s.shaft sh).thresholds
  unfold State.shaftBytes
  dsimp only
  generalize padTo 184 _ = bytes at *
  generalize thresholdBytes _ = more at *
  simp [plan, thresholds, byteOf_toNat]

theorem State.shaftBytes_plan (s : State) {sh : Shaft} {i : Nat} {st : PlanStep}
    (place : (s.shaft sh).plan[i]? = some st) :
    let o := 5 + 23 * i
    Shows (s.shaftBytes sh) [(o, 2, st.count.toNat), (o + 2, 4, st.target), (o + 6, 4, st.core), (o + 10, 4, st.limit),
      (o + 14, 1, st.table.val), (o + 15, 2, st.baseTension), (o + 17, 2, st.taper), (o + 19, 4, st.span)] := by
  have entry : Shows st.toBytes [(0, 2, st.count.toNat), (2, 4, st.target), (6, 4, st.core), (10, 4, st.limit),
      (14, 1, st.table.val), (15, 2, st.baseTension), (17, 2, st.taper), (19, 4, st.span)] := by
    simp [PlanStep.toBytes, byteOf_toNat]
  refine entry.record (k := 23) (fun st _ => st.toBytes_length) ?_ place (by simp)
  unfold State.shaftBytes padTo
  dsimp only
  generalize (s.shaft sh).plan.flatMap PlanStep.toBytes = records
  simp

/-- The thresholds' 17 bytes stand at 193. -/
theorem State.shaftBytes_thresholds (s : State) {sh : Shaft} (short : (s.shaft sh).plan.length ≤ 8) {off len : Nat}
    (fits : off + len ≤ 17) :
    fieldAt (s.shaftBytes sh) (193 + off) len = fieldAt (thresholdBytes (s.shaft sh).thresholds) off len := by
  have plan := planBytes_length short
  have thresholds := thresholdBytes_length (s.shaft sh).thresholds
  refine fieldAt_part ?_ (by rw [thresholds]; exact fits)
  unfold State.shaftBytes
  dsimp only
  generalize padTo 184 _ = bytes at *
  generalize thresholdBytes _ = more at *
  simp [plan, List.drop_append, List.drop_eq_nil_of_le]

/-! ### Operator marks and settings -/

theorem markAnswer_length {ids : List Nat} (short : ids.length ≤ 24) : (markAnswer ids).length = 97 := by
  simp only [markAnswer, List.length_append, List.length_singleton, padTo_length,
    length_flatMap_of_size fun id (_ : id ∈ ids) => beBytes_length 4 id]
  omega

theorem markAnswer_id {ids : List Nat} {i id : Nat} (place : ids[i]? = some id) :
    Shows (markAnswer ids) [(1 + 4 * i, 4, id)] := by
  have entry : Shows (beBytes 4 id) [(0, 4, id)] := by simp
  refine entry.record (k := 4) (fun id _ => beBytes_length 4 id) ?_ place (by simp)
  simp [markAnswer, padTo]

theorem State.settingsBytes_length (s : State) : s.settingsBytes.length = 252 := by
  rw [State.settingsBytes, List.length_append, Settings.toBody_length]
  rfl

theorem State.settingsBytes_status (s : State) : Shows s.settingsBytes [(251, 1,
    (if s.store.save.isSome then 1 else 0) + 2 * saveResultCode s.store.lastSave +
      (if s.store.defaulted then 8 else 0) + (if s.store.preserve then 16 else 0))] := by
  rw [State.settingsBytes]
  simp [Settings.toBody_length, State.settingsStatus, byteOf_toNat]

theorem Settings.toBody_table (st : Settings) (i : Fin 8) : let g := st.tables[i]
    let o := 59 + 24 * i.val
    Shows st.toBody [(o, 2, g.rowA.defect1.toNat), (o + 2, 2, g.rowA.defect2.toNat),
      (o + 4, 2, g.rowA.defect3.toNat), (o + 6, 2, g.rowA.defect4.toNat), (o + 8, 2, g.rowA.register.toNat),
      (o + 10, 2, g.rowA.splice.toNat), (o + 12, 2, g.rowB.defect1.toNat), (o + 14, 2, g.rowB.defect2.toNat),
      (o + 16, 2, g.rowB.defect3.toNat), (o + 18, 2, g.rowB.defect4.toNat), (o + 20, 2, g.rowB.register.toNat),
      (o + 22, 2, g.rowB.splice.toNat)] := by
  intro g o
  have entry : Shows (tableBytes g) [(0, 2, g.rowA.defect1.toNat), (2, 2, g.rowA.defect2.toNat),
      (4, 2, g.rowA.defect3.toNat), (6, 2, g.rowA.defect4.toNat), (8, 2, g.rowA.register.toNat),
      (10, 2, g.rowA.splice.toNat), (12, 2, g.rowB.defect1.toNat), (14, 2, g.rowB.defect2.toNat),
      (16, 2, g.rowB.defect3.toNat), (18, 2, g.rowB.defect4.toNat), (20, 2, g.rowB.register.toNat),
      (22, 2, g.rowB.splice.toNat)] := by
    simp [tableBytes, Maxima.toBytes]
  obtain ⟨items, size, body⟩ := st.toBody_tables
  have place : st.tables.toList[i.val]? = some g := by simp [g]
  refine entry.record (k := 24) (fun t _ => tableBytes_length t) ?_ place (by simp)
  rw [body, ← size, List.drop_left, List.take_length]

theorem State.settingsBytes_shows (s : State) : let st := s.settings
    Shows s.settingsBytes [(0, 3, st.nEnc), (3, 2, st.stopTimeout), (5, 3, st.debounce), (8, 3, st.dIk), (11, 3, st.dSk),
      (14, 3, st.dKw.a), (17, 3, st.dKw.b), (20, 1, st.travelLower), (21, 2, st.travelUpper), (23, 2, st.markLower),
      (25, 2, st.markUpper), (27, 2, st.quantum), (29, 3, st.sweepInterval), (32, 4, st.reelIdCounter),
      (36, 2, st.webWidth), (38, 1, st.thickness), (39, 2, st.packing), (41, 3, st.rho.a), (44, 3, st.rho.b),
      (251, 1, (if s.store.save.isSome then 1 else 0) + 2 * saveResultCode s.store.lastSave +
        (if s.store.defaulted then 8 else 0) + (if s.store.preserve then 16 else 0))] := by
  have body := s.settings.toBody_shows.append (by simp [Settings.toBody_length, bodyLength]) [s.settingsStatus]
  have status := s.settingsBytes_status
  unfold State.settingsBytes at status ⊢
  simp only [shows_cons, shows_nil, and_true] at body status ⊢
  simp only [body, status, and_self]

theorem State.settingsBytes_job (s : State) (sh : Shaft) : let o := match sh with
      | .a => 47
      | .b => 53
    let j := s.settings.job.get sh
    Shows s.settingsBytes [(o, 2, j.approach), (o + 2, 1, windowCode j.window + if j.auto then 128 else 0),
      (o + 3, 3, j.overrun)] :=
  (s.settings.toBody_job sh).append (by cases sh <;> simp [Settings.toBody_length, bodyLength]) _

/-- The thresholds of a shaft answer: their positions and fired marks, or 0 where none is computed (R125). -/
theorem State.shaftBytes_marks (s : State) {sh : Shaft} (short : (s.shaft sh).plan.length ≤ 8) :
    (∀ th, (s.shaft sh).thresholds = some th → Shows (s.shaftBytes sh) [(193, 4, th.approach.position),
      (197, 4, th.window.position), (201, 4, th.due.position), (205, 4, th.overrun.position),
      (209, 1, bitSet [th.approach.fired, th.window.fired, th.due.fired, th.overrun.fired])]) ∧
    ((s.shaft sh).thresholds = none → fieldAt (s.shaftBytes sh) 193 17 = 0) := by
  have fields {off len : Nat} (fits : off + len ≤ 17) := s.shaftBytes_thresholds short fits
  refine ⟨fun th e => ?_, fun e => ?_⟩
  · simp only [shows_cons, shows_nil, and_true, fields (off := 0) (len := 4) (by decide),
      fields (off := 4) (len := 4) (by decide), fields (off := 8) (len := 4) (by decide),
      fields (off := 12) (len := 4) (by decide), fields (off := 16) (len := 1) (by decide), e]
    simp [thresholdBytes, byteOf_toNat]
  · rw [fields (off := 0) (len := 17) (by decide), e]
    rfl

/-- Settles O23: the payloads are rows of fields and of records of one length. -/
theorem answersHaveTheirLayout : Obligations.AnswersHaveTheirLayout := by
  unfold Obligations.AnswersHaveTheirLayout
  intro s
  refine ⟨⟨s.digestBytes_length, s.settingsBytes_length, State.mapBytes_length⟩, s.laneBytes_length, s.reelList_length,
    fun _ => s.shaftBytes_length, fun r h x page => ⟨r.header_length h x, r.markPage_length page, r.found_length h x⟩,
    fun _ => markAnswer_length, fun d => ⟨beBytes_length 3 _, by simp⟩,
    fun i => ⟨setBits_testBit s.digest i, maskBits_testBit s.digest i, s.digestBytes_tag i⟩, s.digestBytes_shows,
    s.digestBytes_shaft, fun r h x => ⟨r.header_shows h x, fun _ _ => r.header_parent h x, r.found_shows h x⟩,
    fun r page => ⟨r.markPage_shows page, fun _ _ => r.markPage_mark page⟩,
    fun sel first => ⟨s.reelList_shows sel first, fun _ _ _ => s.reelList_entry sel first⟩, s.laneBytes_shows,
    s.mapBytes_shows, fun _ _ => s.mapBytes_entry, fun sh short => ?_, fun ids _ => ⟨?_, fun _ _ => markAnswer_id⟩,
    s.settingsBytes_shows, s.settingsBytes_job, fun i => ?_⟩
  · obtain ⟨computed, absent⟩ := s.shaftBytes_marks short
    exact ⟨s.shaftBytes_shows short, computed, absent, fun _ _ => s.shaftBytes_plan⟩
  · simp [markAnswer, byteOf_toNat]
  · have inside := i.isLt
    refine (s.settings.toBody_table i).append ?_ _
    simp [Settings.toBody_length, bodyLength]
    omega

end Sys2Proof.Machine
end

section
/-! PROOF. The operands of requests and their ranges (O24). -/

namespace Sys2Proof.Machine

/-! ## Operands -/

theorem within_eq_not_outside (lo hi n : Nat) : within lo hi n = !outside lo hi n := by
  simp only [within, outside, Bool.not_or, ← decide_not, Nat.not_lt]

theorem shaftOf_bad {b : Byte} (h : badShaft b = true) : shaftOf b.toNat = none := by
  simp only [badShaft, Bool.and_eq_true, bne_iff_ne] at h
  rw [shaftOf, if_neg (by bv_omega), if_neg (by bv_omega)]

theorem laneOf_bad {b : Byte} (h : badLane b = true) : laneOf b.toNat = none := by
  simp [laneOf, badLane] at *
  bv_omega

theorem switchOf_outside {n : Nat} (h : outside 0 1 n = true) : switchOf n = none := by
  simp only [outside, Bool.or_eq_true, decide_eq_true_eq] at h
  rw [switchOf, if_neg (by omega), if_neg (by omega)]

theorem selectionOf_outside {n : Nat} (h : outside 0 4 n = true) : selectionOf n = none := by
  simp only [outside, Bool.or_eq_true, decide_eq_true_eq] at h
  rw [selectionOf, if_neg (by omega), if_neg (by omega), if_neg (by omega), if_neg (by omega), if_neg (by omega)]

theorem gradeOf_outside {n : Nat} (h : outside 0 3 n = true) : gradeOf n = none := by
  simp only [outside, Bool.or_eq_true, decide_eq_true_eq] at h
  rw [gradeOf, if_neg (by omega), if_neg (by omega), if_neg (by omega), if_neg (by omega)]

theorem handleOf_outside {n : Nat} (h : outside 0 95 n = true) : handleOf n = none := by
  simp [handleOf, outside] at *
  omega

theorem tableOf_outside {n : Nat} (h : outside 0 7 n = true) : tableOf n = none := by
  simp [tableOf, outside] at *
  omega

theorem spindleOf_outside {n : Nat} (h : outside 1 2 n = true) : spindleOf n = none := by
  simp only [outside, Bool.or_eq_true, decide_eq_true_eq] at h
  rw [spindleOf, if_neg (by omega), if_neg (by omega)]

theorem stepOf_bad {f : StepFields} (h : badStep f = true) : stepOf f = none := by
  unfold stepOf
  cases table : tableOf f.table.toNat with
  | none => rfl
  | some t =>
    have index : outside 0 7 f.table.toNat = false := by
      by_contra bad
      rw [tableOf_outside (by simpa using bad)] at table
      cases table
    simp only [badStep, index, Bool.or_false, Bool.or_eq_true] at h
    refine if_neg fun valid => ?_
    simp only [within, outside, Bool.and_eq_true, Bool.or_eq_true, decide_eq_true_eq, maxDiameter] at h valid
    omega

theorem validShaftJob_bad {j : ShaftJobFields} (h : badShaftJob j = true) : validShaftJob j = none := by
  unfold validShaftJob shaftJobOf
  cases auto : switchOf j.auto.toNat with
  | none => rfl
  | some on =>
    have listed : outside 0 1 j.auto.toNat = false := by
      by_contra bad
      rw [switchOf_outside (by simpa using bad)] at auto
      cases auto
    simp only [badShaftJob, listed, Bool.or_false, Bool.or_eq_true] at h
    refine Option.filter_eq_none_iff.mpr fun x hx valid => ?_
    cases Option.some.inj hx
    simp only [ShaftJob.valid, windowValid, within, outside, Bool.and_eq_true, Bool.or_eq_true, decide_eq_true_eq] at h valid
    simp at h
    omega

/-! ## A reply without effect -/

/-- A request that its block answers without a change changes nothing but the port. -/
theorem settled_answer {i : Instr} {q : Request} {s : State} (hq : encodeRequest i = some q) (takes : s.takesRequests)
    {act : State → Reply} {c : AnswerCode} (ha : act (s.setPort (s.port.take q)) = Reply.code (s.setPort (s.port.take q)) c) :
    Host.Outcome.next (φ := Fault) (ρ := Refusal) (s.settle (s.carryOut i act)) =
      .next { s with port := s.port.answered q.code c [] } := by
  rw [State.carryOut_answer hq takes (c := c) (payload := []) ha, State.settle_setPort]
  rfl

theorem unsettled_answer {i : Instr} {q : Request} {s : State} (hq : encodeRequest i = some q) (takes : s.takesRequests)
    {act : State → Reply} {c : AnswerCode} (ha : act (s.setPort (s.port.take q)) = Reply.code (s.setPort (s.port.take q)) c) :
    Host.Outcome.next (φ := Fault) (ρ := Refusal) (s.carryOut i act) =
      .next { s with port := s.port.answered q.code c [] } := by
  rw [State.carryOut_answer hq takes (c := c) (payload := []) ha]
  rfl

/-! ## Values out of range (O24) -/

theorem onLane_bad {b : Byte} (h : badLane b = true) (s : State) (edit : Lane → Reply) :
    s.onLane b.toNat edit = Reply.code s .range := by
  simp [State.onLane, laneOf_bad h]

theorem onShaft_bad {b : Byte} (h : badShaft b = true) (s : State) (act : Shaft → Reply) :
    s.onShaft b.toNat act = Reply.code s .range := by
  simp [State.onShaft, shaftOf_bad h]

theorem setItem_invalid {s : State} (idle : s.store.save = none) {valid : Bool} (h : valid = false) (same : Bool)
    (change : Reply) : s.setItem valid same change = Reply.code s .range := by
  simp [State.setItem, idle, h]

theorem not_within {lo hi n : Nat} (h : outside lo hi n = true) : within lo hi n = false := by
  rw [within_eq_not_outside, h]
  rfl

theorem distanceValid_outside {n : Nat} (h : outside 0 100000 n = true) : distanceValid n = false := by
  simpa [outside, distanceValid] using h

/-- A setting out of its range is refused where no save is in flight (R177). -/
theorem item_refused {i : Instr} {q : Request} {s : State} (hq : encodeRequest i = some q) (takes : s.takesRequests)
    (idle : s.store.save = none) {valid : Bool} (h : valid = false) {same : State → Bool} {change : State → Reply} :
    Host.Outcome.next (φ := Fault) (ρ := Refusal)
        (s.settle (s.carryOut i fun t => t.setItem valid (same t) (change t))) =
      .next { s with port := s.port.answered q.code .range [] } :=
  settled_answer hq takes (setItem_invalid (s := s.setPort (s.port.take q)) idle h _ _)

/-- Settles O24: the value is refused before the state of the part is asked. -/
theorem valuesOutOfRangeAreRefused : Obligations.ValuesOutOfRangeAreRefused := by
  unfold Obligations.ValuesOutOfRangeAreRefused
  intro i q s hq bad takes save
  have idle (same : q.code = 0x21 ∨ q.code = 0x24 ∨ q.code = 0x40) : s.store.save = none := by
    refine save.resolve_right fun ⟨a, b, c⟩ => ?_
    obtain h | h | h := same
    · exact a h
    · exact b h
    · exact c h
  have edits {item : Byte} {x y : Word32} (e : some (settingEdit item x y) = some q) :
      q.code = 0x21 ∨ q.code = 0x24 ∨ q.code = 0x40 := by
    cases e
    exact .inr (.inr rfl)
  cases i with
  | clearAlerts tag alerts =>
    have invalid : alertSetValid alerts = false := by
      simpa [outOfRange, alertSetValid] using bad
    exact unsettled_answer hq takes (by simp [State.clearAlerts, invalid])
  | setAlertMask alerts =>
    have invalid : alertSetValid alerts = false := by
      simpa [outOfRange, alertSetValid] using bad
    exact unsettled_answer hq takes (by simp [State.maskAlerts, invalid])
  | findReel lane shaft x =>
    refine unsettled_answer hq takes ?_
    obtain h | h := Bool.or_eq_true_iff.mp bad
    · simp [State.findReel, laneOf_bad h]
    · cases n : laneOf lane.toNat <;> simp [State.findReel, shaftOf_bad h, n]
  | listReels selection handle =>
    refine unsettled_answer hq takes ?_
    obtain h | h := Bool.or_eq_true_iff.mp bad
    · simp [State.listReels, selectionOf_outside h]
    · cases n : selectionOf selection.toNat <;> simp [State.listReels, handleOf_outside h, n]
  | readMarks id page =>
    have high : 7 < page.toNat := by simpa [outOfRange, outside] using bad
    exact unsettled_answer hq takes (by simp [State.readMarks, high])
  | queryShaft shaft => exact unsettled_answer hq takes (by simp [State.queryShaft, shaftOf_bad bad])
  | queryLane lane =>
    obtain ⟨h, named⟩ := Bool.and_eq_true_iff.mp bad
    have other : lane.toNat ≠ 0 := by
      simp only [bne_iff_ne] at named
      bv_omega
    exact unsettled_answer hq takes (by simp [State.queryLane, laneOf_bad h, other])
  | setLaneGeometry lane edge width =>
    refine settled_answer hq takes ?_
    obtain h | h := Bool.or_eq_true_iff.mp ((Bool.or_assoc _ _ _).symm.trans bad)
    · exact onLane_bad h _ _
    · have wide : 39900 < edge.toNat ∨ width.toNat < 100 ∨ 40000 < width.toNat := by
        simpa [outside] using h
      unfold State.onLane
      cases laneOf lane.toNat with
      | none => rfl
      | some n => exact if_pos (by tauto)
  | setLaneShaft lane shaft =>
    refine settled_answer hq takes ?_
    obtain h | h := Bool.or_eq_true_iff.mp bad
    · cases shaftOf shaft.toNat <;> simp [onLane_bad h]
    · have none : shaftOf shaft.toNat = none := by
        simp only [Bool.and_eq_true, bne_iff_ne] at h
        rw [shaftOf, if_neg (by bv_omega), if_neg (by bv_omega)]
      simp [none]
  | setLaneEnable lane => exact settled_answer hq takes (onLane_bad bad _ _)
  | setLaneDisable lane => exact settled_answer hq takes (onLane_bad bad _ _)
  | setLaneReference lane on =>
    refine settled_answer hq takes ?_
    obtain h | h := Bool.or_eq_true_iff.mp bad
    · cases switchOf on.toNat <;> simp [onLane_bad h]
    · simp [switchOf_outside h]
  | setLaneClearTally lane =>
    obtain ⟨h, named⟩ := Bool.and_eq_true_iff.mp bad
    have other : lane.toNat ≠ 0 := by
      simp only [bne_iff_ne] at named
      bv_omega
    exact settled_answer hq takes (by simp [State.clearTally, onLane_bad h, other])
  | setJob job =>
    cases hq
    refine settled_answer rfl takes ?_
    have save : (s.setPort (s.port.take ⟨0x21, jobBytes job⟩)).store.save.isSome = false := by
      simp [idle]
    unfold State.setJob
    rw [save]
    simp only [outOfRange, Bool.or_assoc] at bad
    obtain h | bad := Bool.or_eq_true_iff.mp bad
    · rw [validShaftJob_bad h]
      rfl
    obtain h | bad := Bool.or_eq_true_iff.mp bad
    · rw [validShaftJob_bad h]
      cases validShaftJob job.shaftA <;> rfl
    · have values : jobValuesValid job = false := by
        unfold jobValuesValid rhoValid
        simp only [within_eq_not_outside, ← Bool.not_or, Bool.or_assoc, bad, Bool.not_true]
      cases validShaftJob job.shaftA <;> cases validShaftJob job.shaftB <;> simp [values]
  | setPlanStep shaft number step =>
    refine settled_answer hq takes ?_
    unfold State.setPlanStep
    simp only [outOfRange, Bool.or_assoc] at bad
    obtain h | bad := Bool.or_eq_true_iff.mp bad
    · rw [shaftOf_bad h]
    obtain h | h := Bool.or_eq_true_iff.mp bad
    · have far : number.toNat = 0 ∨ 8 < number.toNat := by simpa [outside] using h
      cases shaftOf shaft.toNat with
      | none => rfl
      | some sh =>
        cases stepOf step with
        | none => rfl
        | some st => exact if_pos (by tauto)
    · rw [stepOf_bad h]
      cases shaftOf shaft.toNat <;> rfl
  | clearPlan shaft => exact settled_answer hq takes (by simp [State.clearPlan, shaftOf_bad bad])
  | setGradeTable index table =>
    cases hq
    exact settled_answer rfl takes (by simp [State.setGradeTable, idle, tableOf_outside bad])
  | startShaft shaft => exact settled_answer hq takes (onShaft_bad bad _ _)
  | stopShaft shaft => exact settled_answer hq takes (onShaft_bad bad _ _)
  | change shaft force =>
    refine settled_answer hq takes ?_
    obtain h | h := Bool.or_eq_true_iff.mp bad
    · cases switchOf force.toNat <;> simp [onShaft_bad h]
    · simp [switchOf_outside h]
  | cancelChange shaft => exact settled_answer hq takes (onShaft_bad bad _ _)
  | unloaded shaft spindle =>
    refine settled_answer hq takes ?_
    obtain h | h := Bool.or_eq_true_iff.mp bad
    · cases spindleOf spindle.toNat <;> simp [onShaft_bad h]
    · simp [spindleOf_outside h]
  | addMark shaft lanes back =>
    refine settled_answer hq takes ?_
    unfold State.addMark
    simp only [outOfRange, Bool.or_assoc] at bad
    obtain h | bad := Bool.or_eq_true_iff.mp bad
    · rw [shaftOf_bad h]
    · have refused : lanes = 0 ∨ maxBack < back.toNat := by simpa [outside, maxBack] using bad
      cases shaftOf shaft.toNat with
      | none => rfl
      | some sh => exact if_pos refused
  | overrideGrade id grade => exact settled_answer hq takes (by simp [State.overrideGrade, gradeOf_outside bad])
  | setSettingsNEnc value => exact item_refused hq takes (idle (edits hq)) (not_within bad)
  | setSettingsStopTimeout value => exact item_refused hq takes (idle (edits hq)) (not_within bad)
  | setSettingsSpliceDebounce value => exact item_refused hq takes (idle (edits hq)) (distanceValid_outside bad)
  | setSettingsDIk value => exact item_refused hq takes (idle (edits hq)) (distanceValid_outside bad)
  | setSettingsDSk value => exact item_refused hq takes (idle (edits hq)) (distanceValid_outside bad)
  | setSettingsDKw shaft value =>
    cases shaft <;> exact item_refused hq takes (idle (edits hq)) (distanceValid_outside bad)
  | setSettingsHoldQuantum value => exact item_refused hq takes (idle (edits hq)) (not_within bad)
  | setSettingsSweepInterval value =>
    obtain ⟨far, other⟩ := Bool.and_eq_true_iff.mp bad
    have other : value.toNat ≠ 0 := by
      simp only [bne_iff_ne] at other
      bv_omega
    exact item_refused hq takes (idle (edits hq)) (by simp [sweepIntervalValid, not_within far, other])
  | setSettingsReelIdCounter value =>
    have zero : value = 0 := by simpa [outOfRange] using bad
    subst zero
    exact item_refused hq takes (idle (edits hq)) rfl
  | setSettingsTravelWatermarks lower upper =>
    refine item_refused hq takes (idle (edits hq)) ?_
    obtain h | h := Bool.or_eq_true_iff.mp bad
    · simp [travelMarksValid, not_within h]
    · simp [travelMarksValid, not_within h]
  | setSettingsMarkWatermarks lower upper =>
    refine item_refused hq takes (idle (edits hq)) ?_
    obtain h | h := Bool.or_eq_true_iff.mp bad
    · have high : ¬ lower.toNat ≤ 2047 := by simpa [outside] using h
      simp [markMarksValid, high]
    · simp [markMarksValid, not_within h]
  | _ => cases bad

end Sys2Proof.Machine
end

section
/-! PROOF. The diameter arithmetic (O25), the landing of a mark (O28) and the resolution of an interval (O29). -/

namespace Sys2Proof.Machine

/-! ## The square root (O25) -/

/-- The bits taken from the top down keep the root between the partial result and the bits still open. -/
theorem sqrtBits_floor {x : Nat} (b acc : Nat) (low : acc * acc ≤ x) (high : x < (acc + 2 ^ b) * (acc + 2 ^ b)) :
    sqrtBits x b acc * sqrtBits x b acc ≤ x ∧ x < (sqrtBits x b acc + 1) * (sqrtBits x b acc + 1) := by
  induction b generalizing acc with
  | zero => exact ⟨low, high⟩
  | succ b ih =>
    rw [sqrtBits]
    split
    · next kept =>
      refine ih _ kept ?_
      rwa [Nat.add_assoc, ← Nat.two_mul, ← Nat.pow_succ']
    · next dropped => exact ih _ low (Nat.lt_of_not_le dropped)

theorem floorSqrt_spec {x : Nat} (h : x < 2 ^ 64) :
    floorSqrt x * floorSqrt x ≤ x ∧ x < (floorSqrt x + 1) * (floorSqrt x + 1) :=
  sqrtBits_floor 32 0 (Nat.zero_le x) (by simpa using h)

/-- The radicand of readings in their ranges (R133). -/
theorem radicand_lt {footage thickness packing core : Nat} (ht : thickness ≤ 200) (hp : packing ≤ 1200)
    (hc : core ≤ 300000) (hf : footage ≤ maxPosition) : radicand footage thickness packing core < 2 ^ 63 := by
  have square : core * core ≤ 300000 * 300000 := Nat.mul_le_mul hc hc
  have area : 4 * thickness * footage ≤ 4 * 200 * maxPosition := Nat.mul_le_mul (by omega) hf
  have ring : 4 * thickness * footage * 1000 * 113 / 355 * packing ≤ 4 * 200 * maxPosition * 1000 * 113 / 355 * 1200 :=
    Nat.mul_le_mul (Nat.div_le_div_right (by omega)) hp
  unfold radicand
  simp only [maxPosition] at ring
  omega

/-- Settles O25. -/
theorem diameterIsExact : Obligations.DiameterIsExact := by
  unfold Obligations.DiameterIsExact
  intro x ht hp hc hf q
  have small : q < 2 ^ 63 := radicand_lt ht hp hc hf
  obtain ⟨low, high⟩ := floorSqrt_spec (x := q) (by omega)
  have core : x.core ≤ floorSqrt q := by
    refine Nat.lt_succ_iff.mp (Nat.mul_self_lt_mul_self_iff.mp (Nat.lt_of_le_of_lt ?_ high))
    exact Nat.le_add_right _ _
  have diameter : x.diameter = min (floorSqrt q) 1500000 := rfl
  have clamped : x.clamped = true ↔ 1500000 < floorSqrt q := decide_eq_true_iff
  generalize floorSqrt q = d at *
  refine ⟨small, ⟨d, low, high, diameter, clamped⟩, ?_, ?_⟩
  · rw [diameter]
    exact Nat.le_min.mpr ⟨core, by omega⟩
  · rw [diameter]
    exact Nat.min_le_right ..

/-! ## Resolution (O29) -/

theorem cutEnd_eq (web x w : Nat) : cutEnd web x w = min (x + max w 1) web := by
  unfold cutEnd
  split <;> omega

theorem mem_laneSet {s : State} {sh : Shaft} {lo hi : Nat} {l : LaneHit} : l ∈ s.laneSet sh lo hi ↔
    (s.lane l.lane).enabled = true ∧ (s.lane l.lane).shaft = sh ∧
      max lo (s.lane l.lane).edge < min hi ((s.lane l.lane).edge + (s.lane l.lane).width) ∧
      l.offset = max lo (s.lane l.lane).edge - (s.lane l.lane).edge ∧
      l.width = min hi ((s.lane l.lane).edge + (s.lane l.lane).width) - max lo (s.lane l.lane).edge := by
  have hit (n : Lane) : (s.lane n).hit n sh lo hi = some l ↔ n = l.lane ∧ (s.lane n).enabled = true ∧
      (s.lane n).shaft = sh ∧ max lo (s.lane n).edge < min hi ((s.lane n).edge + (s.lane n).width) ∧
      l.offset = max lo (s.lane n).edge - (s.lane n).edge ∧
      l.width = min hi ((s.lane n).edge + (s.lane n).width) - max lo (s.lane n).edge := by
    unfold LaneRec.hit
    obtain ⟨lane, offset, width⟩ := l
    dsimp only
    split
    · next h =>
      simp only [Bool.and_eq_true, decide_eq_true_eq] at h
      obtain ⟨⟨on, shaft⟩, meets⟩ := h
      simp only [Option.some.injEq, LaneHit.mk.injEq, on, shaft, meets, true_and]
      exact ⟨fun ⟨a, b, c⟩ => ⟨a, b.symm, c.symm⟩, fun ⟨a, b, c⟩ => ⟨a, b.symm, c.symm⟩⟩
    · next h =>
      simp only [Bool.and_eq_true, decide_eq_true_eq] at h
      exact iff_of_false nofun fun ⟨_, on, shaft, meets, _⟩ => h ⟨⟨on, shaft⟩, meets⟩
  simp only [State.laneSet, List.mem_filterMap, hit]
  refine ⟨fun ⟨n, _, e, rest⟩ => by rw [← e]; exact rest, fun h => ⟨l.lane, List.mem_finRange _, rfl, h⟩⟩

theorem laneSet_sorted (s : State) (sh : Shaft) (lo hi : Nat) :
    (s.laneSet sh lo hi).Pairwise fun k l => k.lane < l.lane := by
  have lane {n : Lane} {l : LaneHit} (e : (s.lane n).hit n sh lo hi = some l) : l.lane = n := by
    unfold LaneRec.hit at e
    dsimp only at e
    split at e <;> cases e
    rfl
  refine List.Pairwise.filterMap _ (fun m n before k hk l hl => ?_) (List.pairwise_lt_finRange 24)
  rw [lane hk, lane hl]
  exact before

theorem mem_lanes {s : State} {l : LaneRec} : l ∈ s.map.lanes.toList ↔ ∃ n, s.lane n = l := by
  rw [Vector.mem_toList_iff, Vector.mem_iff_getElem]
  exact ⟨fun ⟨i, hi, e⟩ => ⟨⟨i, hi⟩, e⟩, fun ⟨n, e⟩ => ⟨n.val, n.isLt, e⟩⟩

theorem uncovered_iff {s : State} {q : Nat} : s.uncovered q = true ↔
    ∀ n, (s.lane n).enabled = true → ¬ ((s.lane n).edge ≤ q ∧ q < (s.lane n).edge + (s.lane n).width) := by
  simp only [State.uncovered, List.all_eq_true, mem_lanes, forall_exists_index, forall_apply_eq_imp_iff, LaneRec.contains]
  refine forall_congr' fun n => ?_
  cases (s.lane n).enabled <;> simp [imp_iff_not_or]

/-- Where no enabled lane covers some position of [lo, hi), none covers lo or the end of some enabled lane there. -/
theorem first_uncovered {s : State} {lo hi y : Nat} (above : lo ≤ y) (below : y < hi) (h : s.uncovered y = true) :
    s.uncovered lo = true ∨ ∃ n, (s.lane n).enabled = true ∧ lo ≤ (s.lane n).edge + (s.lane n).width ∧
      (s.lane n).edge + (s.lane n).width < hi ∧ s.uncovered ((s.lane n).edge + (s.lane n).width) = true := by
  induction y with
  | zero => exact .inl (Nat.le_zero.mp above ▸ h)
  | succ y ih =>
    by_cases first : lo = y + 1
    · exact .inl (first ▸ h)
    · by_cases before : s.uncovered y = true
      · exact ih (by omega) (by omega) before
      · obtain ⟨n, on, covers⟩ : ∃ n, (s.lane n).enabled = true ∧ (s.lane n).edge ≤ y ∧ y < (s.lane n).edge + (s.lane n).width := by
          simpa [uncovered_iff] using before
        have ends : (s.lane n).edge + (s.lane n).width = y + 1 := by
          have := uncovered_iff.mp h n on
          omega
        exact .inr ⟨n, on, by omega, by omega, ends ▸ h⟩

theorem isTrim_iff {s : State} {lo hi : Nat} : s.isTrim lo hi = true ↔ hi ≤ lo ∨ ∃ y, lo ≤ y ∧ y < hi ∧
    ∀ n, (s.lane n).enabled = true → ¬ ((s.lane n).edge ≤ y ∧ y < (s.lane n).edge + (s.lane n).width) := by
  simp only [← uncovered_iff, State.isTrim, Bool.or_eq_true, List.any_eq_true, mem_lanes, Bool.and_eq_true,
    decide_eq_true_eq, exists_exists_eq_and, or_assoc]
  refine ⟨?_, ?_⟩
  · rintro (empty | uncovered | ⟨n, ⟨⟨on, above⟩, below⟩, uncovered⟩)
    · exact .inl empty
    · by_cases empty : hi ≤ lo
      · exact .inl empty
      · exact .inr ⟨lo, Nat.le_refl lo, by omega, uncovered⟩
    · exact .inr ⟨_, above, below, uncovered⟩
  · rintro (empty | ⟨y, above, below, uncovered⟩)
    · exact .inl empty
    · obtain first | ⟨n, on, above, below, ends⟩ := first_uncovered above below uncovered
      · exact .inr (.inl first)
      · exact .inr (.inr ⟨n, ⟨⟨on, above⟩, below⟩, ends⟩)

/-- Settles O29. -/
theorem resolutionCutsTheInterval : Obligations.ResolutionCutsTheInterval := by
  unfold Obligations.ResolutionCutsTheInterval
  intro s x w hi
  exact ⟨cutEnd_eq _ x w, fun sh l => mem_laneSet, fun sh => laneSet_sorted s sh x hi, isTrim_iff⟩

/-! ## Alerts -/

theorem DigestUnit.raise_alert (d : DigestUnit) (a : Alert) (i : Fin 20) : (d.raise a).alerts[i] =
    if i = a.index then ⟨true, d.changeTag + 1, (d.alerts[i]).masked⟩ else d.alerts[i] := by
  simp only [DigestUnit.raise, Fin.getElem_fin, Vector.getElem_set]
  by_cases same : i = a.index
  · subst same
    simp
  · rw [if_neg (fun e => same (Fin.ext e).symm), if_neg same]

@[simp] theorem State.raise_changeTag (s : State) (a : Alert) : (s.raise a).digest.changeTag = s.digest.changeTag + 1 := rfl

theorem State.raise_alert (s : State) (a : Alert) (i : Fin 20) : (s.raise a).digest.alerts[i] =
    if i = a.index then ⟨true, s.digest.changeTag + 1, (s.digest.alerts[i]).masked⟩ else s.digest.alerts[i] :=
  s.digest.raise_alert a i

theorem State.raiseIf_changeTag (s : State) (c : Bool) (a : Alert) :
    (s.raiseIf c a).digest.changeTag = s.digest.changeTag + if c then 1 else 0 := by
  cases c
  · simp [State.raiseIf]
  · rfl

/-- An alert that is set stays set when another event raises one. -/
theorem State.raiseIf_isSet (s : State) (c : Bool) (a : Alert) (i : Fin 20) :
    (s.raiseIf c a).digest.alerts[i].isSet = (s.digest.alerts[i].isSet || (c && decide (i = a.index))) := by
  cases c with
  | false => simp [State.raiseIf]
  | true =>
    show (s.raise a).digest.alerts[i].isSet = _
    rw [s.raise_alert a i]
    by_cases same : i = a.index <;> simp [same]

/-! ## Landings (O28) -/

theorem insertBy_eq {α : Type} (key : α → Nat) (e : α) (l : List α) :
    insertBy key e l = l.takeWhile (fun x => decide (key x ≤ key e)) ++ [e] ++ l.dropWhile fun x => decide (key x ≤ key e) := by
  induction l with
  | nil => rfl
  | cons x l ih =>
    by_cases before : key x ≤ key e
    · simp [insertBy, before, ih]
    · simp [insertBy, before]

theorem Reel.extendParents_other {r : Reel} {m : Mark} (h : ∀ p, m.finding ≠ .splice p) : r.extendParents m = r := by
  unfold Reel.extendParents
  split
  · next p e => exact absurd e (h p)
  · rfl

theorem Reel.extendParents_splice {r : Reel} {m : Mark} {p : Nat} (h : m.finding = .splice p) : r.extendParents m = { r with
    parents := if r.parents.length < parentLimit then insertParent ⟨p, footageAt r.start r.rho m.arrival⟩ r.parents
      else r.parents
    flags := { r.flags with
      limited := r.flags.limited || decide (maxPosition < rawFootage r.start r.rho m.arrival)
      parentListFull := r.flags.parentListFull || !decide (r.parents.length < parentLimit) } } := by
  unfold Reel.extendParents
  rw [h]
  by_cases room : r.parents.length < parentLimit <;> simp [room]

/-- What a landing leaves of the record, field by field (R66 to R69, R72, R78). -/
theorem Reel.landed_eq (r : Reel) (m : Mark) (chained : Bool) (g : GradeTable) : r.landed m chained g = { r with
    tallies := r.tallies.count m.finding
    chain := if chained then insertMark m r.chain else r.chain
    dropped := if chained then r.dropped else satInc r.dropped
    computed := r.computed.worse (gradeResult (r.tallies.count m.finding) g)
    parents := (r.extendParents m).parents
    flags := { (r.extendParents m).flags with
      marksDropped := r.flags.marksDropped || !chained
      lateMarks := r.flags.lateMarks || m.late } } := by
  unfold Reel.landed Reel.chainOrDrop
  by_cases splice : ∃ p, m.finding = .splice p
  · obtain ⟨p, e⟩ := splice
    simp only [Reel.extendParents_splice e]
    cases chained <;> simp
  · have other : ∀ p, m.finding ≠ .splice p := fun p e => splice ⟨p, e⟩
    simp only [Reel.extendParents_other other]
    cases chained <;> simp

/-- The record's stored content has changed exactly where the landed record differs, for its revision does not move
before (R69). -/
theorem State.landedReel_ne (s : State) (m : Mark) (r : Reel) :
    s.landedReel m r ≠ r ↔ r.landed m (s.chains r) s.settings.tables[r.table] ≠ r := by
  unfold State.landedReel
  split
  · next same => exact iff_of_false (fun h => h rfl) fun h => h same
  · next other =>
    refine iff_of_true (fun e => ?_) other
    have revision : (r.landed m (s.chains r) s.settings.tables[r.table]).revision = r.revision := by rw [Reel.landed_eq]
    have moved := congrArg Reel.revision e
    simp only [Reel.bump, revision] at moved
    bv_omega

/-- A landing on a record that is not FREE, with its alerts. -/
theorem State.land_eq {s : State} {h : Handle} {r : Reel} (there : s.reel h = some r) (m : Mark) : ∃ u : State,
    u = { s with
      table := { s.table with reels := s.table.reels.set h (some (s.landedReel m r)) }
      freeMarks := if s.chains r then s.freeMarks - 1 else s.freeMarks } ∧
    s.land h m = (u.raiseIf (!s.chains r) .marksDropped).raiseIf
      (decide (s.landedReel m r ≠ r) && decide (r.state = .doffed)) .lateChange := by
  refine ⟨_, rfl, ?_⟩
  have changed : decide (s.landedReel m r ≠ r) = decide (r.landed m (s.chains r) s.settings.tables[r.table] ≠ r) :=
    decide_eq_decide.mpr (s.landedReel_ne m r)
  rw [changed]
  unfold State.land
  rw [there]
  unfold State.landedReel
  dsimp only
  cases s.chains r <;> rfl

theorem State.landedReel_eq (s : State) (m : Mark) (r : Reel) : ∃ v, s.landedReel m r =
    { r.landed m (s.chains r) s.settings.tables[r.table] with revision := v } ∧
      (s.landedReel m r = r ∨ v = r.revision + 1) := by
  unfold State.landedReel
  split
  · next same => exact ⟨_, by rw [same], .inl rfl⟩
  · refine ⟨_, rfl, .inr ?_⟩
    rw [Reel.landed_eq]

/-- Settles O28. -/
theorem landingsCountEveryFinding : Obligations.LandingsCountEveryFinding := by
  unfold Obligations.LandingsCountEveryFinding
  intro s h m r there raw before room t
  obtain ⟨u, hu, e⟩ := State.land_eq there m
  obtain ⟨v, q, revision⟩ := s.landedReel_eq m r
  have kept : (s.landedReel m r).id = r.id ∧ (s.landedReel m r).state = r.state ∧
      (s.landedReel m r).stopAt = r.stopAt ∧ (s.landedReel m r).footage = r.footage := by
    rw [q, Reel.landed_eq]
    exact ⟨rfl, rfl, rfl, rfl⟩
  have tallies : (s.landedReel m r).tallies = r.tallies.count m.finding := by rw [q, Reel.landed_eq]
  have chains : s.chains r = room := rfl
  have marks : t.freeMarks = if room then s.freeMarks - 1 else s.freeMarks := by
    obtain ⟨_, frame⟩ := State.land_there there m
    rw [show t = _ from frame, ← chains]
  have raises : t = (u.raiseIf (!room) .marksDropped).raiseIf
      (decide (s.landedReel m r ≠ r) && decide (r.state = .doffed)) .lateChange := e
  have flags : (s.landedReel m r).flags = { (r.extendParents m).flags with
      marksDropped := r.flags.marksDropped || !room
      lateMarks := r.flags.lateMarks || m.late } := by
    rw [q, Reel.landed_eq, chains]
  have chain : (s.landedReel m r).chain = if room then insertMark m r.chain else r.chain := by
    rw [q, Reel.landed_eq, chains]
  have dropped : (s.landedReel m r).dropped = if room then r.dropped else satInc r.dropped := by
    rw [q, Reel.landed_eq, chains]
  have parents : (s.landedReel m r).parents = (r.extendParents m).parents := by rw [q, Reel.landed_eq]
  obtain ⟨id, state, stopAt, footage⟩ := kept
  refine ⟨s.landedReel m r, ?_, id, state, stopAt, footage, ?_, fun fits => ?_, fun full => ?_, ?_,
    fun p splice => ?_, fun other => ?_, ?_, fun changed doffed => ?_, ?_, fun g ne => ?_, ?_⟩
  · exact (State.land_rewritten there m h).trans (if_pos rfl)
  · rw [tallies]
    match m.finding with
    | .defect 0 => rfl
    | .defect 1 => rfl
    | .defect 2 => rfl
    | .defect 3 => rfl
    | .register _ => rfl
    | .splice _ => rfl
    | .flag => rfl
  · rw [chain, dropped, marks, flags, fits, if_pos rfl, if_pos rfl, if_pos rfl, insertMark_eq]
    exact ⟨insertBy_perm _, sublist_insertBy _, rfl, rfl, by simp⟩
  · rw [chain, dropped, marks, flags, full]
    refine ⟨rfl, rfl, rfl, by simp, ?_⟩
    rw [raises, State.raiseIf_isSet, State.raiseIf_isSet, full]
    simp
  · rw [flags]
  · rw [flags, parents, Reel.extendParents_splice splice]
    refine ⟨rfl, fun short => ?_, fun long => ?_⟩
    · have short : r.parents.length < parentLimit := short
      simp only [short, if_true, decide_true, Bool.not_true, Bool.or_false, true_and]
      rw [insertParent_eq, insertBy_eq]
      rfl
    · have long : ¬ r.parents.length < parentLimit := Nat.not_lt.mpr long
      simp [long]
  · rw [flags, parents, Reel.extendParents_other other]
    exact ⟨rfl, rfl, rfl⟩
  · refine revision.imp_right fun moved => ?_
    rw [q]
    exact moved
  · rw [raises, State.raiseIf_isSet]
    simp [changed, doffed]
  · rw [raises, State.raiseIf_changeTag, State.raiseIf_changeTag, hu]
    cases room <;> simp
  · exact (State.land_rewritten there m g).trans (if_neg ne)
  · obtain ⟨_, _, _, frame⟩ := s.land_frame h m
    rw [show t = _ from frame]

end Sys2Proof.Machine
end

section
/-! PROOF. The encoder's counts, the timers, saves and the resets that start again (O30, O33 to O36). -/

namespace Sys2Proof.Machine

/-! ## Timers (O36) -/

/-- Settles O36. -/
theorem timersExpire : Obligations.TimersExpire := by
  unfold Obligations.TimersExpire
  intro s
  have due {timer : Option Nat} {e : Nat} (h : timer = some e) (le : e ≤ s.now) : stands s.now timer = true :=
    stands_iff.mpr ⟨e, h, le⟩
  refine ⟨fun e he le => ?_, fun later => ?_, fun e he le awake => ?_, fun later => ?_, fun e he le receiving awake => ?_,
    fun later => ?_⟩
  · show Host.Outcome.next (if stands s.now s.position.stopTimer then s.stopLine else s) = _
    rw [due he le]
    rfl
  · show Host.Outcome.next (if stands s.now s.position.stopTimer then s.stopLine else s) = _
    rw [stands_eq_false later]
    rfl
  · show Host.Outcome.next (if stands s.now s.hold.override && !s.inReset then _ else s) = _
    rw [due he le, awake]
    rfl
  · show Host.Outcome.next (if stands s.now s.hold.override && !s.inReset then _ else s) = _
    rw [stands_eq_false later]
    rfl
  · refine ⟨(s.setLink s.link.hunting).refuseReport .badFrame, ?_, rfl, rfl, ?_⟩
    · show Host.Outcome.next (if stands s.now s.link.gap && !s.inReset && decide (s.link.phase = .receiving) then _ else s) = _
      rw [due he le, awake, receiving]
      rfl
    · unfold State.refuseReport
      rw [State.raise_alert, if_pos rfl]
      exact ⟨rfl, rfl⟩
  · show Host.Outcome.next (if stands s.now s.link.gap && !s.inReset && decide (s.link.phase = .receiving) then _ else s) = _
    rw [stands_eq_false later]
    rfl

/-! ## Saves (O33) -/

/-- A request whose block changes nothing that the hold unit looks at, carried out and settled. -/
theorem settled_reply {i : Instr} {q : Request} {s : State} (hq : encodeRequest i = some q) (takes : s.takesRequests)
    {act : State → Reply} {t : State} {c : AnswerCode} (ha : act (s.setPort (s.port.take q)) = Reply.code (t.setPort (s.port.take q)) c)
    (hl : t.map.lanes = s.map.lanes) (hs : t.shafts = s.shafts) (hp : t.position.fault = s.position.fault)
    (ht : t.travel.free = s.travel.free) (hm : t.freeMarks = s.freeMarks) (hh : t.hold = s.hold) :
    s.settle (s.carryOut i act) = t.setPort (s.port.answered q.code c []) := by
  rw [State.carryOut_free hq takes, ha, Reply.finish_code]
  exact State.settle_untouched hl hs hp ht hm hh

/-- Settles O33. -/
theorem savesAndThePreserveFlag : Obligations.SavesAndThePreserveFlag := by
  unfold Obligations.SavesAndThePreserveFlag
  intro s
  refine ⟨fun takes idle => ?_, fun takes busy => ?_, fun image saving => ⟨?_, fun left => ?_⟩, fun idle o => ?_,
    fun takes => ?_, fun takes => ?_⟩
  · refine congrArg Host.Outcome.next (settled_reply (t := s.setStore { s.store with save := some s.settings.image })
      (q := ⟨0x41, []⟩) rfl takes ?_ rfl rfl rfl rfl rfl rfl)
    simp [idle]
    rfl
  · exact settled_answer (q := ⟨0x41, []⟩) rfl takes (by simp [busy])
  · show Host.Outcome.next _ = _
    rw [saving]
    rfl
  · show Host.Outcome.next _ = _
    rw [saving]
    rfl
  · show Host.Outcome.next _ = _
    rw [idle]
  · exact congrArg Host.Outcome.next (settled_reply (t := s.setStore { s.store with preserve := true })
      (q := ⟨0x42, []⟩) rfl takes rfl rfl rfl rfl rfl rfl rfl)
  · exact congrArg Host.Outcome.next (settled_reply (t := s.setStore { s.store with preserve := false })
      (q := ⟨0x43, []⟩) rfl takes rfl rfl rfl rfl rfl rfl rfl)

/-! ## Reverse counts (O35) -/

/-- A reverse count takes 1,000 off the web's way, and never passes the start of the run (R4). -/
theorem countDown_spec {n p r : Nat} (hr : r < n) :
    (countDown n p r).2 < n ∧ (countDown n p r).1 * n + (countDown n p r).2 = p * n + r - 1000 := by
  unfold countDown
  split
  · next small =>
    exact ⟨by dsimp only; omega, by dsimp only; omega⟩
  · next low =>
    dsimp only
    have split : n * ceilDiv (1000 - r) n + (1000 - r + (n - 1)) % n = 1000 - r + (n - 1) := Nat.div_add_mod ..
    have rest := Nat.mod_lt (1000 - r + (n - 1)) (show 0 < n by omega)
    generalize ceilDiv (1000 - r) n = k at *
    rw [Nat.mul_comm] at split
    split
    · next fits =>
      have web : (p - k) * n + k * n = p * n := by rw [← Nat.add_mul, Nat.sub_add_cancel fits]
      exact ⟨by dsimp only; omega, by dsimp only; omega⟩
    · next short =>
      have web : p * n + n ≤ k * n := by
        rw [← Nat.succ_mul]
        exact Nat.mul_le_mul_right n (by omega)
      exact ⟨by dsimp only; omega, by dsimp only; omega⟩

/-- A pair does not follow its own follower in the cycle. -/
theorem nextPair_ne (pair : Bool × Bool) : pair ≠ nextPair (nextPair pair) := by
  rcases pair with ⟨_ | _, _ | _⟩ <;> decide

theorem State.decodePair_reverse {s : State} {pair : Bool × Bool} (behind : s.position.reference = nextPair pair) :
    s.decodePair pair = (s.setPosition { s.position with reference := pair }).reverseCount := by
  have ahead : pair ≠ nextPair s.position.reference := behind ▸ nextPair_ne pair
  unfold State.decodePair
  dsimp only
  rw [if_neg ahead, if_pos behind]

theorem State.decodePair_none {s : State} {pair : Bool × Bool} (ahead : pair ≠ nextPair s.position.reference)
    (behind : s.position.reference ≠ nextPair pair) :
    s.decodePair pair = s.setPosition { s.position with reference := pair } := by
  unfold State.decodePair
  dsimp only
  rw [if_neg ahead, if_neg behind]

/-- A change of the pins while the unit counts. -/
theorem exec_quadratureChange {pair : Bool × Bool} {s : State} (tracks : s.tracking = true) :
    exec (.quadratureChange pair.1 pair.2) s = .next (s.settle ((s.setEncoder pair).decodePair pair)) := by
  show Host.Outcome.next (s.settle (if (s.setEncoder pair).tracking then (s.setEncoder pair).decodePair pair else
    s.setEncoder pair)) = _
  rw [if_pos (show (s.setEncoder pair).tracking = true from tracks)]

/-- Settles O35. -/
theorem reverseCountsTakeThePositionBack : Obligations.ReverseCountsTakeThePositionBack := by
  unfold Obligations.ReverseCountsTakeThePositionBack
  intro pair s
  refine ⟨fun tracks law behind => ?_, fun tracks ahead behind => ?_, fun off => ?_⟩
  · obtain ⟨_, hr, _⟩ := law
    refine ⟨_, _, ?_, countDown_spec (p := s.position.p) hr⟩
    rw [exec_quadratureChange tracks, State.decodePair_reverse (s := s.setEncoder pair) behind]
    exact congrArg Host.Outcome.next (State.settle_untouched rfl rfl rfl rfl rfl rfl)
  · rw [exec_quadratureChange tracks, State.decodePair_none (s := s.setEncoder pair) ahead behind]
    exact congrArg Host.Outcome.next (State.settle_untouched rfl rfl rfl rfl rfl rfl)
  · show Host.Outcome.next (s.settle (if s.tracking then (s.setEncoder pair).decodePair pair else s.setEncoder pair)) = _
    rw [off]
    exact congrArg Host.Outcome.next (State.settle_untouched rfl rfl rfl rfl rfl rfl)

/-! ## Forward counts (O34) -/

theorem countUp_spec {n p r : Nat} (hn : 0 < n) (hp : p ≤ maxPosition) :
    if p + (r + 1000) / n ≤ maxPosition then
      (countUp n p r).1 * n + (countUp n p r).2.1 = p * n + r + 1000 ∧ (countUp n p r).2.1 < n ∧ (countUp n p r).2.2 = false
    else (countUp n p r).1 = maxPosition ∧ (countUp n p r).2.1 = 0 ∧ (countUp n p r).2.2 = true := by
  unfold countUp
  dsimp only
  split
  · have split : n * ((r + 1000) / n) + (r + 1000) % n = r + 1000 := Nat.div_add_mod ..
    refine ⟨?_, Nat.mod_lt _ hn, rfl⟩
    show (p + (r + 1000) / n) * n + (r + 1000) % n = _
    rw [Nat.add_mul, Nat.mul_comm ((r + 1000) / n)]
    omega
  · exact ⟨max_eq_right hp, rfl, rfl⟩

theorem countUp_le (n p r : Nat) : p ≤ (countUp n p r).1 := by
  unfold countUp
  dsimp only
  split
  · exact Nat.le_add_right ..
  · exact le_max_left ..

/-- The arrival that a watch hands over at the end of a count that leaves the web at P (R14). -/
def handedOver (p : Nat) (w : Watch) (armed : Option Nat) : Option Arrival :=
  armed.bind fun x => if x ≤ p then some ⟨w, x, p⟩ else none

/-- A watch reached at its turn is disarmed and its arrival handed over; every other stays (R14). -/
theorem State.reportReached_spec (s : State) (w : Watch) :
    (s.reportReached w).position.arrivals = s.position.arrivals ++ (handedOver s.position.p w (s.watch w)).toList ∧
      (s.reportReached w).position.p = s.position.p ∧
      ∀ v, (s.reportReached w).watch v = if v = w then (s.watch v).filter fun x => decide (s.position.p < x) else s.watch v := by
  have keeps (h : s.reportReached w = s) (silent : handedOver s.position.p w (s.watch w) = none)
      (beyond : ∀ x ∈ s.watch w, s.position.p < x) : (s.reportReached w).position.arrivals =
        s.position.arrivals ++ (handedOver s.position.p w (s.watch w)).toList ∧
      (s.reportReached w).position.p = s.position.p ∧
      ∀ v, (s.reportReached w).watch v = if v = w then (s.watch v).filter fun x => decide (s.position.p < x) else s.watch v := by
    rw [h, silent]
    refine ⟨by simp, rfl, fun v => ?_⟩
    by_cases e : v = w
    · subst e
      rw [if_pos rfl]
      cases armed : s.watch v with
      | none => rfl
      | some x => rw [Option.filter_some, if_pos (decide_eq_true (beyond x armed))]
    · rw [if_neg e]
  cases armed : s.watch w with
  | none =>
    rw [← armed]
    exact keeps (by unfold State.reportReached; rw [armed]) (by rw [armed]; rfl) fun x h => by rw [armed] at h; cases h
  | some x =>
    by_cases reached : x ≤ s.position.p
    · have done : s.reportReached w = (s.setWatch w none).report w x := by
        unfold State.reportReached
        rw [armed]
        exact if_pos reached
      rw [done]
      refine ⟨by simp [handedOver, State.report, State.setWatch, reached], rfl, fun v => ?_⟩
      by_cases e : v = w
      · subst e
        rw [if_pos rfl, armed, Option.filter_some, if_neg (by simpa using reached)]
        exact WatchTable.get_set_same _ _ _
      · rw [if_neg e]
        simp [State.watch, State.report, State.setWatch, WatchTable.get_set_ne _ _ e]
    · rw [← armed]
      refine keeps ?_ (by simp [armed, handedOver, reached]) fun y h => ?_
      · unfold State.reportReached
        rw [armed]
        exact if_neg reached
      · rw [armed] at h
        cases h
        exact Nat.lt_of_not_le reached

/-- Watches reported one after the other (R14). -/
theorem reportReached_foldl {l : List Watch} (distinct : l.Nodup) (s : State) :
    (l.foldl State.reportReached s).position.arrivals = s.position.arrivals ++ l.filterMap (fun w =>
        handedOver s.position.p w (s.watch w)) ∧
      ∀ v, (l.foldl State.reportReached s).watch v =
        if v ∈ l then (s.watch v).filter fun x => decide (s.position.p < x) else s.watch v := by
  induction l generalizing s with
  | nil => simp
  | cons w l ih =>
    obtain ⟨fresh, distinct⟩ := List.nodup_cons.mp distinct
    obtain ⟨arrivals, p, watches⟩ := s.reportReached_spec w
    obtain ⟨later, others⟩ := ih distinct (s.reportReached w)
    have same : ∀ v ∈ l, (s.reportReached w).watch v = s.watch v := fun v hv => by
      rw [watches, if_neg fun e : v = w => fresh (e ▸ hv)]
    refine ⟨?_, fun v => ?_⟩
    · have rest : l.filterMap (fun v => handedOver s.position.p v ((s.reportReached w).watch v)) =
          l.filterMap fun v => handedOver s.position.p v (s.watch v) :=
        List.filterMap_congr fun v hv => by rw [same v hv]
      rw [List.foldl_cons, later, arrivals, p, rest, List.append_assoc, List.filterMap_cons]
      cases handedOver s.position.p w (s.watch w) <;> rfl
    · rw [List.foldl_cons, others, p, watches]
      by_cases first : v = w
      · subst first
        simp [fresh]
      · simp [first]

theorem mem_allWatches (w : Watch) : w ∈ allWatches := by
  rcases w with _ | sh | ⟨sh, k⟩ | _
  · decide
  · cases sh <;> decide
  · cases sh <;> cases k <;> decide
  · decide

/-- All watches reported (R14). -/
theorem State.reportAll_spec (s : State) :
    s.reportAll.position.arrivals = s.position.arrivals ++ allWatches.filterMap (fun w =>
        handedOver s.position.p w (s.watch w)) ∧
      ∀ v, s.reportAll.watch v = (s.watch v).filter fun x => decide (s.position.p < x) := by
  obtain ⟨arrivals, watches⟩ := reportReached_foldl (l := allWatches) (by decide) s
  exact ⟨arrivals, fun v => (watches v).trans (if_pos (mem_allWatches v))⟩

theorem State.positionLimit_raises (s : State) : s.positionLimit =
    (s.setPosition { s.position with fault := true }).raiseIf (!s.position.fault) .positionLimit := by
  unfold State.positionLimit
  cases h : s.position.fault with
  | true =>
    have same : s.setPosition { s.position with fault := true } = s := by
      rw [← h]
      rfl
    rw [same]
    rfl
  | false => rfl

/-- Watches that all lie beyond P hand over nothing. -/
theorem WatchLaw.beyond {s : State} (law : WatchLaw s) (w : Watch) :
    handedOver s.position.p w (s.watch w) = none ∧ (s.watch w).filter (fun x => decide (s.position.p < x)) = s.watch w := by
  have ahead := law w
  cases armed : s.watch w with
  | none => exact ⟨rfl, rfl⟩
  | some x =>
    have lt := ahead x armed
    exact ⟨by simp [handedOver, Nat.not_le.mpr lt], by simp [lt]⟩

/-- A forward count: the web's new place, the line, the fault and the watches reached (R3, R6 to R8, R14). -/
theorem State.forwardCount_spec {s : State} (law : WatchLaw s) :
    let c := countUp s.settings.nEnc s.position.p s.position.r
    s.forwardCount.position = { s.position with
      p := c.1
      r := c.2.1
      direction := .forward
      line := .running
      stopTimer := some (s.now + s.settings.stopTimeout)
      fault := s.position.fault || c.2.2
      watches := s.forwardCount.position.watches
      arrivals := s.position.arrivals ++ allWatches.filterMap fun w => handedOver c.1 w (s.watch w) } ∧
    (∀ w, s.forwardCount.watch w = (s.watch w).filter fun x => decide (c.1 < x)) ∧
    s.forwardCount.digest = (s.raiseIf (c.2.2 && !s.position.fault) .positionLimit).digest := by
  intro c
  have moved : ∃ u : State, u.position = { s.position with
        p := c.1, r := c.2.1, direction := .forward, line := .running
        stopTimer := some (s.now + s.settings.stopTimeout), fault := s.position.fault || c.2.2 } ∧
      u.digest = (s.raiseIf (c.2.2 && !s.position.fault) .positionLimit).digest ∧
      s.forwardCount = if s.position.p < c.1 then u.reportAll else u := by
    refine ⟨_, ?_, ?_, rfl⟩
    · show (if c.2.2 then _ else _ : State).position = _
      cases c.2.2 with
      | false =>
        rw [Bool.or_false]
        rfl
      | true =>
        rw [if_pos rfl, State.positionLimit_web, Bool.or_true]
        rfl
    · show (if c.2.2 then _ else _ : State).digest = _
      cases c.2.2 with
      | false => rfl
      | true =>
        rw [if_pos rfl, State.positionLimit_raises]
        show (State.raiseIf _ (!s.position.fault) _).digest = _
        cases s.position.fault <;> rfl
  obtain ⟨u, hu, hd, count⟩ := moved
  have watches (w : Watch) : u.watch w = s.watch w := by rw [State.watch, hu]; rfl
  have p : u.position.p = c.1 := by rw [hu]
  rw [count]
  split
  · obtain ⟨t, l, frame⟩ := u.reportAll_frame
    obtain ⟨arrivals, filtered⟩ := u.reportAll_spec
    simp only [watches, p] at arrivals filtered
    refine ⟨?_, filtered, ?_⟩
    · rw [frame] at arrivals ⊢
      simp only [hu] at arrivals ⊢
      rw [arrivals]
    · rw [frame]
      exact hd
  · next still =>
    have stands : c.1 = s.position.p := Nat.le_antisymm (Nat.le_of_not_lt still) (countUp_le ..)
    have none : allWatches.filterMap (fun w => handedOver c.1 w (s.watch w)) = [] := by
      rw [List.filterMap_eq_nil_iff, stands]
      exact fun w _ => (law.beyond w).1
    refine ⟨?_, fun w => ?_, hd⟩
    · rw [hu, none, List.append_nil]
    · rw [watches, stands, (law.beyond w).2]

theorem HoldUnit.follow_stopLine (h : HoldUnit) (expiry : Nat) :
    (h.follow expiry).stopLine = if h.stop.isNone && h.causes.anyStop then true else h.stopLine := by
  unfold HoldUnit.follow HoldUnit.releaseSlow HoldUnit.activateSlow HoldUnit.activateStop
  split_ifs <;> simp_all

theorem State.announce_hold (before after : State) : (before.announce after).hold = after.hold := by
  obtain ⟨d, e⟩ := before.announce_frame after
  rw [e]

/-- What the end of an event leaves of the hold unit, outside a reset (R140, R144). -/
theorem State.settle_hold {before after : State} (awake : after.inReset = false) :
    (before.settle after).hold = ((before.takeCounts after).takeCauses (before.eventCauses after)).hold := by
  unfold State.settle
  rw [awake, if_neg (by decide), State.announce_hold]

/-- A cause of level STOP brings the STOP line, where the lines show the holds (R140, R144). -/
theorem settle_stopLine {before after : State} (awake : after.inReset = false) (hold : after.hold = before.hold)
    (law : LineLaw before) (present : (before.eventCauses after).anyStop = true) :
    (before.settle after).hold.stopLine = true := by
  obtain ⟨_, stop, _, causes, _⟩ := law
  rw [State.settle_hold awake, State.takeCauses_hold]
  have kept : (before.takeCounts after).hold.causes = before.hold.causes ∧
      (before.takeCounts after).hold.stopLine = before.hold.stopLine ∧
      (before.takeCounts after).hold.stop = before.hold.stop := by
    rw [← hold]
    exact ⟨rfl, rfl, rfl⟩
  obtain ⟨sameCauses, sameLine, sameStop⟩ := kept
  split
  · next same =>
    rw [sameLine]
    exact causes (by rw [← sameCauses, ← same]; exact present)
  · rw [HoldUnit.follow_stopLine]
    simp only [present, sameStop, sameLine, Bool.and_true]
    cases held : before.hold.stop with
    | none => rfl
    | some e =>
      rw [stop, held]
      rfl

/-- The end of an event raises nothing but HOLD_CHANGED (R146). -/
theorem State.settle_digest (before after : State) :
    ∃ c, (before.settle after).digest = (after.raiseIf c .holdChanged).digest := by
  unfold State.settle
  split
  · exact ⟨false, rfl⟩
  · obtain ⟨h, e⟩ := State.takeCauses_frame (before.takeCounts after) (before.eventCauses after)
    rw [e]
    refine ⟨decide (before.hold.level ≠ h.level), ?_⟩
    unfold State.announce State.raiseIf
    split <;> rfl

/-- An alert that an event has set stays set at its end. -/
theorem settle_isSet {before after : State} {i : Fin 20} (h : after.digest.alerts[i].isSet = true) :
    (before.settle after).digest.alerts[i].isSet = true := by
  obtain ⟨c, e⟩ := before.settle_digest after
  rw [e, State.raiseIf_isSet, h, Bool.true_or]

/-- A new position-limit fault is a cause of level STOP (R8, R140). -/
theorem eventCauses_positionLimit {before after : State} (fault : after.position.fault = true)
    (was : before.position.fault = false) : (before.eventCauses after).anyStop = true := by
  have limit : (before.eventCauses after).positionLimit = true := by
    unfold State.eventCauses
    dsimp only
    split <;> split <;> simp [Causes.report, State.feeds, State.testTravel, State.testMarks, reported, fault, was]
  simp [Causes.anyStop, limit]

/-- Settles O34. -/
theorem forwardCountsAdvanceThePosition : Obligations.ForwardCountsAdvanceThePosition := by
  unfold Obligations.ForwardCountsAdvanceThePosition
  intro pair s tracks law watches lines ahead n passed
  obtain ⟨hp, hr, _⟩ := law
  have count : (s.setEncoder pair).decodePair pair =
      ((s.setEncoder pair).setPosition { s.position with reference := pair }).forwardCount := if_pos ahead
  obtain ⟨position, kept, digest⟩ := State.forwardCount_spec
    (s := (s.setEncoder pair).setPosition { s.position with reference := pair }) watches
  have web := countUp_spec (r := s.position.r) (Nat.zero_lt_of_lt hr) hp
  obtain ⟨u, d, frame⟩ := ((s.setEncoder pair).setPosition { s.position with reference := pair }).forwardCount_frame
  rw [← count] at position kept digest frame
  have next : exec (.quadratureChange pair.1 pair.2) s = .next (s.settle ((s.setEncoder pair).decodePair pair)) :=
    exec_quadratureChange tracks
  generalize (s.setEncoder pair).decodePair pair = after at *
  obtain ⟨hold', digest', settled⟩ := s.settle_frame after
  have stands : (s.settle after).position = after.position := by rw [settled]
  change after.position = { s.position with
    p := (countUp n s.position.p s.position.r).1
    r := (countUp n s.position.p s.position.r).2.1
    reference := pair
    direction := .forward
    line := .running
    stopTimer := some (s.now + s.settings.stopTimeout)
    fault := s.position.fault || (countUp n s.position.p s.position.r).2.2
    watches := after.position.watches
    arrivals := s.position.arrivals ++ allWatches.filterMap fun w =>
      handedOver (countUp n s.position.p s.position.r).1 w (s.watch w) } at position
  change after.digest = (State.raiseIf _ ((countUp n s.position.p s.position.r).2.2 && !s.position.fault)
    .positionLimit).digest at digest
  have p : after.position.p = (countUp n s.position.p s.position.r).1 := by rw [position]
  have r : after.position.r = (countUp n s.position.p s.position.r).2.1 := by rw [position]
  have fault : after.position.fault = (s.position.fault || (countUp n s.position.p s.position.r).2.2) := by rw [position]
  have hold : after.hold = s.hold := by rw [frame]; rfl
  have awake : after.inReset = s.inReset := by rw [frame]; rfl
  refine ⟨s.settle after, next, ?_, ?_, ?_, ?_, ?_, ?_⟩
  · rw [settled, frame]
    rfl
  · rw [stands, p, r, fault]
    split at web
    · obtain ⟨moves, below, free⟩ := web
      rw [if_pos ‹_›, free, Bool.or_false]
      exact ⟨moves, below, rfl⟩
    · obtain ⟨limit, zero, raised⟩ := web
      rw [if_neg ‹_›, raised, Bool.or_true]
      exact ⟨limit, zero, rfl⟩
  · rw [stands, p, r, fault]
    exact position
  · intro w
    rw [stands, p]
    exact (congrArg (fun x : PositionUnit => x.watches.get w) stands).trans (kept w)
  · intro present absent
    rw [stands] at present
    refine ⟨?_, fun outside => ?_⟩
    · have raised : after.digest.alerts[Alert.index .positionLimit].isSet = true := by
        have limit : (countUp n s.position.p s.position.r).2.2 = true := by
          rw [present, absent, Bool.false_or] at fault
          exact fault.symm
        rw [digest, State.raiseIf_isSet, limit, absent]
        simp
      exact settle_isSet raised
    · exact settle_stopLine (awake.trans outside) hold lines (eventCauses_positionLimit present absent)
  · intro same
    rw [stands] at same
    have quiet : s.settle after = after := by
      refine State.settle_untouched ?_ ?_ same ?_ ?_ hold <;> rw [frame] <;> rfl
    rw [quiet]
    have silent : ((countUp n s.position.p s.position.r).2.2 && !s.position.fault) = false :=
      (by decide : ∀ a b : Bool, a = (a || b) → (b && !a) = false) _ _ (same.symm.trans fault)
    refine ⟨hold, ?_⟩
    rw [digest, silent]
    rfl

/-! ## Resets that start again (O30) -/

theorem State.abandonSave_idle {s : State} (idle : s.store.save = none) : s.abandonSave = s := by
  unfold State.abandonSave
  rw [idle]

theorem State.abandonSave_inReset (s : State) : s.abandonSave.inReset = s.inReset := by
  unfold State.abandonSave
  split <;> rfl

theorem State.powerUp_eeprom {s : State} (idle : s.store.save = none) (kind : ResetKind) (reset : ResetActivity)
    (loading : Bool) : (s.abandonSave.powerUp kind reset loading).store.eeprom = s.store.eeprom := by
  rw [State.abandonSave_idle idle]
  rfl

theorem State.powerUp_blank (s : State) (kind : ResetKind) (reset : ResetActivity) (loading : Bool) :
    (s.powerUp kind reset loading).blank :=
  ⟨rfl, rfl, rfl, rfl, rfl, rfl, rfl, rfl, rfl, rfl⟩

/-- A request of the row RESET_PART is the taking and the end of a reset in one event (R180). -/
theorem exec_resetPart {s : State} (takes : s.takesRequests) :
    exec .resetPart s = .next (s.setPort (s.port.take ⟨0x44, []⟩)).takeReset.endReset :=
  congrArg Host.Outcome.next (State.carryOut_free (q := ⟨0x44, []⟩) rfl takes _)

/-- Settles O30. -/
theorem clearingResetsStartAgain : Obligations.ClearingResetsStartAgain := by
  unfold Obligations.ClearingResetsStartAgain
  refine ⟨fun s => ?_, fun s awake flag => ?_, fun s reset => ?_, fun s clears => ?_, fun s takes flag => ?_⟩
  · refine ⟨s.powerOn, rfl, ?_⟩
    unfold State.powerOn
    cases reset : s.inReset with
    | true =>
      exact ⟨State.powerUp_blank .., rfl, rfl, rfl, rfl, rfl, rfl, rfl, rfl, rfl, fun idle => State.powerUp_eeprom idle ..⟩
    | false =>
      exact ⟨State.powerUp_blank .., rfl, rfl, rfl, rfl, rfl, rfl, rfl, rfl, rfl, fun idle => State.powerUp_eeprom idle ..⟩
  · refine ⟨s.abandonSave.powerUp .warm .clearing false, ?_, State.powerUp_blank .., rfl, rfl, rfl, rfl, rfl, rfl, rfl, rfl,
      fun idle => State.powerUp_eeprom idle ..⟩
    show Host.Outcome.next (if s.inReset then s else s.takeReset) = _
    rw [awake, State.takeReset, flag]
    rfl
  · show Host.Outcome.next (if s.inReset then s else s.takeReset) = _
    rw [reset]
    rfl
  · show Host.Outcome.next s.endReset = _
    unfold State.endReset
    rw [clears]
    rfl
  · have taken : (s.setPort (s.port.take ⟨0x44, []⟩)).takeReset =
        (s.setPort (s.port.take ⟨0x44, []⟩)).abandonSave.powerUp .warm .clearing false := by
      unfold State.takeReset
      exact if_neg (by rw [State.setPort_store, flag]; decide)
    refine ⟨_, exec_resetPart takes, ?_⟩
    rw [taken]
    exact ⟨State.powerUp_blank .., rfl, rfl, rfl, rfl, rfl, rfl, rfl, rfl,
      fun idle => State.powerUp_eeprom (s := s.setPort (s.port.take ⟨0x44, []⟩)) idle .warm .clearing false⟩

/-! ## The settings load (O32) -/

theorem State.takeCauses_same {s : State} {c : Causes} (h : c = s.hold.causes) : s.takeCauses c = s := if_pos h

theorem lowTest_above {lower upper count : Nat} {was : Bool} (h : lower < count) (absent : was = false) :
    lowTest lower upper count was = false := by
  rw [lowTest, if_neg (Nat.not_le.mpr h), absent]
  split <;> rfl

theorem emptyTest_above {lower count : Nat} {was : Bool} (h : 2 ≤ count) (absent : was = false) :
    emptyTest lower count was = false := by
  rw [emptyTest, if_neg (Nat.not_lt.mpr h), absent]
  split <;> rfl

/-- Full counts are above every valid watermark, and no cause is present for them (R141, R142). -/
theorem applyMarks_initial {s : State} (hold : s.hold = .initial) (valid : s.settings.valid = true) :
    s.applyTravelMarks = s ∧ s.applyMarkMarks = s := by
  simp only [Settings.valid, travelMarksValid, markMarksValid, within, Bool.and_eq_true, decide_eq_true_eq] at valid
  have travel : s.settings.travelLower < 256 ∧ s.settings.travelUpper ≤ 256 := by omega
  have marks : s.settings.markLower < 2048 ∧ s.settings.markUpper ≤ 2048 := by omega
  refine ⟨State.takeCauses_same ?_, State.takeCauses_same ?_⟩
  · rw [hold]
    show State.testTravel s 256 .empty = .empty
    rw [State.testTravel, lowTest_above travel.1 (show Causes.empty.travelLow = false from rfl),
      emptyTest_above (by decide) (show Causes.empty.travelEmpty = false from rfl)]
    rfl
  · rw [hold]
    show State.testMarks s 2048 .empty = .empty
    rw [State.testMarks, lowTest_above marks.1 (show Causes.empty.marksLow = false from rfl)]
    rfl

theorem default_valid : Settings.default.valid = true := by decide

/-- The sweep watch armed on a part at rest at the start of its run (R128). -/
theorem armSweep_initial {s : State} {u : PositionUnit} (hu : s.position = { PositionUnit.initial with reference := u.reference })
    (valid : s.settings.valid = true) :
    (s.armSweep (s.position.p + s.settings.sweepInterval)) = s.setPosition { PositionUnit.initial with
      reference := u.reference
      watches := { WatchTable.initial with
        sweep := if s.settings.sweepInterval = 0 then none else some s.settings.sweepInterval } } := by
  have p : s.position.p = 0 := by rw [hu]; rfl
  have small : s.settings.sweepInterval ≤ 100000 := by
    simp only [Settings.valid, sweepIntervalValid, within, Bool.and_eq_true, Bool.or_eq_true, decide_eq_true_eq] at valid
    omega
  unfold State.armSweep
  rw [p, Nat.zero_add]
  by_cases off : s.settings.sweepInterval = 0
  · rw [if_pos (.inl off), if_pos off, State.disarm, State.setWatch, hu]
    rfl
  · rw [if_neg (by rintro (h | h); exacts [off h, absurd h (by simp only [maxPosition]; omega)]), if_neg off, State.arm, p,
      if_pos (Nat.pos_of_ne_zero off), State.setWatch, hu]
    rfl

/-- Settles O32. -/
theorem settingsLoadPutsTheImageInForce : Obligations.SettingsLoadPutsTheImageInForce := by
  unfold Obligations.SettingsLoadPutsTheImageInForce
  intro ack s loads awake blank image loaded
  obtain ⟨position, _, _, _, _, _, _, hold, settings, _⟩ := id blank
  have next : exec (.settingsLoadComplete ack) s = .next (s.completeLoad image) := congrArg Host.Outcome.next (if_pos loads)
  have put : image.getD s.settings = loaded := by rw [settings]
  have valid : loaded.valid = true := by
    rw [← put]
    exact loaded_settings (Q := fun x => x.valid = true) (fun _ => id) (settings ▸ default_valid)
  have raised : ∃ d, (s.putLoaded image).raiseIf image.isNone .settingsDefaulted = (s.putLoaded image).setDigest d ∧
      (image.isSome → d = s.digest) ∧ (image = none → d.changeTag = s.digest.changeTag + 1 ∧
        d.alerts[Alert.index .settingsDefaulted] =
          ⟨true, s.digest.changeTag + 1, (s.digest.alerts[Alert.index .settingsDefaulted]).masked⟩) := by
    cases image with
    | none => exact ⟨_, rfl, nofun, fun _ => ⟨rfl, ((s.putLoaded none).raise_alert _ _).trans (if_pos rfl)⟩⟩
    | some x => exact ⟨s.digest, rfl, fun _ => rfl, nofun⟩
  obtain ⟨d, defaulted, accepted, rejected⟩ := raised
  have first : ((s.putLoaded image).setDigest d).firstReference s.settings.nEnc =
      ((s.putLoaded image).setDigest d).setPosition { PositionUnit.initial with reference := s.encoder } := by
    unfold State.firstReference
    simp [State.putLoaded, position, PositionUnit.initial]
  have inForce : (((s.putLoaded image).setDigest d).setPosition
      { PositionUnit.initial with reference := s.encoder }).settings = loaded := put
  have armed := armSweep_initial (s := ((s.putLoaded image).setDigest d).setPosition
    { PositionUnit.initial with reference := s.encoder }) (u := { PositionUnit.initial with reference := s.encoder }) rfl
    (inForce ▸ valid)
  have marks := applyMarks_initial (s := ((s.putLoaded image).setDigest d).setPosition { PositionUnit.initial with
    reference := s.encoder
    watches := { WatchTable.initial with
      sweep := if loaded.sweepInterval = 0 then none else some loaded.sweepInterval } }) hold (put.symm ▸ valid)
  have done : s.completeLoad image = ((s.putLoaded image).setDigest d).setPosition { PositionUnit.initial with
      reference := s.encoder
      watches := { WatchTable.initial with
        sweep := if loaded.sweepInterval = 0 then none else some loaded.sweepInterval } } := by
    unfold State.completeLoad
    dsimp only
    rw [defaulted, first, armed, inForce]
    refine Eq.trans (congrArg s.announce ((congrArg State.applyMarkMarks marks.1).trans marks.2)) ?_
    unfold State.announce State.raiseIf
    exact if_neg (by simp [State.putLoaded])
  rw [done] at next
  refine ⟨_, next, ?_, accepted, rejected⟩
  rw [State.putLoaded, put]
  rfl

end Sys2Proof.Machine
end

section
/-! PROOF. Characters, transactions, alert requests and lane edits (O49, O51, O52, O54). -/

namespace Sys2Proof.Machine

/-! ## Characters (O49) -/

theorem exec_uartCharacter {s : State} (awake : s.inReset = false) (char : Byte) (err : Bool) :
    exec (.uartCharacter char err) s = .next (s.settle (s.takeCharacter char err)) := by
  show Host.Outcome.next (if s.inReset then s else s.settle (s.takeCharacter char err)) = _
  rw [awake]
  rfl

/-- A report refused raises REPORTS_REFUSED (R164). -/
theorem refuseReport_raises (s : State) (why : Refused) : (s.refuseReport why).digest.changeTag = s.digest.changeTag + 1 ∧
    ((s.refuseReport why).digest.alerts[Alert.index .reportsRefused]).isSet = true := by
  unfold State.refuseReport
  rw [State.raise_alert, if_pos rfl]
  exact ⟨rfl, rfl⟩

/-- Settles O49. -/
theorem charactersBuildAFrame : Obligations.CharactersBuildAFrame := by
  unfold Obligations.CharactersBuildAFrame
  intro char err s
  refine ⟨fun reset => ?_, fun awake hunt start => ?_, fun awake hunt other => ?_, fun awake receiving short => ?_,
    fun awake receiving => ?_⟩
  · show Host.Outcome.next (if s.inReset then s else _) = _
    rw [reset]
    rfl
  · have taken : s.takeCharacter char false =
        s.setLink { s.link with phase := .receiving, bytes := [], gap := some (s.now + 2) } := by
      unfold State.takeCharacter
      rw [hunt, start]
      rfl
    rw [exec_uartCharacter awake, taken]
    exact congrArg Host.Outcome.next (State.settle_untouched rfl rfl rfl rfl rfl rfl)
  · have taken : s.takeCharacter char err = s := by
      unfold State.takeCharacter
      rw [hunt]
      refine if_neg fun begins => ?_
      obtain ⟨start, clean⟩ := Bool.and_eq_true_iff.mp begins
      obtain h | h := other
      · exact h (of_decide_eq_true start)
      · rw [h] at clean
        cases clean
    rw [exec_uartCharacter awake, taken, State.settle_self]
  · have taken : s.takeCharacter char false =
        s.setLink { s.link with bytes := s.link.bytes ++ [char], gap := some (s.now + 2) } := by
      unfold State.takeCharacter
      rw [receiving]
      exact (if_neg (by decide)).trans (if_neg (by simp only [frameLength]; omega))
    rw [exec_uartCharacter awake, taken]
    exact congrArg Host.Outcome.next (State.settle_untouched rfl rfl rfl rfl rfl rfl)
  · have taken : s.takeCharacter char true = (s.setLink s.link.hunting).refuseReport .badFrame := by
      unfold State.takeCharacter
      rw [receiving]
      rfl
    refine ⟨(s.setLink s.link.hunting).refuseReport .badFrame, ?_, rfl, refuseReport_raises _ _⟩
    rw [exec_uartCharacter awake, taken]
    exact congrArg Host.Outcome.next (State.settle_untouched rfl rfl rfl rfl rfl rfl)

/-! ## Transactions (O51) -/

theorem transactionCommands_cons (first : Byte) (rest : List Byte) : transactionCommands (first :: rest) =
    if first = 0xA6 then [.requestTransaction rest]
    else if first = 0xA7 then [.answerStart, .answerEnd rest.length]
    else [.ignoredTransaction] := by
  unfold transactionCommands transactionKind
  dsimp only [List.head?_cons]
  split_ifs <;> rfl

/-- What an answer transaction shifts out behind its first byte (R157). -/
theorem shiftedOut_answer {p : Port} {shown : Shown} {frame : List Byte} (h : p.transaction = .answer shown frame) (place : Nat) :
    (place < frame.length → frame[place]? = some (p.shiftedOut (place + 1))) ∧
      (frame.length ≤ place → p.shiftedOut (place + 1) = 0) := by
  have out : p.shiftedOut (place + 1) = frame.getD place 0 := by
    show p.transaction.frame.getD place 0x00 = _
    rw [h]
    rfl
  rw [out]
  refine ⟨fun short => ?_, fun long => ?_⟩
  · simp [short]
  · rw [List.getD_eq_getElem?_getD, List.getElem?_eq_none long]
    rfl

theorem exec_requestTransaction {s : State} (awake : s.inReset = false) (frame : List Byte) :
    exec (.requestTransaction frame) s = .next ((s.setPort (s.port.start .request)).endRequest frame) := by
  show Host.Outcome.next (if s.inReset then s else (s.startTransaction .request).endRequest frame) = _
  rw [State.startTransaction, awake]
  rfl

/-- The frame that an answer transaction composes (R157). -/
theorem composed_spec (p : Port) :
    (∀ code, p.notice = some code → p.composed = (.notice, answerFrame .busy 2 code [])) ∧
      (p.notice = none → p.buffer = .empty → p.composed = (.empty, answerFrame .none 0 0 [])) ∧
      (p.notice = none → p.buffer = .working → ∀ q, p.inWork = some q →
        p.composed = (.working, answerFrame .working 0 q.code [])) ∧
      (p.notice = none → ∀ a, p.buffer = .ready a →
        p.composed = (.answer, answerFrame a.code (if a.lost then 1 else 0) a.request a.payload)) := by
  unfold Port.composed
  refine ⟨fun code h => ?_, fun h e => ?_, fun h e q hq => ?_, fun h a e => ?_⟩
  · rw [h]
    rfl
  · rw [h, e]
    rfl
  · rw [h, e, hq]
    rfl
  · rw [h, e]
    cases lost : a.lost <;> simp [lost] <;> rfl

/-- Settles O51. -/
theorem transactionsAreTakenAsTheBufferStands : Obligations.TransactionsAreTakenAsTheBufferStands := by
  unfold Obligations.TransactionsAreTakenAsTheBufferStands
  intro frame s
  refine ⟨⟨rfl, fun first => transactionCommands_cons first frame⟩,
    ⟨rfl, Port.shiftedOut_request s.port, fun _ _ h => shiftedOut_answer h⟩, rfl, fun reset => ⟨?_, ?_⟩,
    fun awake loads => ?_, fun awake loaded busy => ?_, fun takes invalid => ?_, fun takes valid spells => ?_,
    fun awake => ?_, fun clocked idle => ?_, fun shown f clocked answer => ⟨fun short => ?_, fun whole => ?_⟩⟩
  · show Host.Outcome.next (if s.inReset then s else _) = _
    rw [reset]
    rfl
  · show Host.Outcome.next (s.startTransaction .answer) = _
    rw [State.startTransaction, reset]
    rfl
  · rw [exec_requestTransaction awake]
    exact congrArg Host.Outcome.next (if_pos loads)
  · rw [exec_requestTransaction awake]
    exact congrArg Host.Outcome.next ((if_neg (by rw [State.setPort_store, loaded]; decide)).trans (if_pos busy))
  · obtain ⟨awake, loaded, idle⟩ := takes
    rw [exec_requestTransaction awake]
    exact congrArg Host.Outcome.next ((if_neg (by rw [State.setPort_store, loaded]; decide)).trans
      ((if_neg idle).trans (if_neg (by rw [invalid]; decide))))
  · obtain ⟨awake, loaded, idle⟩ := takes
    rw [exec_requestTransaction awake]
    have taken : (s.setPort (s.port.start .request)).endRequest frame =
        (s.setPort (s.port.start .request)).takeRequest ⟨frameCode frame, framePayload frame⟩ :=
      (if_neg (by rw [State.setPort_store, loaded]; decide)).trans ((if_neg idle).trans (if_pos valid))
    rw [taken, State.takeRequest]
    dsimp only
    rw [spells]
    rfl
  · refine ⟨s.port.composed.1, s.port.composed.2, ?_, ?_⟩
    · show Host.Outcome.next (s.startTransaction .answer) = _
      rw [State.startTransaction, awake]
      rfl
    · obtain ⟨notice, empty, working, ready⟩ := composed_spec s.port
      exact ⟨fun code h => Prod.ext_iff.mp (notice code h), fun h e => Prod.ext_iff.mp (empty h e),
        fun h e q hq => Prod.ext_iff.mp (working h e q hq), fun h a e => Prod.ext_iff.mp (ready h a e)⟩
  · have ended : s.port.endAnswer clocked = s.port := by
      unfold Port.endAnswer
      rw [idle]
    show Host.Outcome.next (s.setPort (s.port.endAnswer clocked)) = _
    rw [ended]
    rfl
  · have ended : s.port.endAnswer clocked = { s.port with transaction := .none } := by
      unfold Port.endAnswer
      rw [answer]
      dsimp only
      rw [if_neg (Nat.not_le.mpr short)]
    show Host.Outcome.next (s.setPort (s.port.endAnswer clocked)) = _
    rw [ended]
    rfl
  · have ended : s.port.endAnswer clocked = { s.port.consume shown with transaction := .none } := by
      unfold Port.endAnswer
      rw [answer]
      dsimp only
      rw [if_pos whole]
    show Host.Outcome.next (s.setPort (s.port.endAnswer clocked)) = _
    rw [ended]
    cases shown <;> rfl

/-! ## Alert requests (O52) -/

/-- What ATTN shows after a request on the alerts, outside a reset (R168). -/
theorem updateDigest_follows {s : State} (awake : s.inReset = false) (d : DigestUnit) :
    (s.updateDigest d).digest.attn = true ↔
      (∃ c ∈ (s.updateDigest d).digest.alerts.toList, c.isSet = true ∧ c.masked = false) ∧
        (s.updateDigest d).digest.changeTag ≠ (s.updateDigest d).digest.ackedTag := by
  show (!s.inReset && d.calls) = true ↔ (∃ c ∈ d.alerts.toList, c.isSet = true ∧ c.masked = false) ∧ d.changeTag ≠ d.ackedTag
  rw [awake]
  simp only [Bool.not_false, Bool.true_and, DigestUnit.calls, Bool.and_eq_true, decide_eq_true_eq, List.any_eq_true,
    Bool.not_eq_true']

/-- A request on the alerts carried out (R166, R169 to R171). -/
theorem digest_reply {i : Instr} {q : Request} {s : State} (hq : encodeRequest i = some q) (takes : s.takesRequests)
    {act : State → Reply} {d : DigestUnit} {payload : List Byte}
    (ha : act (s.setPort (s.port.take q)) = Reply.ok ((s.setPort (s.port.take q)).updateDigest d) payload) :
    s.carryOut i act = { s with port := s.port.answered q.code .ok payload, digest := (s.updateDigest d).digest } := by
  rw [State.carryOut_free hq takes, ha]
  rfl

theorem clear_alert (d : DigestUnit) (tag : Word16) (alerts : BitVec 24) (i : Fin 20) : (d.clear tag alerts).alerts[i] =
    if alerts.getLsbD i = true ∧ ¬ (1 ≤ ((d.alerts[i]).tag - tag).toNat ∧ ((d.alerts[i]).tag - tag).toNat ≤ 32767)
      then { d.alerts[i] with isSet := false } else d.alerts[i] := by
  simp only [DigestUnit.clear, Fin.getElem_fin, Vector.getElem_ofFn, newerTag]
  refine ite_congr (propext ?_) (fun _ => rfl) fun _ => rfl
  rw [Bool.and_eq_true, Bool.not_eq_true', Bool.and_eq_false_iff]
  simp only [decide_eq_false_iff_not]
  tauto

/-- Settles O52. -/
theorem alertRequestsAct : Obligations.AlertRequestsAct := by
  unfold Obligations.AlertRequestsAct
  intro tag alerts s takes follows
  have attn := fun d => updateDigest_follows takes.1 d
  refine ⟨⟨_, congrArg Host.Outcome.next (digest_reply (q := ⟨0x02, bytes16 tag⟩) rfl takes rfl),
      attn { s.digest with ackedTag := tag }, rfl⟩,
    fun valid => ?_, fun valid => ?_⟩
  · have listed : alertSetValid alerts = true := decide_eq_true valid
    have done : exec (.clearAlerts tag alerts) s = .next { s with
        port := s.port.answered 0x03 .ok (beBytes 3 (s.updateDigest (s.digest.clear tag alerts)).digest.setBits)
        digest := (s.updateDigest (s.digest.clear tag alerts)).digest } :=
      congrArg Host.Outcome.next (digest_reply (q := ⟨0x03, _⟩) rfl takes (if_pos listed))
    refine ⟨(s.updateDigest (s.digest.clear tag alerts)).digest, ?_, attn (s.digest.clear tag alerts), ?_, ?_,
      clear_alert s.digest tag alerts⟩
    · exact done
    · simp only [State.updateDigest, State.setDigest_digest, DigestUnit.clear]
    · simp only [State.updateDigest, State.setDigest_digest, DigestUnit.clear]
  · have listed : alertSetValid alerts = true := decide_eq_true valid
    have done : exec (.setAlertMask alerts) s = .next { s with
        port := s.port.answered 0x04 .ok [], digest := (s.updateDigest (s.digest.mask alerts)).digest } :=
      congrArg Host.Outcome.next (digest_reply (q := ⟨0x04, _⟩) rfl takes (if_pos listed))
    refine ⟨(s.updateDigest (s.digest.mask alerts)).digest, done, attn (s.digest.mask alerts), ?_, ?_, fun i => ?_⟩
    · simp only [State.updateDigest, State.setDigest_digest, DigestUnit.mask]
    · simp only [State.updateDigest, State.setDigest_digest, DigestUnit.mask]
    · show (s.digest.mask alerts).alerts[i] = _
      simp [DigestUnit.mask]

/-! ## Lane edits (O54) -/

theorem laneOf_number {n : Lane} {b : Byte} (h : b.toNat = n.val + 1) : laneOf b.toNat = some n := by
  have := n.isLt
  rw [laneOf, dif_pos (by omega)]
  exact congrArg some (Fin.ext (by simp [h]))

theorem shaftOf_code (sh : Shaft) : shaftOf (shaftCode sh) = some sh := by cases sh <;> rfl

theorem overlapsOther_iff {s : State} {n : Lane} {edge width : Nat} : s.overlapsOther n edge width = true ↔
    ∃ m, m ≠ n ∧ (s.lane m).enabled = true ∧
      max edge (s.lane m).edge < min (edge + width) ((s.lane m).edge + (s.lane m).width) := by
  simp [State.overlapsOther, rangesMeet, allLanes, List.any_eq_true, and_assoc]

/-- What the lanes feed, by the lanes that carry UNTRACKED. -/
theorem State.feedsUntracked_iff {s : State} :
    s.feedsUntracked = true ↔ ∃ n, (s.lane n).enabled = true ∧ (s.lane n).untracked = true := by
  simp only [State.feedsUntracked, List.any_eq_true, mem_lanes, exists_exists_eq_and, Bool.and_eq_true]

theorem State.feedsUntracked_congr {s t : State}
    (h : ∀ n, ((t.lane n).enabled = true ∧ (t.lane n).untracked = true) ↔ ((s.lane n).enabled = true ∧ (s.lane n).untracked = true)) :
    t.feedsUntracked = s.feedsUntracked :=
  Bool.eq_iff_iff.mpr (State.feedsUntracked_iff.trans ((exists_congr h).trans State.feedsUntracked_iff.symm))

theorem State.feeds_eq {s t : State} (untracked : t.feedsUntracked = s.feedsUntracked) (shafts : t.shafts = s.shafts)
    (fault : t.position.fault = s.position.fault) : t.feeds .empty = s.feeds .empty := by
  simp only [State.feeds, untracked, shafts, fault]

/-- A request that writes the map and brings or ends no UNTRACKED, carried out and settled. -/
theorem settled_map {i : Instr} {q : Request} {s : State} (hq : encodeRequest i = some q) (takes : s.takesRequests)
    {act : State → Reply} {m : KnifeMap} {c : AnswerCode}
    (ha : act (s.setPort (s.port.take q)) = Reply.code ((s.setMap m).setPort (s.port.take q)) c)
    (feeds : ∀ n, (((s.setMap m).lane n).enabled = true ∧ ((s.setMap m).lane n).untracked = true) ↔
      ((s.lane n).enabled = true ∧ (s.lane n).untracked = true)) :
    Host.Outcome.next (φ := Fault) (ρ := Refusal) (s.settle (s.carryOut i act)) =
      .next { s with port := s.port.answered q.code c [], map := m } := by
  rw [State.carryOut_free hq takes, ha, Reply.finish_code]
  exact congrArg Host.Outcome.next (State.settle_same (State.feeds_eq (State.feedsUntracked_congr feeds) rfl rfl) rfl rfl rfl)

/-- One lane record written that keeps the lane's part in UNTRACKED. -/
theorem settled_lane {i : Instr} {q : Request} {s : State} (hq : encodeRequest i = some q) (takes : s.takesRequests)
    {act : State → Reply} {n : Lane} {x : LaneRec} {order : List Lane}
    (ha : act (s.setPort (s.port.take q)) =
      Reply.code ((s.setMap { s.map with lanes := s.map.lanes.set n x, order := order }).setPort (s.port.take q)) .ok)
    (enabled : x.enabled = (s.lane n).enabled) (untracked : x.untracked = (s.lane n).untracked) :
    Host.Outcome.next (φ := Fault) (ρ := Refusal) (s.settle (s.carryOut i act)) =
      .next { s with port := s.port.answered q.code .ok [],
                     map := { s.map with lanes := s.map.lanes.set n x, order := order } } := by
  refine settled_map hq takes ha fun m => ?_
  rw [show (s.setMap { s.map with lanes := s.map.lanes.set n x, order := order }).lane m =
    if m = n then x else s.lane m from State.setLane_lane s n m x]
  split
  · next e => rw [e, enabled, untracked]
  · exact Iff.rfl

/-- The refusals of GEOMETRY in their order, and the edit (R27). -/
theorem State.editGeometry_spec (s : State) (n : Lane) (e w : Nat) :
    let fits := e ≤ 39900 ∧ 100 ≤ w ∧ w ≤ 40000 ∧ e + w ≤ s.settings.webWidth
    let meets := (s.lane n).enabled = true ∧ ∃ m, m ≠ n ∧ (s.lane m).enabled = true ∧
      max e (s.lane m).edge < min (e + w) ((s.lane m).edge + (s.lane m).width)
    (¬ fits → s.editGeometry e w n = Reply.code s .range) ∧
    (fits → s.position.line = .running → s.editGeometry e w n = Reply.code s .lineMoving) ∧
    (fits → s.position.line = .stopped → (s.lane n).current.isSome → s.editGeometry e w n = Reply.code s .laneActive) ∧
    (fits → s.position.line = .stopped → (s.lane n).current = none → meets →
      s.editGeometry e w n = Reply.code s .overlap) ∧
    (fits → s.position.line = .stopped → (s.lane n).current = none → ¬ meets →
      s.editGeometry e w n = Reply.code (s.placeGeometry n e w) .ok) := by
  intro fits meets
  have range : (39900 < e ∨ w < 100 ∨ 40000 < w ∨ s.settings.webWidth < e + w) ↔ ¬ fits := by
    simp only [fits]
    omega
  have overlap : ((s.lane n).enabled && s.overlapsOther n e w) = true ↔ meets := by
    rw [Bool.and_eq_true, overlapsOther_iff]
  unfold State.editGeometry
  simp only [range, overlap]
  refine ⟨fun h => if_pos h, fun h moves => ?_, fun h still active => ?_, fun h still idle meet => ?_,
    fun h still idle apart => ?_⟩
  · simp [h, moves]
  · simp [h, still, active]
  · simp [h, still, idle, meet]
  · simp [h, still, idle, apart]

theorem placeLane_setPort (s : State) (p : Port) (n : Lane) (edge : Nat) (l : List Lane) :
    (s.setPort p).placeLane n edge l = s.placeLane n edge l := by
  induction l with
  | nil => rfl
  | cons m l ih =>
    rw [State.placeLane, State.placeLane, ih]
    rfl

theorem moveLane_setPort (s : State) (p : Port) (n : Lane) (edge : Nat) : (s.setPort p).moveLane n edge = s.moveLane n edge :=
  placeLane_setPort ..

theorem editReference_disabled {s : State} {n : Lane} (h : (s.lane n).enabled = false) :
    s.editReference true n = Reply.code s .state := by
  simp [State.editReference, h]

theorem editReference_enabled {s : State} {n : Lane} (h : (s.lane n).enabled = true) :
    s.editReference true n = Reply.code (s.setReference n) .ok := by
  simp [State.editReference, h]

theorem State.setReference_lane (s : State) (n m : Lane) : (s.setReference n).lane m =
    if m = n then { s.lane n with reference := true }
    else if (s.lane m).shaft = (s.lane n).shaft then { s.lane m with reference := false } else s.lane m := by
  rw [State.setReference, State.setLane_lane, State.mapLanes_lane]

theorem State.setReference_setPort (s : State) (p : Port) (n : Lane) :
    (s.setPort p).setReference n = (s.setReference n).setPort p := by
  have mapped (f : LaneRec → LaneRec) : (s.setPort p).mapLanes f = (s.mapLanes f).setPort p := rfl
  have written (u : State) (k : LaneRec) : (u.setPort p).setLane n k = (u.setLane n k).setPort p := rfl
  unfold State.setReference
  rw [show (s.setPort p).lane n = s.lane n from rfl, mapped, written]

theorem State.setReference_lanes (s : State) (n : Lane) :
    (s.setReference n).map = { s.map with lanes := (s.setReference n).map.lanes } := by
  have whole {m k : KnifeMap} (order : k.order = m.order) (trim : k.trim = m.trim) : k = { m with lanes := k.lanes } := by
    rw [← order, ← trim]
  refine whole ?_ ?_ <;> unfold State.setReference <;> simp

theorem State.written_lanes (s : State) (p : Port) {m : KnifeMap} (lanes : m = { s.map with lanes := m.lanes }) :
    let t := { s with port := p, map := m }
    t = { s with port := p, map := { s.map with lanes := t.map.lanes } } :=
  congrArg (fun m => { s with port := p, map := m }) lanes

theorem State.lane_of_map {s t : State} (h : t.map = s.map) (m : Lane) : t.lane m = s.lane m := by
  unfold State.lane
  rw [h]

theorem onLane_number {n : Lane} {lane : Byte} (h : lane.toNat = n.val + 1) (s : State) (edit : Lane → Reply) :
    s.onLane lane.toNat edit = edit n := by
  rw [State.onLane, laneOf_number h]

/-- Settles O54. -/
theorem laneEditsFollowTheirRules : Obligations.LaneEditsFollowTheirRules := by
  unfold Obligations.LaneEditsFollowTheirRules
  refine ⟨fun s takes => ?_, fun n lane s number takes => ?_⟩
  · exact settled_map (q := laneEdit 0 6 0 0) (m := { s.map with trim := 0 }) rfl takes rfl fun _ => Iff.rfl
  intro l answers writes
  have on := onLane_number number
  refine ⟨fun edge width => ?_, fun c sh code => ⟨fun idle => ?_, fun busy => ?_⟩, fun enabled => ?_, fun disabled => ?_, ?_, ?_⟩
  · intro i e w fits meets
    obtain ⟨range, moving, active, overlap, placed⟩ :=
      (s.setPort (s.port.take (laneEdit lane 1 edge width))).editGeometry_spec n e w
    refine ⟨fun h => ?_, fun h a => ?_, fun h a b => ?_, fun h a b c => ?_, fun h a b c => ?_⟩
    · exact settled_answer (q := laneEdit lane 1 edge width) rfl takes ((on _ _).trans (range h))
    · exact settled_answer (q := laneEdit lane 1 edge width) rfl takes ((on _ _).trans (moving h a))
    · exact settled_answer (q := laneEdit lane 1 edge width) rfl takes ((on _ _).trans (active h a b))
    · exact settled_answer (q := laneEdit lane 1 edge width) rfl takes ((on _ _).trans (overlap h a b c))
    · refine settled_lane (q := laneEdit lane 1 edge width) (order := s.moveLane n e)
        (x := { l with edge := e, width := w }) rfl takes ((on _ _).trans ((placed h a b c).trans ?_)) rfl rfl
      rw [State.placeGeometry, moveLane_setPort]
      rfl
  · have named : shaftOf c.toNat = some sh := by rw [code, shaftOf_code]
    refine settled_lane (q := laneEdit lane 2 c 0) (order := s.map.order) (x := { l with shaft := sh, reference := false })
      rfl takes ?_ rfl rfl
    simp only [named]
    exact (on _ _).trans (if_pos idle)
  · have named : shaftOf c.toNat = some sh := by rw [code, shaftOf_code]
    refine settled_answer (q := laneEdit lane 2 c 0) rfl takes ?_
    simp only [named]
    exact (on _ _).trans (if_neg busy)
  · have kept (m : Lane) : ((s.setReference n).lane m).enabled = (s.lane m).enabled ∧
        ((s.setReference n).lane m).untracked = (s.lane m).untracked := by
      rw [State.setReference_lane]
      split
      · next e => rw [e]; exact ⟨rfl, rfl⟩
      · split <;> exact ⟨rfl, rfl⟩
    refine ⟨_, settled_map (q := laneEdit lane 5 1 0) (m := (s.setReference n).map) (c := .ok) rfl takes
      ((on _ _).trans ((editReference_enabled (s := s.setPort (s.port.take (laneEdit lane 5 1 0))) enabled).trans ?_))
      fun m => ?_, ?_, fun m => ?_⟩
    · rw [← State.setReference_map, ← State.setReference_setPort]
    · rw [← State.setReference_map, (kept m).1, (kept m).2]
    · exact s.written_lanes (m := (s.setReference n).map) _ (s.setReference_lanes n)
    · exact (State.lane_of_map (s := s.setReference n) (by rfl) m).trans (s.setReference_lane n m)
  · exact settled_answer (q := laneEdit lane 5 1 0) rfl takes ((on _ _).trans (editReference_disabled disabled))
  · exact settled_lane (q := laneEdit lane 5 0 0) (order := s.map.order) (x := { l with reference := false }) rfl takes
      (on _ _) rfl rfl
  · have other : lane.toNat ≠ 0 := by omega
    exact settled_lane (q := laneEdit lane 6 0 0) (order := s.map.order) (x := { l with tally := 0 }) rfl takes
      ((if_neg other).trans (on _ _)) rfl rfl

end Sys2Proof.Machine
end

section
/-! PROOF. Queries, and the search of the reel that covers a position (O53). -/

namespace Sys2Proof.Machine

/-! ## Footage -/

/-- A live footage read, flag by flag (R43, R48). -/
theorem Reel.liveRead_eq (r : Reel) (p : Nat) :
    let long := r.start ≤ p ∧ 4294967295 < ((p - r.start) * r.rho + 500000) / 1000000
    r.liveRead p = { r with
      flags := { r.flags with
        limited := r.flags.limited || decide long
        reversed := r.flags.reversed || decide (p < r.start) }
      revision := r.revision + (if (long ∧ r.flags.limited = false) ∨ (p < r.start ∧ r.flags.reversed = false)
        then 1 else 0) } := by
  intro long
  have flags : r.footageFlags p = { r.flags with
      limited := r.flags.limited || decide long
      reversed := r.flags.reversed || decide (p < r.start) } := by
    unfold Reel.footageFlags
    by_cases below : r.start ≤ p
    · have up : ¬ p < r.start := Nat.not_lt.mpr below
      rw [if_pos below]
      simp only [long, up, below, true_and, decide_false, Bool.or_false]
      rfl
    · have up : p < r.start := Nat.not_le.mp below
      rw [if_neg below]
      simp only [long, up, below, false_and, decide_false, Bool.or_false, decide_true, Bool.or_true]
  have moves : { r.flags with
      limited := r.flags.limited || decide long, reversed := r.flags.reversed || decide (p < r.start) } = r.flags ↔
      ¬ ((long ∧ r.flags.limited = false) ∨ (p < r.start ∧ r.flags.reversed = false)) := by
    rw [show ({ r.flags with limited := r.flags.limited || decide long, reversed := r.flags.reversed || decide (p < r.start) }
      : ReelFlags) = r.flags ↔ (r.flags.limited || decide long) = r.flags.limited ∧
        (r.flags.reversed || decide (p < r.start)) = r.flags.reversed from
      ⟨fun e => ⟨congrArg ReelFlags.limited e, congrArg ReelFlags.reversed e⟩, fun e => by rw [e.1, e.2]⟩]
    cases r.flags.limited <;> cases r.flags.reversed <;> simp
  rw [Reel.liveRead, Reel.withFlags, flags]
  by_cases still : { r.flags with
      limited := r.flags.limited || decide long, reversed := r.flags.reversed || decide (p < r.start) } = r.flags
  · rw [if_pos still, if_neg (moves.mp still), still]
    simp
  · rw [if_neg still, if_pos (not_not.mp (mt moves.mpr still))]
    rfl

/-! ## The covering reel -/

/-- The record covers the position, as R51 says it. -/
theorem Reel.covers_iff {r : Reel} {n : Lane} {sh : Shaft} {x : Nat} : r.covers n sh x = true ↔
    r.flags.previousRun = false ∧ r.lane = n ∧ r.shaft = sh ∧ r.start ≤ x ∧ (r.state = .winding ∨ ∃ e ∈ r.stopAt, x < e) := by
  simp only [Reel.covers, Bool.and_eq_true, Bool.not_eq_true', decide_eq_true_eq, Bool.or_eq_true, Option.any_eq_true,
    and_assoc, Option.mem_def]

/-- Where the ranges of the reels do not meet, one reel at most covers a position. -/
theorem TrackingLaw.covers_unique {s : State} (law : TrackingLaw s) {g h : Handle} {q r : Reel} (hq : q ∈ s.reel g)
    (hr : r ∈ s.reel h) {n : Lane} {sh : Shaft} {x : Nat} (cq : q.covers n sh x = true) (cr : r.covers n sh x = true) :
    g = h := by
  obtain ⟨_, wound, apart⟩ := law
  obtain ⟨runQ, laneQ, shaftQ, startQ, endQ⟩ := Reel.covers_iff.mp cq
  obtain ⟨runR, laneR, shaftR, startR, endR⟩ := Reel.covers_iff.mp cr
  have beyond {k : Handle} {u : Reel} (hu : u ∈ s.reel k) (ends : u.state = .winding ∨ ∃ e ∈ u.stopAt, x < e) :
      ∀ e ∈ u.stopAt, x < e := by
    intro e he
    obtain winds | ⟨e', he', lt⟩ := ends
    · rw [(wound k u hu).2.1.mpr winds] at he
      cases he
    · exact Option.some.inj (he'.symm.trans he) ▸ lt
  by_contra ne
  obtain ⟨e, he, le⟩ | ⟨e, he, le⟩ := apart g h ne q hq r hr (laneQ.trans laneR.symm) (shaftQ.trans shaftR.symm) runQ runR
  · exact absurd (beyond hq endQ e he) (by omega)
  · exact absurd (beyond hr endR e he) (by omega)

/-! ## Queries (O53) -/

/-- A query answered with a payload. -/
theorem query_answer {i : Instr} {q : Request} {s : State} (hq : encodeRequest i = some q) (takes : s.takesRequests)
    {act : State → Reply} {payload : List Byte}
    (ha : act (s.setPort (s.port.take q)) = Reply.ok (s.setPort (s.port.take q)) payload) :
    Host.Outcome.next (φ := Fault) (ρ := Refusal) (s.carryOut i act) =
      .next { s with port := s.port.answered q.code .ok payload } := by
  rw [State.carryOut_answer hq takes (c := .ok) (payload := payload) ha]
  rfl

theorem shaftOf_shaftByte (sh : Shaft) : shaftOf (shaftByte sh).toNat = some sh := by cases sh <;> rfl

theorem handleOf_byteOf (h : Handle) : handleOf (byteOf h.val).toNat = some h := by
  have := h.isLt
  have e : (byteOf h.val).toNat = h.val := by simp [byteOf]; omega
  rw [e, handleOf, dif_pos h.isLt]

theorem State.coveringReel_setPort (s : State) (p : Port) (n : Lane) (sh : Shaft) (x : Nat) :
    (s.setPort p).coveringReel n sh x = s.coveringReel n sh x := rfl

theorem selectionOf_state (st : ReelState) : selectionOf (reelStateByte st).toNat = some (some st) := by
  cases st <;> rfl

theorem State.named_eq {s : State} {id : Nat} {h : Handle} {r : Reel} (found : s.reelById id = some h)
    (there : s.reel h = some r) : s.named id = some (h, r) := by
  rw [State.named, found, Option.bind_some, there]
  rfl

/-- Settles O53: each query leaves its state as it is, but for the live reading of a WINDING reel. -/
theorem queriesOnlyAnswer : Obligations.QueriesOnlyAnswer := by
  unfold Obligations.QueriesOnlyAnswer
  refine ⟨fun r p => ⟨rfl, r.liveRead_eq p⟩, fun s n sh x => ?_, fun s takes => ?_⟩
  · intro covers
    have test (r : Reel) : r.covers n sh x = true ↔ covers r := Reel.covers_iff
    refine ⟨fun h found => ?_, ?_, fun law h r there c => ?_⟩
    · obtain ⟨r, there, c⟩ := State.find_reel found
      exact ⟨r, there, (test r).mp c⟩
    · refine State.find_reel_none.trans (forall_congr' fun h => forall_congr' fun r => imp_congr_right fun _ => ?_)
      rw [← test r, Bool.not_eq_true]
    · cases found : s.coveringReel n sh x with
      | none => exact absurd ((test r).mpr c) (by simp [State.find_reel_none.mp found h r there])
      | some g =>
        obtain ⟨q, hq, cq⟩ := State.find_reel found
        rw [law.covers_unique hq there cq ((test r).mpr c)]
  intro answers
  refine ⟨?_, ?_, ?_, fun n lane number => ⟨?_, fun sh x => ⟨fun uncovered => ?_, fun h r covered there => ?_⟩⟩,
    fun sh => ?_, fun h => ⟨?_, fun st => ?_⟩, fun id h r found there => ?_⟩
  · exact query_answer (q := ⟨0x01, []⟩) rfl takes rfl
  · exact query_answer (q := ⟨0x16, []⟩) rfl takes rfl
  · exact query_answer (q := ⟨0x15, [0]⟩) rfl takes rfl
  · refine query_answer (q := ⟨0x15, [lane]⟩) rfl takes ?_
    have other : lane.toNat ≠ 0 := by omega
    exact (if_neg other).trans (by rw [laneOf_number number]; rfl)
  · refine unsettled_answer (q := ⟨0x11, [lane, shaftByte sh] ++ bytes32 x⟩) rfl takes ?_
    simp only [State.findReel, laneOf_number number, shaftOf_shaftByte, State.foundAt]
    rw [State.coveringReel_setPort, uncovered]
    rfl
  · refine query_answer (q := ⟨0x11, [lane, shaftByte sh] ++ bytes32 x⟩) rfl takes ?_
    simp only [State.findReel, laneOf_number number, shaftOf_shaftByte, State.foundAt]
    rw [State.coveringReel_setPort, covered, Option.bind_some,
      State.setPort_reel, there]
    rfl
  · refine query_answer (q := ⟨0x14, [shaftByte sh]⟩) rfl takes ?_
    simp only [State.queryShaft, shaftOf_shaftByte]
    rfl
  · refine query_answer (q := ⟨0x12, [0, byteOf h.val]⟩) rfl takes ?_
    simp only [State.listReels, handleOf_byteOf]
    rfl
  · refine query_answer (q := ⟨0x12, [reelStateByte st, byteOf h.val]⟩) rfl takes ?_
    simp only [State.listReels, handleOf_byteOf, selectionOf_state]
    rfl
  · have named (p : Port) : (s.setPort p).named id.toNat = some (h, r) := State.named_eq found there
    refine ⟨fun page small => ?_, fun rests => ?_, fun winds => ?_⟩
    · refine query_answer (q := ⟨0x13, bytes32 id ++ [page]⟩) rfl takes ?_
      simp only [State.readMarks, named, if_neg (Nat.not_lt.mpr small)]
    · refine query_answer (q := ⟨0x10, bytes32 id⟩) rfl takes ?_
      simp only [State.queryReel, named, State.readHeader, if_neg rests]
    · show Host.Outcome.next (s.carryOut _ _) = _
      rw [State.carryOut_free (q := ⟨0x10, bytes32 id⟩) rfl takes]
      simp only [State.queryReel, named, State.readHeader, if_pos winds]
      rfl

end Sys2Proof.Machine
end

section
/-! PROOF. Jobs, plans, grade tables and parents (O56). -/

namespace Sys2Proof.Machine

/-! ## Operands in range -/

theorem validShaftJob_good {j : ShaftJobFields} (h : badShaftJob j = false) :
    validShaftJob j = some ⟨j.approach.toNat, j.window.toNat, j.overrun.toNat, decide (j.auto = 1)⟩ := by
  simp only [badShaftJob, Bool.or_eq_false_iff, Bool.not_eq_false'] at h
  obtain ⟨⟨⟨approach, window⟩, overrun⟩, auto⟩ := h
  have listed : switchOf j.auto.toNat = some (decide (j.auto = 1)) := by
    simp only [outside, Bool.or_eq_false_iff, decide_eq_false_iff_not] at auto
    obtain zero | one : j.auto.toNat = 0 ∨ j.auto.toNat = 1 := by omega
    · rw [zero, show j.auto = 0 from BitVec.eq_of_toNat_eq zero]; rfl
    · rw [one, show j.auto = 1 from BitVec.eq_of_toNat_eq one]; rfl
  rw [validShaftJob, shaftJobOf, listed, Option.map_some, Option.filter_some, if_pos]
  simp only [ShaftJob.valid, within_eq_not_outside, approach, Bool.not_false, Bool.true_and, Bool.and_eq_true]
  refine ⟨?_, ?_⟩
  · simpa [windowValid, or_assoc] using window
  · simpa [outside] using overrun

theorem stepOf_good {f : StepFields} {g : Fin 8} (h : badStep f = false) (table : f.table.toNat = g.val) :
    stepOf f = some ⟨f.count, f.target.toNat, f.core.toNat, f.limit.toNat, g, f.baseTension.toNat, f.taper.toNat,
      f.span.toNat⟩ := by
  have found : tableOf f.table.toNat = some g := by
    rw [table, tableOf, dif_pos g.isLt]
  simp only [badStep, Bool.or_eq_false_iff] at h
  obtain ⟨⟨⟨⟨⟨target, core⟩, limit⟩, _⟩, taper⟩, span⟩ := h
  rw [stepOf, found]
  refine if_pos ?_
  simp only [within_eq_not_outside, maxDiameter, target, core, limit, span, Bool.not_false, Bool.true_and, Bool.and_true]
  simpa [outside] using taper

theorem lanesBeyond_iff {s : State} {web : Nat} : s.lanesBeyond web = true ↔
    ∃ n, (s.lane n).enabled = true ∧ web < (s.lane n).edge + (s.lane n).width := by
  simp only [State.lanesBeyond, List.any_eq_true, mem_lanes, exists_exists_eq_and, Bool.and_eq_true, decide_eq_true_eq]

/-! ## Shaft records beside what the hold unit looks at -/

/-- The other shaft's feeds aside, a shaft record written beside what it feeds feeds the same. -/
theorem State.feeds_setShaft {s : State} {sh : Shaft} {r : ShaftRec}
    (full : r.feedsNotUnloaded = (s.shaft sh).feedsNotUnloaded) (records : r.records = (s.shaft sh).records)
    (overrun : r.feedsOverrun = (s.shaft sh).feedsOverrun) (planEnd : r.feedsPlanEnd = (s.shaft sh).feedsPlanEnd) :
    (s.setShaft sh r).feeds .empty = s.feeds .empty := by
  cases sh <;>
  · simp only [State.feeds, State.setShaft, State.setShafts, Pair.set, full, records, overrun, planEnd, State.shaft,
      Pair.get]
    rfl

/-- A request that writes one shaft record beside what it feeds, carried out and settled. -/
theorem settled_shaft {i : Instr} {q : Request} {s : State} (hq : encodeRequest i = some q) (takes : s.takesRequests)
    {act : State → Reply} {sh : Shaft} {r : ShaftRec} {c : AnswerCode}
    (ha : act (s.setPort (s.port.take q)) = Reply.code ((s.setShaft sh r).setPort (s.port.take q)) c)
    (full : r.feedsNotUnloaded = (s.shaft sh).feedsNotUnloaded) (records : r.records = (s.shaft sh).records)
    (overrun : r.feedsOverrun = (s.shaft sh).feedsOverrun) (planEnd : r.feedsPlanEnd = (s.shaft sh).feedsPlanEnd) :
    Host.Outcome.next (φ := Fault) (ρ := Refusal) (s.settle (s.carryOut i act)) =
      .next { s with port := s.port.answered q.code c [], shafts := s.shafts.set sh r } := by
  rw [State.carryOut_free hq takes, ha, Reply.finish_code]
  exact congrArg Host.Outcome.next (State.settle_same (State.feeds_setShaft full records overrun planEnd) rfl rfl rfl)

/-! ## SET_JOB -/

theorem jobValuesValid_good {j : JobFields} (h : outOfRange (.setJob j) = false) :
    badShaftJob j.shaftA = false ∧ badShaftJob j.shaftB = false ∧ jobValuesValid j = true := by
  simp only [outOfRange, Bool.or_eq_false_iff] at h
  obtain ⟨⟨⟨⟨⟨a, b⟩, thickness⟩, packing⟩, rhoA⟩, rhoB⟩ := h
  refine ⟨a, b, ?_⟩
  simp only [jobValuesValid, rhoValid, within_eq_not_outside, thickness, packing, rhoA, rhoB]
  rfl

/-- Settles O56. -/
theorem jobsAndPlansAreWritten : Obligations.JobsAndPlansAreWritten := by
  unfold Obligations.JobsAndPlansAreWritten
  intro s takes answers
  refine ⟨fun j good => ?_, fun sh number f g good table => ?_, fun sh => ⟨fun idle => ?_, fun winds => ?_⟩,
    fun index g => ⟨fun busy => ?_, fun idle => ?_⟩, fun parent => ?_⟩
  · intro web item renewed fits
    obtain ⟨a, b, values⟩ := jobValuesValid_good good
    have jobs : validShaftJob j.shaftA = some (item j.shaftA) ∧ validShaftJob j.shaftB = some (item j.shaftB) :=
      ⟨validShaftJob_good a, validShaftJob_good b⟩
    have free (p : Port) (idle : s.store.save = none) : (s.setPort p).setJob j =
        if s.webWidthValid web then (s.setPort p).takeJob j (item j.shaftA) (item j.shaftB)
        else Reply.code (s.setPort p) .range := by
      have skip : ¬ (s.setPort p).store.save.isSome = true := by
        rw [State.setPort_store, idle]
        decide
      rw [State.setJob, if_neg skip, jobs.1, jobs.2]
      simp only [values, Bool.and_true]
      rfl
    have beyond : s.lanesBeyond web = true ↔ ¬ ∀ n, (s.lane n).enabled = true → (s.lane n).edge + (s.lane n).width ≤ web := by
      simp only [lanesBeyond_iff, not_forall, Nat.not_le, exists_prop]
    have valid : s.webWidthValid web = true ↔ (renewed → 1000 ≤ web ∧ web ≤ 40000) := by
      simp only [State.webWidthValid, within, Bool.or_eq_true, decide_eq_true_eq, Bool.and_eq_true, renewed, ne_eq]
      tauto
    refine ⟨fun busy => ?_, fun idle new misfits => ?_, fun idle new fit runs => ?_, fun idle fit => ?_⟩
    · exact settled_answer (q := ⟨0x21, jobBytes j⟩) rfl takes (if_pos busy)
    · refine settled_answer (q := ⟨0x21, jobBytes j⟩) rfl takes ((free _ idle).trans ?_)
      split
      · next ok =>
        refine if_pos ⟨new, beyond.mpr fun all => misfits ?_⟩
        exact ⟨(valid.mp ok new).1, (valid.mp ok new).2, all⟩
      · rfl
    · refine settled_answer (q := ⟨0x21, jobBytes j⟩) rfl takes
        ((free _ idle).trans ((if_pos (valid.mpr fun _ => ⟨fit.1, fit.2.1⟩)).trans ((if_neg ?_).trans (if_pos ⟨new, runs⟩))))
      exact fun h => beyond.mp h.2 fit.2.2
    · refine congrArg Host.Outcome.next (settled_reply (q := ⟨0x21, jobBytes j⟩)
        (t := s.setSettings (s.settings.withJob j (item j.shaftA) (item j.shaftB))) rfl takes
        ((free _ idle).trans ((if_pos (valid.mpr fun new => ⟨(fit new).1.1, (fit new).1.2.1⟩)).trans
          ((if_neg ?_).trans (if_neg ?_)))) rfl rfl rfl rfl rfl rfl)
      · exact fun h => beyond.mp h.2 (fit h.1).1.2.2
      · exact fun h => absurd ((fit h.1).2.symm.trans h.2) (by decide)
  · intro i r k st
    simp only [outOfRange, Bool.or_eq_false_iff] at good
    obtain ⟨⟨_, range⟩, step⟩ := good
    simp only [outside, Bool.or_eq_false_iff, decide_eq_false_iff_not] at range
    have edits (p : Port) : (s.setPort p).setPlanStep (shaftByte sh).toNat k f = (s.setPort p).editPlan sh k st := by
      simp only [State.setPlanStep, shaftOf_shaftByte, stepOf_good step table]
      rfl
    refine ⟨fun beyond => ?_, fun next winds past => ?_, fun next ahead => ?_⟩
    · refine settled_answer (q := ⟨0x22, [shaftByte sh, number] ++ stepBytes f⟩) rfl takes ((edits _).trans (if_pos ?_))
      exact .inr (.inr beyond)
    · refine settled_answer (q := ⟨0x22, [shaftByte sh, number] ++ stepBytes f⟩) rfl takes
        ((edits _).trans ((if_neg ?_).trans (if_pos ⟨winds, past⟩)))
      show ¬ (k = 0 ∨ 8 < k ∨ r.plan.length + 1 < k)
      omega
    · refine settled_shaft (q := ⟨0x22, [shaftByte sh, number] ++ stepBytes f⟩) (sh := sh)
        (r := { r with plan := putStep r.plan k st }) rfl takes
        ((edits _).trans ((if_neg ?_).trans (if_neg ?_))) rfl rfl rfl rfl
      · show ¬ (k = 0 ∨ 8 < k ∨ r.plan.length + 1 < k)
        omega
      · rintro ⟨winds, past⟩
        exact ahead.elim winds fun lt => absurd past (Nat.not_le.mpr lt)
  · refine settled_shaft (q := ⟨0x23, [shaftByte sh]⟩) (sh := sh) (r := { s.shaft sh with plan := [] }) rfl takes ?_ rfl rfl rfl rfl
    simp only [State.clearPlan, shaftOf_shaftByte]
    exact if_pos idle
  · refine settled_answer (q := ⟨0x23, [shaftByte sh]⟩) rfl takes ?_
    simp only [State.clearPlan, shaftOf_shaftByte]
    exact if_neg winds
  · exact settled_answer (q := ⟨0x24, _⟩) rfl takes (if_pos busy)
  · have small : index.val < 256 := index.isLt.trans (by decide)
    have found : tableOf (byteOf index.val).toNat = some index := by
      rw [show (byteOf index.val).toNat = index.val by simp [byteOf]; omega, tableOf, dif_pos index.isLt]
    have skip (p : Port) : ¬ (s.setPort p).store.save.isSome = true := by
      rw [State.setPort_store, idle]
      decide
    refine congrArg Host.Outcome.next (settled_reply (q := ⟨0x24, byteOf index.val :: tableBytes g⟩)
      (t := s.setSettings { s.settings with tables := s.settings.tables.set index g }) rfl takes ((if_neg (skip _)).trans ?_)
      rfl rfl rfl rfl rfl rfl)
    rw [found]
    rfl
  · have none : parent.toNat = 0 ↔ parent = 0 := ⟨fun h => BitVec.eq_of_toNat_eq h, fun h => by rw [h]; rfl⟩
    have staged : stagedOf parent.toNat = if parent = 0 then Option.none else some parent.toNat := by
      simp only [stagedOf, none]
    rw [← staged]
    exact congrArg Host.Outcome.next (settled_reply (q := ⟨0x25, bytes32 parent⟩)
      (t := s.setTravel { s.travel with staged := stagedOf parent.toNat }) rfl takes rfl rfl rfl rfl rfl rfl rfl)

end Sys2Proof.Machine
end

section
/-! PROOF. Openings that are met or not, and the lanes enabled and disabled (O55). -/

namespace Sys2Proof.Machine

/-! ## Openings -/

/-- Where the free count is not 0, some record is FREE (R55). -/
theorem RecordLaw.exists_free {s : State} (law : RecordLaw s) (h : 1 ≤ s.table.free) : ∃ g, s.reel g = none := by
  have some := law.1 ▸ h
  obtain ⟨g, hg⟩ := List.exists_mem_of_length_pos some
  exact ⟨g, by simpa using (List.mem_filter.mp hg).2⟩

/-- An opening that its pool meets fills a FREE record (R40). -/
theorem State.openForLane_met {s : State} {n : Lane} {sh : Shaft} {sp : Spindle} {x : Nat} {pool : Pool}
    {flags : ReelFlags} {st : PlanStep} (met : s.poolMeets sh pool = true) (step : (s.shaft sh).currentStep = some st)
    (free : ∃ g, s.reel g = none) :
    ∃ h, s.reel h = none ∧ s.OpensAt (s.openForLane n sh sp x pool flags) n sh sp x pool flags h st := by
  have found : (allHandles.find? fun h => (s.reel h).isNone).isSome := by
    obtain ⟨g, hg⟩ := free
    exact List.find?_isSome.mpr ⟨g, List.mem_finRange g, by rw [hg]; rfl⟩
  obtain ⟨h, first⟩ := Option.isSome_iff_exists.mp found
  have opens : ∃ t, s.openRecord n sh sp x pool flags = some (h, t) := by
    unfold State.openRecord
    rw [met, step, first]
    exact ⟨_, rfl⟩
  obtain ⟨t, e⟩ := opens
  obtain ⟨st', _, step', isFree, _, opened⟩ := State.openForLane_opens e
  cases step.symm.trans step'
  exact ⟨h, isFree, opened⟩

/-- An opening that its pool does not meet leaves the lane UNTRACKED (R33, R40). -/
theorem State.openForLane_unmet {s : State} {n : Lane} {sh : Shaft} {sp : Spindle} {x : Nat} {pool : Pool}
    {flags : ReelFlags} (unmet : s.poolMeets sh pool = false) :
    s.openForLane n sh sp x pool flags = s.setLane n { s.lane n with current := none, untracked := true } := by
  obtain ⟨_, _, _, _, met, _⟩ | e := s.openForLane_cases n sh sp x pool flags
  · rw [unmet] at met
    cases met
  · exact e

/-- The id counter's next free id is the counter itself where no record holds it (R39). -/
theorem State.nextId_eq {s : State} (h : ∀ g, ∀ u ∈ s.reel g, u.id ≠ s.settings.reelIdCounter) :
    s.nextId = s.settings.reelIdCounter := by
  have fresh : s.heldIds.contains s.settings.reelIdCounter = false := by
    rw [Bool.eq_false_iff, ne_eq, List.contains_iff_mem]
    intro mem
    obtain ⟨g, _, e⟩ := List.mem_filterMap.mp mem
    obtain ⟨u, hu, e⟩ := Option.map_eq_some_iff.mp e
    exact h g u hu e
  unfold State.nextId
  rw [freeId, fresh]
  rfl

/-- The lanes after an opening. -/
theorem State.OpensAt.lane {s t : State} {n : Lane} {sh : Shaft} {sp : Spindle} {x : Nat} {pool : Pool}
    {flags : ReelFlags} {h : Handle} {st : PlanStep} (o : s.OpensAt t n sh sp x pool flags h st) (m : Lane) :
    t.lane m = if m = n then { s.lane n with current := some h, untracked := false } else s.lane m := by
  obtain ⟨_, _, rfl⟩ := o
  exact State.setLane_lane s n m _

/-- The records after an opening. -/
theorem State.OpensAt.reel {s t : State} {n : Lane} {sh : Shaft} {sp : Spindle} {x : Nat} {pool : Pool}
    {flags : ReelFlags} {h : Handle} {st : PlanStep} (o : s.OpensAt t n sh sp x pool flags h st) (g : Handle) :
    t.reel g = if g = h then some (s.newReel n sh sp x flags st) else s.reel g := by
  obtain ⟨_, _, rfl⟩ := o
  exact State.setReel_reel s h g _

/-! ## A cause brings SLOW -/

theorem HoldUnit.follow_slowLine {h : HoldUnit} (present : h.causes.any = true) (expiry : Nat) :
    (h.follow expiry).slowLine = if h.slow.isNone then true else h.slowLine := by
  unfold HoldUnit.follow HoldUnit.releaseSlow HoldUnit.activateSlow HoldUnit.activateStop HoldUnit.slowDemand
  split_ifs <;> simp_all

/-- A cause brings the SLOW line, where the lines show the holds (R140, R144). -/
theorem settle_slowLine {before after : State} (awake : after.inReset = false) (hold : after.hold = before.hold)
    (law : LineLaw before) (present : (before.eventCauses after).any = true) :
    (before.settle after).hold.slowLine = true := by
  obtain ⟨slow, _, _, _, causes⟩ := law
  rw [State.settle_hold awake, State.takeCauses_hold]
  have kept : (before.takeCounts after).hold.causes = before.hold.causes ∧
      (before.takeCounts after).hold.slowLine = before.hold.slowLine ∧
      (before.takeCounts after).hold.slow = before.hold.slow := by
    rw [← hold]
    exact ⟨rfl, rfl, rfl⟩
  obtain ⟨sameCauses, sameLine, sameSlow⟩ := kept
  split
  · next same =>
    rw [sameLine]
    exact causes (by rw [← sameCauses, ← same]; exact present)
  · rw [HoldUnit.follow_slowLine (by exact present)]
    change (if (before.takeCounts after).hold.slow.isNone then true else (before.takeCounts after).hold.slowLine) = true
    rw [sameSlow, sameLine]
    cases held : before.hold.slow with
    | none => rfl
    | some e =>
      rw [slow, held]
      rfl

/-- A lane that newly carries UNTRACKED is a cause (R143). -/
theorem eventCauses_untracked {before after : State} (now : after.feedsUntracked = true)
    (was : before.feedsUntracked = false) : (before.eventCauses after).any = true := by
  have lane : (before.eventCauses after).untracked = true := by
    unfold State.eventCauses
    dsimp only
    split <;> split <;> simp [Causes.report, State.feeds, State.testTravel, State.testMarks, reported, now, was]
  simp [Causes.any, lane]

/-! ## Enabling and disabling (O55) -/

/-- A request that its block carries out to `v`, settled: only the port, the holds and the alerts differ from `v`. -/
theorem settled_exec {i : Instr} {q : Request} {s : State} (hq : encodeRequest i = some q) (takes : s.takesRequests)
    {act : State → Reply} {v : State} {c : AnswerCode} (ha : act (s.setPort (s.port.take q)) = Reply.code v c)
    (port : v.port = s.port.take q) :
    s.settle (s.carryOut i act) = s.settle (v.setPort (s.port.answered q.code c [])) := by
  rw [State.carryOut_free hq takes, ha, Reply.finish_code, port]
  rfl

/-- Settles O55. -/
theorem enablingOpensALateReel : Obligations.EnablingOpensALateReel := by
  unfold Obligations.EnablingOpensALateReel
  intro n lane s number takes l r spare answers fits meets
  have on := onLane_number number
  have overlap (p : Port) : (s.setPort p).overlapsOther n l.edge l.width = true ↔ meets := overlapsOther_iff
  have apart (p : Port) (free : ¬ meets) : (s.setPort p).overlapsOther n l.edge l.width = false :=
    Bool.eq_false_iff.mpr (mt (overlap p).mp free)
  have off (p : Port) (disabled : l.enabled = false) : ¬ ((s.setPort p).lane n).enabled = true :=
    fun h => Bool.false_ne_true (disabled.symm.trans h)
  have enables (p : Port) (disabled : l.enabled = false) (web : fits) (free : ¬ meets) :
      (s.setPort p).editEnable n = Reply.code ((s.setPort p).enableLane n) .ok :=
    (if_neg (off p disabled)).trans ((if_neg (Nat.not_lt.mpr web)).trans (if_neg (by rw [Bool.not_eq_true]; exact apart p free)))
  refine ⟨fun enabled => ?_, fun disabled wide => ?_, fun disabled web meet => ?_,
    fun disabled clear web free idle => ?_, fun disabled clear web free runs law => ?_, fun disabled => ?_, fun enabled => ?_⟩
  · exact settled_answer (q := laneEdit lane 3 0 0) rfl takes ((on _ _).trans (if_pos enabled))
  · exact settled_answer (q := laneEdit lane 3 0 0) rfl takes
      ((on _ _).trans ((if_neg (off _ disabled)).trans (if_pos (Nat.not_le.mp wide))))
  · exact settled_answer (q := laneEdit lane 3 0 0) rfl takes
      ((on _ _).trans ((if_neg (off _ disabled)).trans ((if_neg (Nat.not_lt.mpr web)).trans (if_pos ((overlap _).mpr meet)))))
  · have only (p : Port) : (s.setPort p).enableLane n = (s.setPort p).setLane n { l with enabled := true } := if_pos idle
    refine settled_map (q := laneEdit lane 3 0 0) rfl takes (m := { s.map with lanes := s.map.lanes.set n { l with enabled := true } })
      ((on _ _).trans ((enables _ disabled web free).trans (congrArg (Reply.code · .ok) (only _)))) fun m => ?_
    rw [show (s.setMap { s.map with lanes := s.map.lanes.set n { l with enabled := true } }).lane m =
      if m = n then { l with enabled := true } else s.lane m from State.setLane_lane s n m _]
    split
    · next e =>
      have off : (s.lane n).untracked = false := clear
      rw [e]
      simp [l, off]
    · exact Iff.rfl
  · let u := s.setPort (s.port.take (laneEdit lane 3 0 0))
    let w := u.setLane n { l with enabled := true }
    let flags : ReelFlags := { ReelFlags.none with lateStart := true, extra := decide (r.phase = .runout) }
    let v := w.openForLane n l.shaft r.active s.position.p .unreserved flags
    have done : u.enableLane n = v := if_neg runs
    obtain ⟨ls, tb, c, x, y, frame⟩ := w.openForLane_frame n l.shaft r.active s.position.p .unreserved flags
    have port : v.port = s.port.take (laneEdit lane 3 0 0) := by
      show (w.openForLane n l.shaft r.active s.position.p .unreserved flags).port = _
      rw [frame]
      rfl
    have carried : exec (.setLaneEnable lane) s =
        .next (s.settle (v.setPort (s.port.answered 0x20 .ok []))) :=
      congrArg Host.Outcome.next (settled_exec (q := laneEdit lane 3 0 0) rfl takes
        ((on _ _).trans ((enables _ disabled web free).trans (congrArg (Reply.code · .ok) done))) port)
    obtain ⟨hold, digest, settled⟩ := s.settle_frame (v.setPort (s.port.answered 0x20 .ok []))
    have lanes (m : Lane) : (s.settle (v.setPort (s.port.answered 0x20 .ok []))).lane m = v.lane m := by rw [settled]; rfl
    have reels (g : Handle) : (s.settle (v.setPort (s.port.answered 0x20 .ok []))).reel g = v.reel g := by rw [settled]; rfl
    have before (m : Lane) : w.lane m = if m = n then { l with enabled := true } else s.lane m := State.setLane_lane ..
    refine ⟨_, carried, fun m other => ?_, ?_, fun st step spares => ?_, fun none => ?_⟩
    · rw [lanes]
      obtain ⟨_, _, _, _, _, _, _, _, e⟩ | e := w.openForLane_cases n l.shaft r.active s.position.p .unreserved flags
      · exact (congrArg (fun z : State => z.lane m) e).trans ((State.setLane_lane w n m _).trans ((if_neg other).trans
          ((before m).trans (if_neg other))))
      · exact (congrArg (fun z : State => z.lane m) e).trans ((State.setLane_lane w n m _).trans ((if_neg other).trans
          ((before m).trans (if_neg other))))
    · rw [settled]
      show { v with port := _, hold := _, digest := _ } = _
      rw [show v = _ from frame]
      rfl
    · have met : w.poolMeets l.shaft .unreserved = true := decide_eq_true (Nat.lt_of_sub_pos spares)
      obtain ⟨h, isFree, opened⟩ := State.openForLane_met (n := n) (sp := r.active) (x := s.position.p) (flags := flags) met
        (show (w.shaft l.shaft).currentStep = some st from step)
        (RecordLaw.exists_free (s := s) law (by change 1 ≤ _ - _ at spares; omega))
      have reel : (s.settle (v.setPort (s.port.answered 0x20 .ok []))).reel h = some (w.newReel n l.shaft r.active s.position.p flags st) := by
        rw [reels, opened.reel, if_pos rfl]
      refine ⟨h, _, isFree, reel, ?_, fun g ne => ?_, rfl, fun g q there => ?_, fun fresh => ?_, ?_, ?_, ?_⟩
      · rw [lanes, opened.lane, if_pos rfl, before n, if_pos rfl, show l.untracked = false from clear]
      · rw [reels, opened.reel, if_neg ne]
        rfl
      · exact State.nextId_fresh (s := s) there
      · exact State.nextId_eq (s := s) fresh
      · obtain ⟨_, _, e⟩ := opened
        rw [settled]
        exact congrArg State.store e
      · obtain ⟨_, _, e⟩ := opened
        have counted : v.table.free = s.table.free - 1 := congrArg (fun z : State => z.table.free) e
        rw [settled]
        show v.table.free + 1 = _
        change 1 ≤ _ - _ at spares
        omega
      · obtain ⟨_, _, e⟩ := opened
        rw [settled]
        have kept := congrArg (fun z : State => z.table.reserved) e
        exact kept
    · have unmet : w.poolMeets l.shaft .unreserved = false :=
        decide_eq_false (Nat.not_lt.mpr (Nat.sub_eq_zero_iff_le.mp none))
      have bare : v = w.setLane n { w.lane n with current := Option.none, untracked := true } := State.openForLane_unmet unmet
      have flagged : v.lane n = { l with enabled := true, current := Option.none, untracked := true } := by
        rw [bare, State.setLane_lane, if_pos rfl, before n, if_pos rfl]
      refine ⟨(lanes n).trans flagged, ?_, fun lines clean => ?_⟩
      · rw [settled]
        have kept := congrArg State.table bare
        exact kept
      · have awake := congrArg State.inReset bare
        have hold := congrArg State.hold bare
        refine settle_slowLine ?_ hold lines (eventCauses_untracked ?_ clean)
        · exact awake.trans takes.1
        · exact State.feedsUntracked_iff.mpr ⟨n, by
            show (v.lane n).enabled = true ∧ (v.lane n).untracked = true
            rw [flagged]
            exact ⟨rfl, rfl⟩⟩
  · exact settled_answer (q := laneEdit lane 4 0 0) rfl takes ((on _ _).trans (if_neg (off _ disabled)))
  · let u := s.setPort (s.port.take (laneEdit lane 4 0 0))
    have ended : (u.endCurrent n) = u.setTable (u.endCurrent n).table := by
      unfold State.endCurrent
      split <;> rfl
    have port : (u.disableLane n).port = s.port.take (laneEdit lane 4 0 0) := by
      rw [State.disableLane, ended]
      rfl
    have carried : exec (.setLaneDisable lane) s = .next (s.settle ((u.disableLane n).setPort (s.port.answered 0x20 .ok []))) :=
      congrArg Host.Outcome.next (settled_exec (q := laneEdit lane 4 0 0) rfl takes ((on _ _).trans (if_pos enabled)) port)
    obtain ⟨hold, digest, settled⟩ := s.settle_frame ((u.disableLane n).setPort (s.port.answered 0x20 .ok []))
    have reels (g : Handle) : (s.settle ((u.disableLane n).setPort (s.port.answered 0x20 .ok []))).reel g =
        (u.endCurrent n).reel g := by
      rw [settled]
      rfl
    refine ⟨_, carried, ?_, fun m => ?_, fun h other => ?_, fun h q current there => ?_⟩
    · rw [settled, State.disableLane, ended]
      rfl
    · rw [settled]
      exact (State.setLane_lane (u.endCurrent n) n m _).trans (by rw [ended]; rfl)
    · rw [reels, State.endCurrent]
      split
      · rfl
      · next g e =>
        rw [State.setReel_reel, if_neg]
        · rfl
        · rintro rfl
          exact other e
    · have closed : (u.endCurrent n).reel h = some (q.endByDisable s.position.p) := by
        have e : (u.lane n).current = some h := current
        rw [State.endCurrent, e]
        exact (State.setReel_reel_self ..).trans (congrArg (Option.map _) there)
      refine ⟨_, (reels h).trans closed, rfl, rfl, rfl, rfl, rfl, rfl, fun above => ?_, fun below => ⟨?_, ?_⟩⟩
      · exact if_pos above
      · exact if_neg (Nat.not_le.mpr below)
      · have flags : (q.endByDisable s.position.p).flags = { q.footageFlags s.position.p with laneClosed := true } := rfl
        rw [flags, Reel.footageFlags, if_neg (Nat.not_le.mpr below)]

end Sys2Proof.Machine
end

section
/-! PROOF. SET_SETTINGS item by item, and RESET_RUN (O60). -/

namespace Sys2Proof.Machine

/-! ## The tests of an item -/

theorem setItem_kept {s : State} (idle : s.store.save = none) {valid same : Bool} (h : valid = true) (k : same = true)
    (change : Reply) : s.setItem valid same change = Reply.code s .ok := by
  simp [State.setItem, idle, h, k]

theorem setItem_changed {s : State} (idle : s.store.save = none) {valid same : Bool} (h : valid = true) (k : same = false)
    (change : Reply) : s.setItem valid same change = change := by
  simp [State.setItem, idle, h, k]

theorem within_good {lo hi n : Nat} (h : outside lo hi n = false) : within lo hi n = true := by
  rw [within_eq_not_outside, h]
  rfl

theorem distanceValid_good {n : Nat} (h : outside 0 100000 n = false) : distanceValid n = true := by
  simpa [outside, distanceValid] using h

/-- Both shafts IDLE and no entry in the travel list (R16, R99). -/
theorem atRest_iff {s : State} : s.atRest = true ↔ s.shafts.a.phase = .idle ∧ s.shafts.b.phase = .idle ∧
    s.travel.approach = [] ∧ s.travel.nip = ⟨[], []⟩ := by
  have stages : s.travel.nip = ⟨[], []⟩ ↔ s.travel.nip.a = [] ∧ s.travel.nip.b = [] :=
    ⟨fun h => by rw [h]; exact ⟨rfl, rfl⟩, fun h => by rw [← h.1]; rw [h.1]; cases e : s.travel.nip; simp_all⟩
  simp [State.atRest, TravelList.isEmpty, stages, and_assoc]

section
variable {s : State} {i : Instr} {q : Request} {valid : Bool} {old new : Nat}

/-- An item of SET_SETTINGS whose value is in force is answered OK and nothing else (R177). -/
theorem item_kept (hq : encodeRequest i = some q) (takes : s.takesRequests) (idle : s.store.save = none)
    (h : valid = true) {same : State → Bool} (k : same (s.setPort (s.port.take q)) = true) {change : State → Reply} :
    Host.Outcome.next (φ := Fault) (ρ := Refusal) (s.settle (s.carryOut i fun t => t.setItem valid (same t) (change t))) =
      .next { s with port := s.port.answered q.code .ok [] } :=
  settled_answer hq takes (setItem_kept (s := s.setPort (s.port.take q)) idle h k _)

/-- An item whose value is not in force comes to its own change (R177). -/
theorem item_changed {t : State} {c : AnswerCode} (hq : encodeRequest i = some q) (takes : s.takesRequests)
    (idle : s.store.save = none) (h : valid = true) {same : State → Bool} (k : same (s.setPort (s.port.take q)) = false)
    {change : State → Reply} (ha : change (s.setPort (s.port.take q)) = Reply.code (t.setPort (s.port.take q)) c)
    (hl : t.map.lanes = s.map.lanes) (hs : t.shafts = s.shafts) (hp : t.position.fault = s.position.fault)
    (ht : t.travel.free = s.travel.free) (hm : t.freeMarks = s.freeMarks) (hh : t.hold = s.hold) :
    Host.Outcome.next (φ := Fault) (ρ := Refusal) (s.settle (s.carryOut i fun t => t.setItem valid (same t) (change t))) =
      .next (t.setPort (s.port.answered q.code c [])) :=
  congrArg Host.Outcome.next (settled_reply hq takes
    ((setItem_changed (s := s.setPort (s.port.take q)) idle h k _).trans ha) hl hs hp ht hm hh)

/-- An item that is written where it is not in force, and left as it stands where it is (R177). -/
theorem item_written {x : Settings} (hq : encodeRequest i = some q) (takes : s.takesRequests) (idle : s.store.save = none)
    (h : valid = true) {same : State → Bool} (k : same (s.setPort (s.port.take q)) = true → x = s.settings)
    {change : State → Reply} (ha : change (s.setPort (s.port.take q)) = Reply.code ((s.setSettings x).setPort (s.port.take q)) .ok) :
    Host.Outcome.next (φ := Fault) (ρ := Refusal) (s.settle (s.carryOut i fun t => t.setItem valid (same t) (change t))) =
      .next { s with port := s.port.answered q.code .ok [], store := { s.store with settings := x } } := by
  cases e : same (s.setPort (s.port.take q)) with
  | true => rw [k e]; exact item_kept hq takes idle h e
  | false => exact item_changed hq takes idle h e ha rfl rfl rfl rfl rfl rfl

/-- An item that is written at rest alone: OK for the value in force, else STATE, LINE_MOVING or the write (R177). -/
theorem item_atRest {t : State} (hq : encodeRequest i = some q) (takes : s.takesRequests) (idle : s.store.save = none)
    (h : valid = true) {same : State → Bool} {after : State → State} {isOld : Prop}
    (k : same (s.setPort (s.port.take q)) = true ↔ isOld)
    (ha : after (s.setPort (s.port.take q)) = t.setPort (s.port.take q))
    (hl : t.map.lanes = s.map.lanes) (hs : t.shafts = s.shafts) (hp : t.position.fault = s.position.fault)
    (ht : t.travel.free = s.travel.free) (hm : t.freeMarks = s.freeMarks) (hh : t.hold = s.hold) :
    let rests := s.shafts.a.phase = .idle ∧ s.shafts.b.phase = .idle ∧ s.travel.approach = [] ∧ s.travel.nip = ⟨[], []⟩
    let done := Host.Outcome.next (φ := Fault) (ρ := Refusal)
      (s.settle (s.carryOut i fun t => t.setItem valid (same t) (t.setAtRest (after t))))
    (isOld → done = .next { s with port := s.port.answered q.code .ok [] }) ∧
    (¬ isOld → ¬ rests → done = .next { s with port := s.port.answered q.code .state [] }) ∧
    (¬ isOld → rests → s.position.line = .running → done = .next { s with port := s.port.answered q.code .lineMoving [] }) ∧
    (¬ isOld → rests → s.position.line = .stopped → done = .next (t.setPort (s.port.answered q.code .ok []))) := by
  intro rests done
  have differs (n : ¬ isOld) : same (s.setPort (s.port.take q)) = false := Bool.eq_false_iff.mpr (mt k.mp n)
  have rest : (s.setPort (s.port.take q)).atRest = true ↔ rests := atRest_iff
  refine ⟨fun o => item_kept hq takes idle h (k.mpr o), fun n moves => ?_, fun n still runs => ?_, fun n still stops => ?_⟩
  · refine settled_answer hq takes ((setItem_changed (s := s.setPort (s.port.take q)) idle h (differs n) _).trans (if_pos ?_))
    rw [Bool.not_eq_true', Bool.eq_false_iff]
    exact mt rest.mp moves
  · exact settled_answer hq takes ((setItem_changed (s := s.setPort (s.port.take q)) idle h (differs n) _).trans
      ((if_neg (by rw [rest.mpr still]; decide)).trans (if_pos runs)))
  · refine item_changed hq takes idle h (differs n) ?_ hl hs hp ht hm hh
    refine (if_neg (by rw [rest.mpr still]; decide)).trans ((if_neg ?_).trans (congrArg (Reply.code · .ok) ha))
    show ¬ s.position.line = .running
    rw [stops]
    decide

end

/-- During a save every item is BUSY (R177). -/
theorem item_busy {s : State} (takes : s.takesRequests) (save : s.store.save.isSome = true) {i : Instr} {q : Request}
    (hq : encodeRequest i = some q) (code : q.code = 0x40) :
    exec i s = .next { s with port := s.port.answered 0x40 .busy [] } := by
  have busy (valid : Bool) (same : State → Bool) (change : State → Reply) :
      Host.Outcome.next (φ := Fault) (ρ := Refusal) (s.settle (s.carryOut i fun t => t.setItem valid (same t) (change t))) =
        .next { s with port := s.port.answered 0x40 .busy [] } := by
    rw [← code]
    exact settled_answer hq takes (if_pos save)
  cases i with
  | setSettingsNEnc | setSettingsStopTimeout | setSettingsSpliceDebounce | setSettingsDIk | setSettingsDSk | setSettingsDKw
  | setSettingsHoldQuantum | setSettingsSweepInterval | setSettingsReelIdCounter | setSettingsTravelWatermarks
  | setSettingsMarkWatermarks => exact busy _ _ _
  | _ => cases hq <;> cases code

/-- The sweep watch armed where its position lies beyond P, whatever that is, or disarmed (R128). -/
theorem State.armSweep_ahead {s : State} {x : Nat} (ahead : s.settings.sweepInterval ≠ 0 → s.position.p < x) :
    s.armSweep x = s.setWatch .sweep (if s.settings.sweepInterval = 0 ∨ maxPosition < x then none else some x) := by
  unfold State.armSweep
  by_cases off : s.settings.sweepInterval = 0 ∨ maxPosition < x
  · rw [if_pos off, if_pos off]
    rfl
  · rw [if_neg off, if_neg off]
    exact if_pos (ahead fun zero => off (.inl zero))

/-- An event that changes nothing the blocks feed leaves the causes as they stand. -/
theorem State.settle_causes_same {before after : State} (hf : after.feeds .empty = before.feeds .empty)
    (ht : after.travel.free = before.travel.free) (hm : after.freeMarks = before.freeMarks) :
    (before.settle after).hold.causes = after.hold.causes := by
  rw [State.settle_causes]
  split
  · rfl
  · simp [State.eventCauses, hf, ht, hm]

/-- An item that the hold unit tests at once: the settings are written and the causes taken (R141, R142, R177). -/
theorem settled_causes {i : Instr} {q : Request} {s : State} {x : Settings} {c : Causes} (hq : encodeRequest i = some q)
    (takes : s.takesRequests) {act : State → Reply}
    (ha : act (s.setPort (s.port.take q)) = Reply.code (((s.setPort (s.port.take q)).setSettings x).takeCauses c) .ok) :
    ∃ t, s.settle (s.carryOut i act) = t ∧
      t = { s with
        port := s.port.answered q.code .ok [], hold := t.hold, digest := t.digest, store := { s.store with settings := x } } ∧
      t.hold.causes = c := by
  obtain ⟨h, e⟩ := ((s.setPort (s.port.take q)).setSettings x).takeCauses_frame c
  have causes : h.causes = c := by
    have := State.takeCauses_causes ((s.setPort (s.port.take q)).setSettings x) c
    rwa [e] at this
  refine ⟨_, rfl, ?_, ?_⟩
  · rw [settled_exec hq takes ha (by rw [e]; rfl), e]
    obtain ⟨_, _, e'⟩ := s.settle_frame (State.setPort { (s.setPort (s.port.take q)).setSettings x with hold := h }
      (s.port.answered q.code .ok []))
    rw [e']
    rfl
  · rw [settled_exec hq takes ha (by rw [e]; rfl), e, State.settle_causes_same (before := s)]
    · exact causes
    all_goals rfl

theorem item_tested {i : Instr} {q : Request} {s : State} {valid : Bool} {x : Settings} {c : Causes}
    (hq : encodeRequest i = some q) (takes : s.takesRequests) (idle : s.store.save = none) (h : valid = true)
    {same : State → Bool} (k : same (s.setPort (s.port.take q)) = false) {change : State → Reply}
    (ha : change (s.setPort (s.port.take q)) = Reply.code (((s.setPort (s.port.take q)).setSettings x).takeCauses c) .ok) :
    ∃ t, Host.Outcome.next (φ := Fault) (ρ := Refusal)
        (s.settle (s.carryOut i fun t => t.setItem valid (same t) (change t))) = .next t ∧
      t = { s with
        port := s.port.answered q.code .ok [], hold := t.hold, digest := t.digest, store := { s.store with settings := x } } ∧
      t.hold.causes = c := by
  obtain ⟨t, e, found⟩ := settled_causes hq takes (act := fun t => t.setItem valid (same t) (change t))
    ((setItem_changed (s := s.setPort (s.port.take q)) idle h k _).trans ha)
  exact ⟨t, congrArg Host.Outcome.next e, found⟩

theorem travelMarksValid_good {lower upper : Word32} (h : outOfRange (.setSettingsTravelWatermarks lower upper) = false) :
    travelMarksValid lower.toNat upper.toNat = true := by
  simp only [outOfRange, Bool.or_eq_false_iff] at h
  simp only [travelMarksValid, within_eq_not_outside, h]
  rfl

theorem markMarksValid_good {lower upper : Word32} (h : outOfRange (.setSettingsMarkWatermarks lower upper) = false) :
    markMarksValid lower.toNat upper.toNat = true := by
  simp only [outOfRange, Bool.or_eq_false_iff] at h
  obtain ⟨low, high⟩ := h
  simp only [markMarksValid, within_eq_not_outside, high, Bool.not_false, Bool.and_true]
  simpa [outside] using low

theorem Settings.valid_interval {x : Settings} (h : x.valid = true) : x.sweepInterval ≤ 100000 := by
  have valid : sweepIntervalValid x.sweepInterval = true := by
    simp only [Settings.valid, Bool.and_eq_true] at h
    tauto
  simp only [sweepIntervalValid, within, Bool.or_eq_true, Bool.and_eq_true, decide_eq_true_eq] at valid
  omega

theorem State.reel_of_table {s t : State} (h : t.table = s.table) (g : Handle) : t.reel g = s.reel g := by
  unfold State.reel
  rw [h]

/-- RESET_RUN marks a DOFFING or DOFFED record once (R16, R48). -/
theorem Reel.leaveRun_eq (r : Reel) : r.leaveRun =
    if (r.state = .doffing ∨ r.state = .doffed) ∧ r.flags.previousRun = false then
      { r with flags := { r.flags with previousRun := true }, revision := r.revision + 1 }
    else r := by
  have marked : { r.flags with previousRun := true } = r.flags ↔ r.flags.previousRun = true :=
    ⟨fun e => by rw [← e], fun e => by rw [← e]⟩
  unfold Reel.leaveRun Reel.withFlags
  by_cases wound : r.state = .doffing ∨ r.state = .doffed
  · simp only [wound, if_true, true_and, marked]
    cases r.flags.previousRun <;> rfl
  · simp only [wound, if_false, false_and]

/-- Settles O60. -/
theorem settingsAndRunsChangeAtRest : Obligations.SettingsAndRunsChangeAtRest := by
  unfold Obligations.SettingsAndRunsChangeAtRest
  intro s takes rests answers writes distance
  refine ⟨fun save i q => item_busy takes save, fun idle v => ?_, fun idle lower upper => ?_, fun moves => ?_, fun still => ?_⟩
  · refine ⟨fun good => ?_, fun good => ?_, fun good => ?_, fun good => ?_, fun good => ⟨?_, ?_, fun sh => ?_⟩, fun good => ?_, fun good => ?_⟩
    · exact item_written (q := settingEdit 2 v 0) rfl takes idle (within_good good) (fun e => by rw [of_decide_eq_true e]; rfl) rfl
    · exact item_written (q := settingEdit 3 v 0) rfl takes idle (distanceValid_good good) (fun e => by rw [of_decide_eq_true e]; rfl) rfl
    · exact item_written (q := settingEdit 8 v 0) rfl takes idle (within_good good) (fun e => by rw [of_decide_eq_true e]; rfl) rfl
    · refine item_written (q := settingEdit 10 v 0) rfl takes idle ?_ (fun e => by rw [of_decide_eq_true e]; rfl) rfl
      have low : v ≠ 0 := by simpa [outOfRange] using good
      have most := v.isLt
      simp only [within, maxPosition, Bool.and_eq_true, decide_eq_true_eq]
      bv_omega
    · obtain ⟨same, busy, runs, done⟩ := item_atRest (q := settingEdit 4 v 0) (t := s.setSettings { s.settings with dIk := v.toNat })
        (i := .setSettingsDIk v) (same := fun t => decide (v.toNat = t.settings.dIk))
        (after := fun t => t.setSettings { t.settings with dIk := v.toNat }) rfl takes idle (distanceValid_good good) decide_eq_true_iff rfl rfl rfl rfl rfl rfl rfl
      exact ⟨same, busy, runs, done⟩
    · obtain ⟨same, busy, runs, done⟩ := item_atRest (q := settingEdit 5 v 0) (t := s.setSettings { s.settings with dSk := v.toNat })
        (i := .setSettingsDSk v) (same := fun t => decide (v.toNat = t.settings.dSk))
        (after := fun t => t.setSettings { t.settings with dSk := v.toNat }) rfl takes idle (distanceValid_good good) decide_eq_true_iff rfl rfl rfl rfl rfl rfl rfl
      exact ⟨same, busy, runs, done⟩
    · have item (n : Byte) (hq : encodeRequest (.setSettingsDKw sh v) = some (settingEdit n v 0)) :
          distance (.setSettingsDKw sh v) (s.settings.dKw.get sh) v.toNat
            { s.settings with dKw := s.settings.dKw.set sh v.toNat } := by
        obtain ⟨same, busy, runs, done⟩ := item_atRest (q := settingEdit n v 0)
          (t := s.setSettings { s.settings with dKw := s.settings.dKw.set sh v.toNat }) (i := .setSettingsDKw sh v)
          (same := fun t => decide (v.toNat = t.settings.dKw.get sh))
          (after := fun t => t.setSettings { t.settings with dKw := t.settings.dKw.set sh v.toNat }) hq takes idle
          (distanceValid_good good) decide_eq_true_iff rfl rfl rfl rfl rfl rfl rfl
        exact ⟨same, busy, runs, done⟩
      cases sh with
      | a => exact item 6 rfl
      | b => exact item 7 rfl
    · obtain ⟨same, busy, runs, done⟩ := item_atRest (q := settingEdit 1 v 0) (t := s.changeNEnc v.toNat)
        (i := .setSettingsNEnc v) (same := fun t => decide (v.toNat = t.settings.nEnc)) (after := fun t => t.changeNEnc v.toNat) rfl takes idle (within_good good) decide_eq_true_iff rfl rfl rfl rfl rfl rfl rfl
      exact ⟨same, busy, runs, done⟩
    · intro x
      have range : v = 0 ∨ 100 ≤ v.toNat ∧ v.toNat ≤ 100000 := by
        simp only [outOfRange, outside, Bool.and_eq_false_iff, Bool.or_eq_false_iff, decide_eq_false_iff_not, bne_eq_false_iff_eq]
          at good
        obtain range | zero := good
        · exact .inr ⟨by omega, by omega⟩
        · exact .inl zero
      have valid : sweepIntervalValid v.toNat = true := by
        simp only [sweepIntervalValid, within, Bool.or_eq_true, Bool.and_eq_true, decide_eq_true_eq]
        exact range.imp (fun e => by rw [e]; rfl) id
      refine ⟨fun same => ?_, fun differs => ?_⟩
      · exact item_kept (q := settingEdit 9 v 0) rfl takes idle valid (decide_eq_true same)
      · refine item_changed (q := settingEdit 9 v 0) (t := { s with
            store := { s.store with settings := { s.settings with sweepInterval := v.toNat } }
            position := { s.position with watches := { s.position.watches with
              sweep := if v = 0 ∨ maxPosition < x then none else some x } } })
          rfl takes idle valid (decide_eq_false differs) (congrArg (Reply.code · .ok) ?_) rfl rfl rfl rfl rfl rfl
        have none : v.toNat = 0 ↔ v = 0 := ⟨fun h => BitVec.eq_of_toNat_eq h, fun h => by rw [h]; rfl⟩
        simp only [← none]
        refine State.armSweep_ahead fun on => ?_
        change v.toNat ≠ 0 at on
        show s.position.p < s.position.p + v.toNat
        omega
  · intro l u
    refine ⟨fun good same => ?_, fun good same => ?_, fun good differs => ?_, fun good differs => ?_⟩
    · exact item_kept (q := settingEdit 11 lower upper) rfl takes idle (travelMarksValid_good good)
        (by rw [Bool.and_eq_true]; exact ⟨decide_eq_true same.1, decide_eq_true same.2⟩)
    · exact item_kept (q := settingEdit 12 lower upper) rfl takes idle (markMarksValid_good good)
        (by rw [Bool.and_eq_true]; exact ⟨decide_eq_true same.1, decide_eq_true same.2⟩)
    · exact item_tested (q := settingEdit 11 lower upper) (x := { s.settings with travelLower := l, travelUpper := u }) rfl takes
        idle (travelMarksValid_good good)
        (by rw [Bool.and_eq_false_iff]; exact differs.imp (fun h => decide_eq_false h) fun h => decide_eq_false h) rfl
    · exact item_tested (q := settingEdit 12 lower upper) (x := { s.settings with markLower := l, markUpper := u }) rfl takes
        idle (markMarksValid_good good)
        (by rw [Bool.and_eq_false_iff]; exact differs.imp (fun h => decide_eq_false h) fun h => decide_eq_false h) rfl
  · exact settled_answer (q := ⟨0x3A, []⟩) rfl takes (if_neg (mt atRest_iff.mp moves))
  · have rest : s.atRest = true := atRest_iff.mpr still
    let u := s.setPort (s.port.take ⟨0x3A, []⟩)
    have armed : (u.setPosition u.position.newRun).armSweep s.settings.sweepInterval =
        (u.setPosition u.position.newRun).setWatch .sweep _ :=
      State.armSweep_ahead fun on => Nat.pos_of_ne_zero on
    have ran : u.endRun = ((u.setPosition u.position.newRun).setWatch .sweep
        (if s.settings.sweepInterval = 0 ∨ maxPosition < s.settings.sweepInterval then none
          else some s.settings.sweepInterval)).mapReels Reel.leaveRun :=
      congrArg (State.mapReels · Reel.leaveRun) armed
    obtain ⟨hold, digest, settled⟩ := s.settle_frame (u.endRun.setPort (s.port.answered 0x3A .ok []))
    have carried : exec .resetRun s = .next (s.settle (u.endRun.setPort (s.port.answered 0x3A .ok []))) :=
      congrArg Host.Outcome.next (settled_exec (q := ⟨0x3A, []⟩) rfl takes (if_pos (show u.atRest = true from rest))
        (by rw [ran]; rfl))
    rw [settled, ran] at carried
    refine ⟨_, carried, rfl, fun law => ?_, fun h => ?_⟩
    · have range : s.settings.sweepInterval ≤ maxPosition := by
        have limit : 100000 ≤ maxPosition := by decide
        exact (Settings.valid_interval law.2.2).trans limit
      show (if _ then _ else _) = _
      simp only [Nat.not_lt.mpr range, or_false]
    · have same := State.reel_of_table (s := u.endRun) (by rw [ran]) h
      rw [ran] at same
      refine same.trans ((State.mapReels_reel _ _ h).trans (congrArg (Option.map · (s.reel h)) (funext Reel.leaveRun_eq)))

end Sys2Proof.Machine
end

section
/-! PROOF. Landings and operator marks: what they leave of the records that cover a position, and the flags they land
(O59). -/

namespace Sys2Proof.Machine

/-! ## What a landing keeps -/

/-- The fields of a record by which the searches find it (R51, R53). -/
def Reel.spot (r : Reel) : Nat × Lane × Shaft × Spindle × Nat × Option Nat × ReelState × Bool :=
  (r.id, r.lane, r.shaft, r.spindle, r.start, r.stopAt, r.state, r.flags.previousRun)

/-- Every record stands where it stood. -/
def State.spotsKept (s t : State) : Prop := ∀ h, (t.reel h).map Reel.spot = (s.reel h).map Reel.spot

theorem State.spotsKept.refl (s : State) : s.spotsKept s := fun _ => rfl

theorem State.spotsKept.trans {s t u : State} (h : s.spotsKept t) (k : t.spotsKept u) : s.spotsKept u :=
  fun g => (k g).trans (h g)

theorem Reel.covers_congr {q r : Reel} (h : q.spot = r.spot) (n : Lane) (sh : Shaft) (x : Nat) :
    q.covers n sh x = r.covers n sh x := by
  simp only [Reel.spot, Prod.mk.injEq] at h
  simp only [Reel.covers, h]

/-- Where every record stands as it stood, the position search finds the same. -/
theorem State.spotsKept.coveringReel {s t : State} (h : s.spotsKept t) (n : Lane) (sh : Shaft) (x : Nat) :
    t.coveringReel n sh x = s.coveringReel n sh x := by
  unfold State.coveringReel
  congr 1
  funext g
  have same := h g
  cases et : t.reel g <;> cases es : s.reel g <;> simp only [et, es, Option.map_none, Option.map_some, Option.some.injEq,
    reduceCtorEq] at same
  · rfl
  · exact Reel.covers_congr same n sh x

theorem State.spotsKept.id {s t : State} (h : s.spotsKept t) (g : Handle) : (t.reel g).map Reel.id = (s.reel g).map Reel.id := by
  have same := congrArg (Option.map Prod.fst) (h g)
  rw [Option.map_map, Option.map_map] at same
  exact same

theorem State.landedReel_spot (s : State) (m : Mark) (r : Reel) : (s.landedReel m r).spot = r.spot := by
  obtain ⟨v, e, _⟩ := s.landedReel_eq m r
  rw [e, Reel.landed_eq]
  unfold Reel.extendParents
  split
  · dsimp only
    split <;> rfl
  · rfl

theorem State.spotsKept.land (s : State) (h : Handle) (m : Mark) : s.spotsKept (s.land h m) := by
  cases there : s.reel h with
  | none => rw [State.land_free there]; exact .refl s
  | some r =>
    intro g
    rw [State.land_rewritten there m g]
    split
    · next e => rw [e, there, Option.map_some, s.landedReel_spot]; rfl
    · rfl

theorem State.spotsKept.of_table {s t : State} (h : t.table = s.table) : s.spotsKept t := fun g => by
  rw [State.reel_of_table h]

theorem Fall.spotsKept {s t : State} (h : Fall s t) : s.spotsKept t := by
  cases h with
  | land h m => exact .land s h m
  | _ => exact .of_table rfl

theorem Falls.spotsKept {s t : State} (h : Falls s t) : s.spotsKept t := by
  induction h with
  | refl => exact .refl s
  | tail _ fall ih => exact ih.trans fall.spotsKept

/-! ## Flags of operator marks -/

/-- The id of the reel that an operator mark finds on a lane, or 0 (R98). -/
def State.flaggedId (s : State) (m : HeldMark) (l : LaneHit) : Nat :=
  (((s.coveringReel l.lane m.shaft m.arrival).bind s.reel).map Reel.id).getD 0

theorem State.coveringReel_some {s : State} {n : Lane} {sh : Shaft} {x : Nat} {h : Handle} (e : s.coveringReel n sh x = some h) :
    ∃ r, s.reel h = some r ∧ r.covers n sh x = true := State.find_reel e

theorem State.coveringReel_lane {s : State} {n : Lane} {sh : Shaft} {x : Nat} {h : Handle} {r : Reel}
    (e : s.coveringReel n sh x = some h) (there : s.reel h = some r) : r.lane = n := by
  obtain ⟨q, hq, covers⟩ := State.coveringReel_some e
  cases hq.symm.trans there
  exact (Reel.covers_iff.mp covers).2.1

/-- One lane of an operator mark (R98). -/
theorem State.flagLane_spec (s : State) (m : HeldMark) (l : LaneHit) :
    (s.flagLane m l).2 = s.flaggedId m l ∧ s.spotsKept (s.flagLane m l).1 ∧
    (∀ n, (s.flagLane m l).1.lane n = if n = l.lane ∧ s.coveringReel l.lane m.shaft m.arrival = none then
      { s.lane n with tally := satInc (s.lane n).tally } else s.lane n) ∧
    ∀ g, (s.flagLane m l).1.reel g = if s.coveringReel l.lane m.shaft m.arrival = some g then
      (s.reel g).map (s.landedReel ⟨.flag, m.arrival, l.offset, l.width, false⟩) else s.reel g := by
  unfold State.flagLane State.flaggedId
  cases found : s.coveringReel l.lane m.shaft m.arrival with
  | none =>
    refine ⟨rfl, .of_table rfl, fun n => ?_, fun g => rfl⟩
    simp only [and_true]
    refine (State.setLane_lane ..).trans ?_
    split
    · next e => rw [e]
    · rfl
  | some h =>
    obtain ⟨r, there, _⟩ := State.coveringReel_some found
    obtain ⟨d, land⟩ := State.land_there there (⟨.flag, m.arrival, l.offset, l.width, false⟩ : Mark)
    refine ⟨rfl, .land s h _, fun n => ?_, fun g => ?_⟩
    · rw [if_neg (fun h => by cases h.2)]
      have same := congrArg State.map land
      exact State.lane_of_map same n
    · refine (State.land_rewritten there _ g).trans ?_
      by_cases e : g = h
      · rw [if_pos e, if_pos (by rw [e]), e, there]
        rfl
      · rw [if_neg e, if_neg fun k => e (Option.some.inj k).symm]

/-- The lanes of an operator mark, one by one (R98). -/
theorem attribute_foldl (m : HeldMark) (ls : List LaneHit) (distinct : (ls.map LaneHit.lane).Nodup) (s : State) (ids : List Nat) :
    let done := ls.foldl (fun acc l => ((acc.1.flagLane m l).1, acc.2 ++ [(acc.1.flagLane m l).2])) (s, ids)
    done.2 = ids ++ ls.map (s.flaggedId m) ∧ s.spotsKept done.1 ∧
    (∀ n, done.1.lane n = if n ∈ ls.map LaneHit.lane ∧ s.coveringReel n m.shaft m.arrival = none then
      { s.lane n with tally := satInc (s.lane n).tally } else s.lane n) ∧
    (∀ g, (∀ l ∈ ls, s.coveringReel l.lane m.shaft m.arrival ≠ some g) → done.1.reel g = s.reel g) ∧
    ∀ l ∈ ls, ∀ g r, s.coveringReel l.lane m.shaft m.arrival = some g → s.reel g = some r → ∃ u : State,
      done.1.reel g = some (u.landedReel ⟨.flag, m.arrival, l.offset, l.width, false⟩ r) := by
  induction ls generalizing s ids with
  | nil => exact ⟨(List.append_nil _).symm, .refl s, fun n => (if_neg fun h => by simp at h).symm, fun g _ => rfl, fun l hl => by cases hl⟩
  | cons l ls ih =>
    obtain ⟨id, spots, lane, reel⟩ := s.flagLane_spec m l
    rw [List.map_cons, List.nodup_cons] at distinct
    obtain ⟨fresh, distinct⟩ := distinct
    obtain ⟨ids', spots', lanes', others', landed'⟩ := ih distinct (s.flagLane m l).1 (ids ++ [(s.flagLane m l).2])
    simp only [List.foldl_cons]
    generalize ls.foldl (fun acc l => ((acc.1.flagLane m l).1, acc.2 ++ [(acc.1.flagLane m l).2]))
      ((s.flagLane m l).1, ids ++ [(s.flagLane m l).2]) = done at *
    have covering (n : Lane) := spots.coveringReel n m.shaft m.arrival
    have found (k : LaneHit) : (s.flagLane m l).1.flaggedId m k = s.flaggedId m k := by
      unfold State.flaggedId
      rw [covering]
      cases s.coveringReel k.lane m.shaft m.arrival with
      | none => rfl
      | some g => exact congrArg (Option.getD · 0) (spots.id g)
    refine ⟨?_, spots.trans spots', fun n => ?_, fun g none => ?_, fun k hk g r cov there => ?_⟩
    · rw [ids', id, List.append_assoc, funext found]
      rfl
    · simp only [lanes', covering, lane, List.map_cons, List.mem_cons]
      by_cases e : n = l.lane
      · subst e
        simp only [fresh, false_and, if_false, true_or, true_and]
      · simp only [e, false_or, false_and, if_false]
    · rw [others' g fun k hk => by rw [covering]; exact none k (List.mem_cons_of_mem _ hk), reel,
        if_neg (none l List.mem_cons_self)]
    · obtain rfl | hk := List.mem_cons.mp hk
      · refine ⟨s, (others' g fun j hj => ?_).trans ?_⟩
        · rw [covering]
          intro e
          exact fresh (List.mem_map.mpr ⟨j, hj, (State.coveringReel_lane e there).symm.trans (State.coveringReel_lane cov there)⟩)
        · rw [reel, if_pos cov, there]
          rfl
      · refine landed' k hk g r (by rw [covering]; exact cov) ?_
        rw [reel, if_neg fun e => ?_, there]
        exact fresh (List.mem_map.mpr ⟨k, hk, (State.coveringReel_lane cov there).symm.trans (State.coveringReel_lane e there)⟩)

theorem State.namedLanes_lane (s : State) (lanes : BitVec 24) :
    (s.namedLanes lanes).map LaneHit.lane = allLanes.filter fun n => lanes.getLsbD n.val := by
  rw [State.namedLanes, List.map_map]
  exact List.map_id _

theorem named_nodup (lanes : BitVec 24) : (allLanes.filter fun n => lanes.getLsbD n.val).Nodup :=
  (List.nodup_finRange 24).filter _

theorem named_single (n : Lane) : (allLanes.filter fun m => (BitVec.ofNat 24 (2 ^ n.val)).getLsbD m.val) = [n] := by
  have test (m : Lane) : (BitVec.ofNat 24 (2 ^ n.val)).getLsbD m.val = decide (m = n) := by
    rw [BitVec.getLsbD_ofNat, decide_eq_true m.isLt, Bool.true_and, Nat.testBit_two_pow]
    exact decide_eq_decide.mpr ⟨fun e => Fin.ext e.symm, fun e => congrArg Fin.val e.symm⟩
  simp only [test]
  refine List.Perm.eq_singleton ((List.perm_ext_iff_of_nodup ((List.nodup_finRange 24).filter _) (List.nodup_singleton n)).mpr
    fun m => ?_)
  simp [List.mem_finRange]

/-! ## The requests of this section -/

theorem gradeOf_gradeByte (g : Option Grade) : gradeOf (gradeByte g).toNat = some g := by
  rcases g with _ | _ | _ | _ <;> rfl

theorem takeMark_placed {s : State} {m : HeldMark} (free : ∀ c ∈ s.position.latch.get m.shaft, m.arrival < c) :
    s.takeMark m = s.placeMark m := by
  refine if_neg fun held => ?_
  obtain ⟨c, stands, le⟩ := (Option.any_eq_true ..).mp (show (s.position.latch.get m.shaft).any _ = true from held)
  exact absurd (free c stands) (Nat.not_lt.mpr (of_decide_eq_true le))

/-- An ADD_MARK that the cut latch does not hold, carried out. -/
theorem addMark_placed {s : State} (takes : s.takesRequests) (sh : Shaft) (lanes : BitVec 24) (back : Word32) (some : lanes ≠ 0)
    (near : back.toNat ≤ 100000) (free : ∀ c ∈ s.position.latch.get sh, s.position.p - back.toNat < c) (q : Request)
    (hq : encodeRequest (.addMark (shaftByte sh) lanes back) = Option.some q) :
    let u := s.setPort (s.port.take q)
    let m := u.markOf sh lanes back.toNat
    exec (.addMark (shaftByte sh) lanes back) s = .next (s.settle ((u.attribute m).1.setPort
      (s.port.answered 0x35 (markCode (u.attribute m).2) (markAnswer (u.attribute m).2)))) := by
  intro u m
  have placed : u.addMark (shaftByte sh).toNat lanes back.toNat = u.placeMark m := by
    unfold State.addMark
    rw [shaftOf_shaftByte]
    exact (if_neg fun h => h.elim some (Nat.not_lt.mpr near)).trans (takeMark_placed free)
  show Host.Outcome.next (s.settle (s.carryOut _ fun t => t.addMark (shaftByte sh).toNat lanes back.toNat)) = _
  rw [State.carryOut_free hq takes, placed]
  obtain ⟨ls, t, n, d, frame⟩ := u.attribute_frame m
  have port : (u.attribute m).1.port = s.port.take q := by rw [frame]; rfl
  have code : q.code = 0x35 := by cases hq; rfl
  show Host.Outcome.next (s.settle ((u.attribute m).1.setPort ((u.attribute m).1.port.complete q.code _ _))) = _
  rw [port, code]
  rfl

/-- Settles O59. -/
theorem marksGradesAndRetirement : Obligations.MarksGradesAndRetirement := by
  unfold Obligations.MarksGradesAndRetirement
  intro s takes answers
  have name {id : Nat} {h : Handle} {r : Reel} (found : s.reelById id = some h) (there : s.reel h = some r) (p : Port) :
      (s.setPort p).named id = some (h, r) := State.named_eq found there
  refine ⟨fun sh lanes back some near ⟨c, latched, reached⟩ => ?_, fun sh lanes back some near => ?_,
    fun sh n back near => ?_, fun id h r found there => ⟨fun grade g code => ⟨fun other => ?_, fun doffed => ?_⟩,
      fun revision => ⟨fun other => ?_, fun doffed moved => ?_, fun doffed same => ?_⟩⟩⟩
  · have held (p : Port) : (s.setPort p).addMark (shaftByte sh).toNat lanes back.toNat =
        { state := s.setPort { p with held := Option.some ((s.setPort p).markOf sh lanes back.toNat) }, answer := none } := by
      unfold State.addMark
      rw [shaftOf_shaftByte]
      refine (if_neg fun h => h.elim some (Nat.not_lt.mpr near)).trans (if_pos ?_)
      exact (Option.any_eq_true ..).mpr ⟨c, latched, decide_eq_true reached⟩
    show Host.Outcome.next (s.settle (s.carryOut _ fun t => t.addMark (shaftByte sh).toNat lanes back.toNat)) = _
    rw [State.carryOut_free rfl takes, held]
    exact congrArg Host.Outcome.next (s.settle_setPort _)
  · intro x named id free
    generalize hq : encodeRequest (.addMark (shaftByte sh) lanes back) = e
    obtain ⟨q, rfl⟩ : ∃ q, e = Option.some q := ⟨_, hq.symm⟩
    let u := s.setPort (s.port.take q)
    let m := u.markOf sh lanes back.toNat
    obtain ⟨ls, t, k, d, frame⟩ := u.attribute_frame m
    have lanesOf : m.lanes.map LaneHit.lane = named := State.namedLanes_lane ..
    obtain ⟨ids, -, lane, others, landed⟩ := attribute_foldl m m.lanes (by rw [lanesOf]; exact named_nodup lanes) u []
    have ids : (u.attribute m).2 = named.map id := by
      rw [← lanesOf, List.map_map]
      exact ids
    have lane : ∀ n, (u.attribute m).1.lane n = _ := lane
    have others : ∀ g, _ → (u.attribute m).1.reel g = u.reel g := others
    obtain ⟨hold, digest, settled⟩ := s.settle_frame ((u.attribute m).1.setPort
      (s.port.answered 0x35 (markCode (u.attribute m).2) (markAnswer (u.attribute m).2)))
    refine ⟨_, addMark_placed takes sh lanes back some near free q hq, ?_, fun n => ?_, fun n hn h r cov there => ?_,
      fun h none => ?_⟩
    · rw [settled, frame, ids, markCode, List.any_map]
      rfl
    · rw [settled]
      refine (lane n).trans ?_
      rw [lanesOf]
      rfl
    · rw [← lanesOf] at hn
      obtain ⟨l, hl, rfl⟩ := List.mem_map.mp hn
      obtain ⟨v, e⟩ := landed l hl h r cov there
      obtain ⟨w, q, -⟩ := v.landedReel_eq ⟨.flag, m.arrival, l.offset, l.width, false⟩ r
      rw [Reel.landed_eq] at q
      refine ⟨v.landedReel ⟨.flag, m.arrival, l.offset, l.width, false⟩ r, ?_, ?_⟩
      · rw [settled]
        exact e
      · rw [q]
        exact ⟨rfl, rfl⟩
    · rw [settled]
      refine others h fun l hl => none l.lane ?_
      rw [← lanesOf]
      exact List.mem_map_of_mem hl
  · intro i x free
    generalize hq : encodeRequest i = e
    obtain ⟨q, rfl⟩ : ∃ q, e = Option.some q := ⟨_, hq.symm⟩
    have some : BitVec.ofNat 24 (2 ^ n.val) ≠ 0 := fun e => by simpa [e, allLanes] using named_single n
    let u := s.setPort (s.port.take q)
    let l : LaneHit := ⟨n, 0, (s.lane n).width⟩
    let m := u.markOf sh (BitVec.ofNat 24 (2 ^ n.val)) back.toNat
    have one : m.lanes = [l] := by
      show (allLanes.filter _).map _ = _
      rw [named_single]
      rfl
    have attributed : u.attribute m = ((u.flagLane m l).1, [(u.flagLane m l).2]) := by
      unfold State.attribute
      rw [one]
      rfl
    have run := addMark_placed takes sh (BitVec.ofNat 24 (2 ^ n.val)) back some near free q hq
    simp only [] at run
    rw [show u.attribute (u.markOf sh (BitVec.ofNat 24 (2 ^ n.val)) back.toNat) = _ from attributed] at run
    refine ⟨fun uncovered => ?_, fun h r covering there => ?_⟩
    · have flag : u.flagLane m l = (u.countUntracked n, 0) := by
        unfold State.flagLane
        rw [show u.coveringReel l.lane m.shaft m.arrival = none from uncovered]
      rw [run, flag]
      refine congrArg Host.Outcome.next (State.settle_same (State.feeds_eq (State.feedsUntracked_congr fun k => ?_) rfl rfl) rfl rfl rfl)
      show ((u.countUntracked n).lane k).enabled = true ∧ ((u.countUntracked n).lane k).untracked = true ↔ _
      rw [show (u.countUntracked n).lane k = if k = n then { s.lane n with tally := satInc (s.lane n).tally } else s.lane k
        from State.setLane_lane u n k _]
      split
      · next e => rw [e]
      · exact Iff.rfl
    · have flag : u.flagLane m l = (u.land h ⟨.flag, x, 0, (s.lane n).width, false⟩, r.id) := by
        unfold State.flagLane
        rw [show u.coveringReel l.lane m.shaft m.arrival = Option.some h from covering]
        have id : ((u.reel h).map Reel.id).getD 0 = r.id := congrArg (fun o => (o.map Reel.id).getD 0) there
        exact congrArg (Prod.mk _) id
      obtain ⟨d, land⟩ := State.land_there there ⟨.flag, x, 0, (s.lane n).width, false⟩
      obtain ⟨d', land'⟩ := State.land_there (s := u) there ⟨.flag, x, 0, (s.lane n).width, false⟩
      obtain ⟨hold, digest, settled⟩ := s.settle_frame ((u.land h ⟨.flag, x, 0, (s.lane n).width, false⟩).setPort
        (s.port.answered 0x35 (markCode [r.id]) (markAnswer [r.id])))
      refine ⟨_, run, ?_, fun ne => ?_⟩
      · rw [flag, settled, land, land']
        rfl
      · rw [flag, settled]
        show s.port.answered 0x35 (markCode [r.id]) _ = _
        rw [show markCode [r.id] = .ok by simp [markCode, ne]]
  · subst code
    refine settled_answer (q := ⟨0x36, bytes32 id ++ [gradeByte g]⟩) rfl takes ?_
    simp only [State.overrideGrade, gradeOf_gradeByte, name found there]
    exact if_neg other
  · subst code
    refine (congrArg Host.Outcome.next (settled_reply (q := ⟨0x36, bytes32 id ++ [gradeByte g]⟩)
      (t := s.setReel h (some (r.withOverride g))) (c := .ok) rfl takes ?_ rfl rfl rfl rfl rfl rfl)).trans ?_
    · simp only [State.overrideGrade, gradeOf_gradeByte, name found there]
      exact if_pos doffed
    · unfold Reel.withOverride
      split
      · next e => subst e; rfl
      · rfl
  · refine settled_answer (q := ⟨0x37, bytes32 id ++ bytes16 revision⟩) rfl takes ?_
    simp only [State.retire, name found there]
    exact if_pos other
  · refine settled_answer (q := ⟨0x37, bytes32 id ++ bytes16 revision⟩) rfl takes ?_
    simp only [State.retire, name found there]
    exact (if_neg (not_not.mpr doffed)).trans (if_pos moved)
  · obtain ⟨hold, digest, settled⟩ := s.settle_frame ((s.freeReel h r).setPort (s.port.answered 0x37 .ok []))
    have run : exec (.retire id revision) s = .next (s.settle ((s.freeReel h r).setPort (s.port.answered 0x37 .ok []))) := by
      refine congrArg Host.Outcome.next (settled_exec (q := ⟨0x37, bytes32 id ++ bytes16 revision⟩)
        (v := (s.freeReel h r).setPort (s.port.take _)) (c := .ok) rfl takes ?_ rfl)
      simp only [State.retire, name found there]
      exact (if_neg (not_not.mpr doffed)).trans (if_neg (not_not.mpr same))
    refine ⟨_, run, by rw [settled]; rfl, fun sh => ?_⟩
    refine (congrArg (·.shaft sh) settled).trans ((s.freeReel_shaft h r sh).trans ?_)
    unfold ShaftRec.retryRaised
    split <;> rfl

end Sys2Proof.Machine
end

section
/-! PROOF. Automatic attempts and the requests that ask for a change, withdraw it and unload a spindle (O46, O58). -/

namespace Sys2Proof.Machine

/-! ## Attempts and retries -/

/-- The conditions under which a waiting retry is made (R115). -/
def State.retries (s : State) (sh : Shaft) : Prop :=
  (s.shaft sh).phase = .winding ∧ (s.shaft sh).reason ≠ .none ∧ (s.settings.job.get sh).auto = true

theorem State.enterPending_short {s : State} {sh : Shaft} {unasked : Bool} (few : s.unreserved < (s.enabledLanes sh).length) :
    s.enterPending sh unasked = none := by
  obtain ⟨_, e⟩ | ⟨enough, _⟩ := s.enterPending_cases sh unasked
  · exact e
  · omega

theorem State.enterPending_met {s : State} {sh : Shaft} {unasked : Bool} (enough : (s.enabledLanes sh).length ≤ s.unreserved) :
    s.enterPending sh unasked = some { s with
      table := { s.table with
        reserved := s.table.reserved.set sh (s.table.reserved.get sh + (s.enabledLanes sh).length) }
      shafts := s.shafts.set sh ((s.shaft sh).pend unasked) } := by
  obtain ⟨few, _⟩ | ⟨_, e⟩ := s.enterPending_cases sh unasked
  · omega
  · exact e

theorem State.attempt_blocked {s : State} {sh : Shaft} (full : (s.shaft sh).spindle (s.shaft sh).active.other ≠ .empty) :
    s.attempt sh = s.setShaft sh { s.shaft sh with retry := true } := if_pos full

theorem State.attempt_short {s : State} {sh : Shaft} (empty : (s.shaft sh).spindle (s.shaft sh).active.other = .empty)
    (few : s.unreserved < (s.enabledLanes sh).length) :
    s.attempt sh = s.setShaft sh { s.shaft sh with retry := true, records := true } := by
  refine (if_neg (not_not.mpr empty)).trans ?_
  rw [State.enterPending_short few]

theorem State.attempt_enters {s : State} {sh : Shaft} (empty : (s.shaft sh).spindle (s.shaft sh).active.other = .empty)
    (enough : (s.enabledLanes sh).length ≤ s.unreserved) : s.attempt sh = { s with
      table := { s.table with
        reserved := s.table.reserved.set sh (s.table.reserved.get sh + (s.enabledLanes sh).length) }
      shafts := s.shafts.set sh ((s.shaft sh).pend true) } := by
  refine (if_neg (not_not.mpr empty)).trans ?_
  rw [State.enterPending_met enough]

theorem State.retryAttempt_none {s : State} {sh : Shaft} (h : (s.shaft sh).retry = false) : s.retryAttempt sh = s := by
  simp [State.retryAttempt, h]

theorem State.retryAttempt_cleared {s : State} {sh : Shaft} (h : (s.shaft sh).retry = true) (never : ¬ s.retries sh) :
    s.retryAttempt sh = s.setShaft sh { s.shaft sh with retry := false, retriesDue := 0 } := by
  refine (if_neg (by simp [h])).trans (if_neg never)

theorem State.retryAttempt_made {s : State} {sh : Shaft} (h : (s.shaft sh).retry = true) (made : s.retries sh) :
    s.retryAttempt sh = s.attempt sh := by
  refine (if_neg (by simp [h])).trans (if_pos made)

/-- What an attempt leaves of its shaft's record (R114, R115). -/
theorem State.attempt_shaft (s : State) (sh : Shaft) : ∃ ph cut retry n records short, (s.attempt sh).shaft sh = { s.shaft sh with
    phase := ph, cutReq := cut, retry := retry, retriesDue := n, records := records, short := short } := by
  by_cases full : (s.shaft sh).spindle (s.shaft sh).active.other ≠ .empty
  · rw [State.attempt_blocked full, State.setShaft_shaft_self]
    exact ⟨_, _, _, _, _, _, rfl⟩
  · by_cases few : s.unreserved < (s.enabledLanes sh).length
    · rw [State.attempt_short (not_not.mp full) few, State.setShaft_shaft_self]
      exact ⟨_, _, _, _, _, _, rfl⟩
    · rw [State.attempt_enters (not_not.mp full) (Nat.not_lt.mp few)]
      exact ⟨_, _, _, _, _, _, Pair.get_set_self ..⟩

theorem State.attempt_spindle (s : State) (sh : Shaft) (k : Spindle) :
    ((s.attempt sh).shaft sh).spindle k = (s.shaft sh).spindle k := by
  obtain ⟨_, _, _, _, _, _, e⟩ := s.attempt_shaft sh
  rw [e]
  rfl

/-- A retry leaves the spindle states as they are (R115). -/
theorem State.retryAttempt_spindle (s : State) (sh : Shaft) (k : Spindle) :
    ((s.retryAttempt sh).shaft sh).spindle k = (s.shaft sh).spindle k := by
  by_cases waits : (s.shaft sh).retry = true
  · by_cases made : s.retries sh
    · rw [State.retryAttempt_made waits made, s.attempt_spindle]
    · rw [State.retryAttempt_cleared waits made, State.setShaft_shaft_self]
      rfl
  · rw [State.retryAttempt_none (Bool.eq_false_iff.mpr waits)]

theorem ShaftRec.pend_eq (r : ShaftRec) (unasked : Bool) : r.pend unasked = { r with
    phase := .changePending, cutReq := true, retry := false, retriesDue := 0, records := false
    short := !r.windowOpen && !r.firstFree && unasked } := rfl

/-- Settles O46. -/
theorem automaticRetriesTestSpindleAndRecords : Obligations.AutomaticRetriesTestSpindleAndRecords := by
  unfold Obligations.AutomaticRetriesTestSpindleAndRecords
  intro sh due s r lanes enters
  refine ⟨fun none => congrArg Host.Outcome.next (if_pos none), fun some => ?_⟩
  let u := s.takeRetry sh
  have taken : u.shaft sh = { r with retriesDue := due } := by
    refine (Pair.get_set_self ..).trans ?_
    rw [some]
    rfl
  have retry : (u.shaft sh).retry = r.retry := by rw [taken]
  have retries : u.retries sh ↔ enters := by
    unfold State.retries
    rw [taken]
    exact Iff.rfl
  have run : exec (.automaticRetry sh) s = .next (s.settle (u.retryAttempt sh)) :=
    congrArg Host.Outcome.next (if_neg (by rw [some]; exact Nat.succ_ne_zero due))
  obtain ⟨hold, digest, settled⟩ := s.settle_frame (u.retryAttempt sh)
  obtain ⟨x, n, frame⟩ := u.retryAttempt_frame sh
  refine ⟨_, run, ?_, fun idle => ?_, fun waits never => ?_, fun waits made full => ?_, fun waits made empty few => ?_,
    fun waits made empty enough => ?_⟩
  · rw [settled, frame]
    cases sh <;> rfl
  all_goals rw [settled]
  · rw [State.retryAttempt_none (retry.trans idle)]
    exact ⟨taken, rfl⟩
  · rw [State.retryAttempt_cleared (retry.trans waits) (mt retries.mp never), taken]
    exact ⟨Pair.get_set_self .., rfl⟩
  all_goals rw [State.retryAttempt_made (retry.trans waits) (retries.mpr made)]
  · rw [State.attempt_blocked (by rw [taken]; exact full), taken]
    refine ⟨(Pair.get_set_self ..).trans ?_, rfl⟩
    rw [← waits]
  · rw [State.attempt_short (s := u) (by rw [taken]; exact empty) few, taken]
    refine ⟨(Pair.get_set_self ..).trans ?_, rfl⟩
    rw [← waits]
  · rw [State.attempt_enters (s := u) (by rw [taken]; exact empty) enough, taken]
    refine ⟨(Pair.get_set_self ..).trans ?_, rfl⟩
    rw [ShaftRec.pend_eq, Bool.and_true]
    rfl

/-! ## Unloading a spindle -/

/-- The state of a shaft whose FULL spindle has been unloaded, before a waiting retry is made (R124). -/
def State.emptied (s : State) (sh : Shaft) (sp : Spindle) : State :=
  ((s.doff sh sp false).refreshSpindles sh).raise .reelDoffed

theorem State.raise_shaft (s : State) (a : Alert) (sh : Shaft) : (s.raise a).shaft sh = s.shaft sh := rfl

theorem State.refreshSpindles_shaft (s : State) (sh : Shaft) : (s.refreshSpindles sh).shaft sh = { s.shaft sh with
    spindle1 := s.spindleStateOf sh .one, spindle2 := s.spindleStateOf sh .two } :=
  Pair.get_set_self ..

theorem State.refreshSpindles_other (s : State) (sh : Shaft) :
    (s.refreshSpindles sh).shaft (other sh) = s.shaft (other sh) := Pair.get_set_other ..

theorem State.doff_shaft (s : State) (sh : Shaft) (sp : Spindle) (assumed : Bool) (sh' : Shaft) :
    (s.doff sh sp assumed).shaft sh' = s.shaft sh' := State.mapReels_shaft ..

theorem State.emptied_shaft (s : State) (sh : Shaft) (sp : Spindle) : (s.emptied sh sp).shaft sh = { s.shaft sh with
    spindle1 := (s.doff sh sp false).spindleStateOf sh .one, spindle2 := (s.doff sh sp false).spindleStateOf sh .two } := by
  rw [State.emptied, State.raise_shaft, State.refreshSpindles_shaft, State.doff_shaft]

theorem State.emptied_spindle (s : State) (sh : Shaft) (sp sp' : Spindle) :
    ((s.emptied sh sp).shaft sh).spindle sp' = (s.doff sh sp false).spindleStateOf sh sp' := by
  rw [s.emptied_shaft]
  cases sp' <;> simp only [ShaftRec.spindle]

theorem State.emptied_other (s : State) (sh : Shaft) (sp : Spindle) :
    (s.emptied sh sp).shaft (other sh) = s.shaft (other sh) := by
  rw [State.emptied, State.raise_shaft, State.refreshSpindles_other, State.doff_shaft]

theorem State.unload_eq (s : State) (sh : Shaft) (sp : Spindle) : s.unload sh sp =
    if sp = (s.shaft sh).active.other then (s.emptied sh sp).retryAttempt sh else s.emptied sh sp := by
  have active : ((s.emptied sh sp).shaft sh).active = (s.shaft sh).active := by rw [s.emptied_shaft]
  rw [← active]
  unfold State.unload State.emptied
  rfl

theorem State.doff_reel (s : State) (sh : Shaft) (sp : Spindle) (assumed : Bool) (h : Handle) :
    (s.doff sh sp assumed).reel h = (s.reel h).map fun q => if q.shaft = sh ∧ q.spindle = sp ∧ q.state = .doffing then
      { q with state := .doffed, flags := { q.flags with unloadAssumed := q.flags.unloadAssumed || assumed } }.bump else q :=
  State.mapReels_reel ..

theorem State.countReels_congr {s t : State} {f : Reel → Bool} (h : ∀ g, (t.reel g).any f = (s.reel g).any f) :
    t.countReels f = s.countReels f := by
  simp only [State.countReels, h]

theorem State.countReels_zero {s : State} {f : Reel → Bool} (h : ∀ g, ∀ r ∈ s.reel g, f r = false) : s.countReels f = 0 := by
  refine List.length_eq_zero_iff.mpr (List.filter_eq_nil_iff.mpr fun g _ => ?_)
  cases there : s.reel g with
  | none => exact Bool.false_ne_true
  | some r => rw [Option.any_some, h g r there]; exact Bool.false_ne_true

/-- A spindle without WINDING and ENDED reels holds none after its DOFFING reels are doffed (R102). -/
theorem State.doff_empties {s : State} {sh : Shaft} {sp : Spindle} {assumed : Bool}
    (h : ∀ g, ∀ r ∈ s.reel g, r.shaft = sh → r.spindle = sp → ¬ r.isWound) :
    (s.doff sh sp assumed).recordsOn sh sp = 0 := by
  refine State.countReels_zero fun g r there => ?_
  rw [s.doff_reel] at there
  obtain ⟨q, hq, rfl⟩ := Option.mem_map.mp there
  have resting := h g q hq
  split
  · simp [Reel.onSpindle, Reel.bump]
  · next off =>
    by_cases on : q.shaft = sh ∧ q.spindle = sp
    · obtain ⟨shaft, spindle⟩ := on
      have unwound := resting shaft spindle
      have still : q.state ≠ .doffing := fun d => off ⟨shaft, spindle, d⟩
      cases state : q.state <;> simp_all [Reel.isWound, Reel.onSpindle]
    · simp only [Bool.and_eq_false_iff, decide_eq_false_iff_not]
      exact .inl (not_and_or.mp on)

theorem State.doff_recordsOn {s : State} {sh : Shaft} {sp sp' : Spindle} {assumed : Bool} (ne : sp' ≠ sp) :
    (s.doff sh sp assumed).recordsOn sh sp' = s.recordsOn sh sp' := by
  refine State.countReels_congr fun g => ?_
  rw [s.doff_reel]
  cases s.reel g with
  | none => rfl
  | some q =>
    rw [Option.map_some, Option.any_some, Option.any_some]
    split
    · next on => simp [Reel.bump, on.2.1, ne.symm]
    · rfl

/-- The spindle states after a FULL spindle has been unloaded (R102, R124). -/
theorem State.emptied_spindles {s : State} {sh : Shaft} {sp : Spindle} (wound : WoundLaw s) (law : SpindleLaw s)
    (full : (s.shaft sh).spindle sp = .full) : ((s.emptied sh sp).shaft sh).spindle sp = .empty ∧
      ((s.emptied sh sp).shaft sh).spindle sp.other = (s.shaft sh).spindle sp.other := by
  rw [s.emptied_spindle, s.emptied_spindle]
  refine ⟨if_pos (State.doff_empties fun g r there shaft spindle => ?_), ?_⟩
  · rw [law sh sp] at full
    have resting : ¬ ((s.shaft sh).phase ≠ .idle ∧ (s.shaft sh).active = sp) := fun active => by
      unfold State.spindleStateOf at full
      rw [if_pos active] at full
      split at full <;> cases full
    obtain ⟨on, _⟩ := wound g r there
    refine fun winds => resting ?_
    rw [← shaft, ← spindle]
    exact ⟨(on winds).1, (on winds).2.symm⟩
  · rw [law sh sp.other]
    unfold State.spindleStateOf
    rw [State.doff_recordsOn (by cases sp <;> decide), State.doff_shaft]

theorem State.emptied_frame (s : State) (sh : Shaft) (sp : Spindle) : ∃ v p q d, s.emptied sh sp = { s with
    table := { s.table with reels := v }
    shafts := s.shafts.set sh { s.shaft sh with spindle1 := p, spindle2 := q }
    digest := d } := by
  obtain ⟨v, hv⟩ := s.doff_frame sh sp false
  obtain ⟨p, q, hr⟩ := (s.doff sh sp false).refreshSpindles_frame sh
  obtain ⟨d, hd⟩ := ((s.doff sh sp false).refreshSpindles sh).raise_frame .reelDoffed
  refine ⟨v, p, q, d, hd.trans ?_⟩
  rw [hr, hv]
  rfl

theorem State.emptied_table (s : State) (sh : Shaft) (sp : Spindle) :
    (s.emptied sh sp).table = { s.table with reels := (s.emptied sh sp).table.reels } := by
  obtain ⟨v, p, q, d, e⟩ := s.emptied_frame sh sp
  rw [e]

/-- A spindle unloaded without a waiting retry that it lets be made (R115, R124). -/
theorem State.unload_still {s : State} {sh : Shaft} {sp : Spindle}
    (still : ¬ ((s.shaft sh).retry = true ∧ sp = (s.shaft sh).active.other)) : s.unload sh sp = s.emptied sh sp := by
  rw [s.unload_eq]
  split
  · next other =>
    refine State.retryAttempt_none ?_
    rw [s.emptied_shaft]
    exact Bool.eq_false_iff.mpr fun waits => still ⟨waits, other⟩
  · rfl

theorem State.emptied_retries (s : State) (sh : Shaft) (sp : Spindle) : (s.emptied sh sp).retries sh ↔ s.retries sh := by
  obtain ⟨v, p, q, d, e⟩ := s.emptied_frame sh sp
  unfold State.retries
  rw [s.emptied_shaft, e]

/-- A waiting retry cleared by the unloading (R115, R124). -/
theorem State.unload_cleared {s : State} {sh : Shaft} {sp : Spindle} (waits : (s.shaft sh).retry = true)
    (other : sp = (s.shaft sh).active.other) (never : ¬ s.retries sh) : s.unload sh sp =
      (s.emptied sh sp).setShaft sh { (s.emptied sh sp).shaft sh with retry := false, retriesDue := 0 } := by
  rw [s.unload_eq, if_pos other]
  exact State.retryAttempt_cleared (by rw [s.emptied_shaft]; exact waits) (mt (s.emptied_retries sh sp).mp never)

/-- A waiting retry made by the unloading (R115, R124). -/
theorem State.unload_made {s : State} {sh : Shaft} {sp : Spindle} (waits : (s.shaft sh).retry = true)
    (other : sp = (s.shaft sh).active.other) (made : s.retries sh) : s.unload sh sp = (s.emptied sh sp).attempt sh := by
  rw [s.unload_eq, if_pos other]
  exact State.retryAttempt_made (by rw [s.emptied_shaft]; exact waits) ((s.emptied_retries sh sp).mpr made)

/-- An unloading, by what the shaft controller makes of the waiting retry (R115, R124). -/
theorem State.unload_spec (s : State) (sh : Shaft) (sp : Spindle) : ∃ (e : State) (x y : SpindleState),
    e.shaft sh = { s.shaft sh with spindle1 := x, spindle2 := y } ∧ e.table = { s.table with reels := e.table.reels } ∧
    e.unreserved = s.unreserved ∧ e.enabledLanes sh = s.enabledLanes sh ∧
    (WoundLaw s → SpindleLaw s → (s.shaft sh).spindle sp = .full → (e.shaft sh).spindle sp = .empty ∧
      (e.shaft sh).spindle sp.other = (s.shaft sh).spindle sp.other) ∧
    (∀ k, ((s.unload sh sp).shaft sh).spindle k = (e.shaft sh).spindle k) ∧
    (¬ ((s.shaft sh).retry = true ∧ sp = (s.shaft sh).active.other) → s.unload sh sp = e) ∧
    ((s.shaft sh).retry = true → sp = (s.shaft sh).active.other → ¬ s.retries sh →
      s.unload sh sp = e.setShaft sh { e.shaft sh with retry := false, retriesDue := 0 }) ∧
    ((s.shaft sh).retry = true → sp = (s.shaft sh).active.other → s.retries sh → s.unload sh sp = e.attempt sh) := by
  obtain ⟨w, p, q, d, frame⟩ := s.emptied_frame sh sp
  refine ⟨s.emptied sh sp, p, q, ?_, s.emptied_table sh sp, ?_, ?_, State.emptied_spindles, fun k => ?_,
    State.unload_still, State.unload_cleared, State.unload_made⟩
  · rw [frame]
    exact Pair.get_set_self ..
  · rw [frame]
    rfl
  · rw [frame]
    rfl
  · rw [s.unload_eq]
    split
    · exact State.retryAttempt_spindle ..
    · rfl

theorem State.unload_beside (s : State) (sh : Shaft) (sp : Spindle) :
    (s.unload sh sp).digest = (s.emptied sh sp).digest ∧ (s.unload sh sp).table.reels = (s.emptied sh sp).table.reels := by
  rw [s.unload_eq]
  split
  · obtain ⟨r, n, e⟩ := (s.emptied sh sp).retryAttempt_frame sh
    rw [e]
    exact ⟨rfl, rfl⟩
  · exact ⟨rfl, rfl⟩

theorem State.unload_raises (s : State) (sh : Shaft) (sp : Spindle) :
    ((s.unload sh sp).digest.alerts[Alert.index .reelDoffed]).isSet = true := by
  rw [(s.unload_beside sh sp).1]
  have raised := State.raise_alert (((s.doff sh sp false).refreshSpindles sh)) .reelDoffed (Alert.index .reelDoffed)
  rw [if_pos rfl] at raised
  have set := congrArg (·.isSet) raised
  exact set

theorem State.reel_of_reels {s t : State} (h : t.table.reels = s.table.reels) (g : Handle) : t.reel g = s.reel g := by
  rw [State.reel, State.reel, h]

theorem State.unload_reel (s : State) (sh : Shaft) (sp : Spindle) (h : Handle) :
    (s.unload sh sp).reel h = (s.reel h).map fun q => if q.shaft = sh ∧ q.spindle = sp ∧ q.state = .doffing then
      { q with state := .doffed, revision := q.revision + 1 } else q := by
  have kept : (s.emptied sh sp).table.reels = (s.doff sh sp false).table.reels := by rw [State.emptied]; rfl
  rw [State.reel_of_reels ((s.unload_beside sh sp).2.trans kept), s.doff_reel]
  simp only [Bool.or_false]
  rfl

/-! ## The requests of a change -/

theorem State.releaseReserved_own (s : State) (sh : Shaft) : (s.releaseReserved sh).shaft sh = s.shaft sh := by
  obtain ⟨n, e⟩ := s.releaseReserved_frame sh
  rw [e]
  exact Pair.get_other_set ..

theorem State.feeds_of_shafts {s t : State} (untracked : t.feedsUntracked = s.feedsUntracked)
    (fault : t.position.fault = s.position.fault)
    (shafts : ∀ sh, (t.shaft sh).feedsNotUnloaded = (s.shaft sh).feedsNotUnloaded ∧ (t.shaft sh).records = (s.shaft sh).records ∧
      (t.shaft sh).feedsOverrun = (s.shaft sh).feedsOverrun ∧ (t.shaft sh).feedsPlanEnd = (s.shaft sh).feedsPlanEnd) :
    t.feeds .empty = s.feeds .empty := by
  obtain ⟨fullA, recordsA, overrunA, planEndA⟩ := shafts .a
  obtain ⟨fullB, recordsB, overrunB, planEndB⟩ := shafts .b
  simp only [State.shaft, Pair.get_a, Pair.get_b] at fullA recordsA overrunA planEndA fullB recordsB overrunB planEndB
  simp only [State.feeds, untracked, fault, fullA, recordsA, overrunA, planEndA, fullB, recordsB, overrunB, planEndB]

theorem onShaft_byte (s : State) (sh : Shaft) (act : Shaft → Reply) : s.onShaft (shaftByte sh).toNat act = act sh := by
  cases sh <;> rfl

/-- A change withdrawn (R117). -/
theorem State.withdrawChange_spec (s : State) (sh : Shaft) : ∃ n, s.withdrawChange sh = { s with
    table := { s.table with reserved := s.table.reserved.set sh 0 }
    shafts := (s.shafts.set (other sh) { s.shaft (other sh) with retriesDue := n }).set sh { s.shaft sh with
      phase := .winding, cutReq := false, retry := false, retriesDue := 0, short := false } } := by
  obtain ⟨n, e⟩ := s.releaseReserved_frame sh
  have own := s.releaseReserved_own sh
  refine ⟨n, ?_⟩
  unfold State.withdrawChange
  simp only [own]
  rw [e]
  rfl

/-- A CHANGE carried out and settled, by what the shaft controller makes of it. -/
theorem exec_change {s v : State} (takes : s.takesRequests) {sh : Shaft} {forced : Bool} {c : AnswerCode}
    (h : ∀ p, (s.setPort p).changeShaft forced sh = Reply.code (v.setPort p) c) :
    exec (.change (shaftByte sh) (if forced then 1 else 0)) s = .next (s.settle (v.setPort (s.port.answered 0x32 c []))) := by
  have asked (p : Port) : (match switchOf (if forced then (1 : Byte) else 0).toNat with
      | none => Reply.code (s.setPort p) .range
      | some f => (s.setPort p).onShaft (shaftByte sh).toNat ((s.setPort p).changeShaft f)) =
      Reply.code (v.setPort p) c := by
    rw [← h p]
    cases forced <;> exact onShaft_byte ..
  exact congrArg Host.Outcome.next (settled_exec (q := ⟨0x32, [shaftByte sh, if forced then 1 else 0]⟩) rfl takes
    (v := v.setPort (s.port.take _)) (asked _) rfl)

theorem exec_change_answer {s : State} (takes : s.takesRequests) {sh : Shaft} {forced : Bool} {c : AnswerCode}
    (h : ∀ p, (s.setPort p).changeShaft forced sh = Reply.code (s.setPort p) c) :
    exec (.change (shaftByte sh) (if forced then 1 else 0)) s = .next { s with port := s.port.answered 0x32 c [] } :=
  (exec_change takes h).trans (congrArg Host.Outcome.next (s.settle_setPort _))

theorem State.changeShaft_phase (s : State) (forced : Bool) (sh : Shaft) :
    s.changeShaft forced sh = match (s.shaft sh).phase with
      | .changePending => Reply.code s .ok
      | .idle => Reply.code s .state
      | .runout => Reply.code s .state
      | .winding => s.requestChange forced sh := rfl

/-- A CHANGE in WINDING that reaches the reservation (R113). -/
theorem State.changeShaft_winding {s : State} {forced : Bool} {sh : Shaft} (phase : (s.shaft sh).phase = .winding)
    (late : ¬ ((s.shaft sh).windowOpen = false ∧ forced = false ∧ (s.shaft sh).firstFree = false))
    (empty : (s.shaft sh).spindle (s.shaft sh).active.other = .empty) : s.changeShaft forced sh =
      match s.enterPending sh forced with
      | none => s.refuseRecords sh
      | some t => Reply.code t .ok := by
  rw [State.changeShaft_phase, phase]
  refine (if_neg ?_).trans (if_neg (not_not.mpr empty))
  simpa [and_assoc] using late

theorem State.refuseRecords_eq (s : State) (sh : Shaft) : s.refuseRecords sh = Reply.code (s.setShaft sh { s.shaft sh with
    records := (s.shaft sh).records || decide ((s.shaft sh).reason ≠ .none) }) .noRecords := by
  unfold State.refuseRecords
  split
  · next stands => simp only [stands, decide_true, Bool.or_true, ne_eq, not_false_eq_true]
  · next gone =>
    simp only [gone, decide_false, Bool.or_false]
    exact congrArg (Reply.code · .noRecords) (State.setShaft_self s sh).symm

/-- An UNLOADED of a FULL spindle, carried out and settled. -/
theorem exec_unloaded {s : State} (takes : s.takesRequests) {sh : Shaft} {sp : Spindle} (full : (s.shaft sh).spindle sp = .full)
    {q : Request} (hq : encodeRequest (.unloaded (shaftByte sh) (spindleByte sp)) = some q) :
    exec (.unloaded (shaftByte sh) (spindleByte sp)) s =
      .next (s.settle (((s.setPort (s.port.take q)).unload sh sp).setPort (s.port.answered 0x34 .ok []))) := by
  have act (p : Port) : (match spindleOf (spindleByte sp).toNat with
      | none => Reply.code (s.setPort p) .range
      | some sp => (s.setPort p).onShaft (shaftByte sh).toNat ((s.setPort p).unloadSpindle sp)) =
      Reply.code ((s.setPort p).unload sh sp) .ok := by
    cases sp <;> exact (onShaft_byte ..).trans (if_pos full)
  obtain ⟨v, n, x, d, frame⟩ := (s.setPort (s.port.take q)).unload_frame sh sp
  have code : q.code = 0x34 := by cases hq; rfl
  refine congrArg Host.Outcome.next ((settled_exec hq takes (act _) (by rw [frame]; rfl)).trans ?_)
  rw [code]

/-- Settles O58. -/
theorem changesAreAskedAndWithdrawn : Obligations.ChangesAreAskedAndWithdrawn := by
  unfold Obligations.ChangesAreAskedAndWithdrawn
  intro sh s takes r b spare lanes answers
  refine ⟨fun forced => ?_, fun other => ?_, fun pending => ?_, fun sp => ⟨fun other => ?_, fun full => ?_⟩⟩
  · intro i early
    refine ⟨fun phase => ?_, fun phase => ?_, fun phase isEarly => ?_, fun phase notEarly full => ?_,
      fun phase notEarly empty few => ?_, fun phase notEarly empty enough => ?_⟩
    · refine exec_change_answer takes fun p => ?_
      rw [State.changeShaft_phase, State.setPort_shaft, phase]
    · refine exec_change_answer takes fun p => ?_
      rw [State.changeShaft_phase, State.setPort_shaft]
      obtain phase | phase := phase
      · rw [phase]
      · rw [phase]
    · refine exec_change_answer takes fun p => ?_
      rw [State.changeShaft_phase, State.setPort_shaft, phase]
      obtain ⟨shut, unforced, first⟩ := isEarly
      exact if_pos (by simp [unforced]; exact ⟨shut, first⟩)
    · refine exec_change_answer takes fun p => ?_
      rw [State.changeShaft_phase, State.setPort_shaft, phase]
      exact (if_neg (by simpa [early, and_assoc] using notEarly)).trans (if_pos full)
    · have run := exec_change takes (v := s.setShaft sh { r with records := r.records || decide (r.reason ≠ .none) })
        (sh := sh) (forced := forced) (c := .noRecords) fun p => by
        rw [State.changeShaft_winding (s := s.setPort p) phase notEarly empty, State.enterPending_short (s := s.setPort p) few]
        exact State.refuseRecords_eq ..
      obtain ⟨hold, digest, settled⟩ := s.settle_frame ((s.setShaft sh { r with
        records := r.records || decide (r.reason ≠ .none) }).setPort (s.port.answered 0x32 .noRecords []))
      exact ⟨_, run, by rw [settled]; rfl⟩
    · have short : (!r.windowOpen && !r.firstFree && forced) = (!r.windowOpen && !r.firstFree) := by
        have flags : ¬ (r.windowOpen = false ∧ forced = false ∧ r.firstFree = false) := notEarly
        revert flags
        cases r.windowOpen <;> cases r.firstFree <;> cases forced <;> decide
      let v : State := { s with
        table := { s.table with reserved := s.table.reserved.set sh (s.table.reserved.get sh + lanes) }
        shafts := s.shafts.set sh (r.pend forced) }
      have run := exec_change takes (v := v) (sh := sh) (forced := forced) (c := .ok) fun p => by
        rw [State.changeShaft_winding (s := s.setPort p) phase notEarly empty, State.enterPending_met (s := s.setPort p) enough]
        rfl
      obtain ⟨hold, digest, settled⟩ := s.settle_frame (v.setPort (s.port.answered 0x32 .ok []))
      refine ⟨_, run, ?_⟩
      rw [settled, ← short]
      rfl
  · refine settled_answer (q := ⟨0x33, [b]⟩) rfl takes ((onShaft_byte ..).trans ?_)
    exact if_neg other
  · obtain ⟨n, frame⟩ := (s.setPort (s.port.take ⟨0x33, [b]⟩)).withdrawChange_spec sh
    let t : State := { s with
      table := { s.table with reserved := s.table.reserved.set sh 0 }
      shafts := (s.shafts.set (other sh) { s.shaft (other sh) with retriesDue := n }).set sh { r with
        phase := .winding, cutReq := false, retry := false, retriesDue := 0, short := false }
      port := s.port.answered 0x33 .ok [] }
    have own : t.shaft sh = { r with phase := .winding, cutReq := false, retry := false, retriesDue := 0, short := false } :=
      Pair.get_set_self ..
    have beside : t.shaft (other sh) = { s.shaft (other sh) with retriesDue := n } :=
      (Pair.get_set_other ..).trans (Pair.get_set_self ..)
    have same : s.settle t = t := by
      refine State.settle_same (State.feeds_of_shafts rfl rfl fun sh' => ?_) rfl rfl rfl
      obtain rfl | rfl : sh' = sh ∨ sh' = other sh := by cases sh <;> cases sh' <;> decide
      · rw [own]
        refine ⟨rfl, rfl, rfl, ?_⟩
        simp only [ShaftRec.feedsPlanEnd]
        rw [show (s.shaft sh').phase = .changePending from pending]
        rfl
      · rw [beside]
        exact ⟨rfl, rfl, rfl, rfl⟩
    have run : exec (.cancelChange b) s = .next t := by
      have act (p : Port) : (s.setPort p).onShaft b.toNat (s.setPort p).cancelChange =
          Reply.code ((s.setPort p).withdrawChange sh) .ok := (onShaft_byte ..).trans (if_pos pending)
      refine congrArg Host.Outcome.next ((settled_exec (q := ⟨0x33, [b]⟩) rfl takes (act _) (by rw [frame]; rfl)).trans ?_)
      rw [frame]
      exact same
    exact ⟨t, run, rfl, own, by rw [beside]⟩
  · refine settled_answer (q := ⟨0x34, [b, spindleByte sp]⟩) rfl takes ?_
    cases sp <;> exact (onShaft_byte ..).trans (if_neg other)
  · generalize hq : encodeRequest (.unloaded b (spindleByte sp)) = e
    obtain ⟨q, rfl⟩ : ∃ q, e = Option.some q := ⟨_, hq.symm⟩
    let u := s.setPort (s.port.take q)
    obtain ⟨v, n, x, d, frame⟩ := u.unload_frame sh sp
    obtain ⟨hold, digest, settled⟩ := s.settle_frame ((u.unload sh sp).setPort (s.port.answered 0x34 .ok []))
    have shaft (sh' : Shaft) : (s.settle ((u.unload sh sp).setPort (s.port.answered 0x34 .ok []))).shaft sh' =
        (u.unload sh sp).shaft sh' := by rw [settled]; rfl
    have table : (s.settle ((u.unload sh sp).setPort (s.port.answered 0x34 .ok []))).table = (u.unload sh sp).table := by
      rw [settled]; rfl
    refine ⟨_, exec_unloaded takes full hq, ?_, ?_, settle_isSet (u.unload_raises sh sp), fun h => ?_, fun still => ?_,
      fun tries never => ?_, fun tracking spindles => ?_⟩
    · rw [settled, frame]
      rfl
    · rw [shaft, frame]
      exact Pair.get_set_other ..
    · rw [State.reel_of_table table]
      exact u.unload_reel sh sp h
    all_goals
      obtain ⟨e, x, y, own, kept, spare', lanes', spun, spindle, idle, cleared, made⟩ := u.unload_spec sh sp
      have own : e.shaft sh = { r with spindle1 := x, spindle2 := y } := own
    · rw [shaft, table, idle still]
      exact ⟨by rw [own], kept⟩
    · rw [shaft, table, cleared tries.1 tries.2 never, State.setShaft_shaft_self]
      exact ⟨by rw [own], kept⟩
    · obtain ⟨_, wound, _⟩ := tracking
      obtain ⟨empty, beside⟩ := spun wound spindles full
      have free (tries : r.retry = true ∧ sp = r.active.other) : (e.shaft sh).spindle (e.shaft sh).active.other = .empty := by
        rw [show (e.shaft sh).active = r.active by rw [own], ← tries.2]
        exact empty
      refine ⟨?_, ?_, fun tries enters few => ?_, fun tries enters enough => ?_⟩
      · rw [shaft, spindle]
        exact empty
      · rw [shaft, spindle]
        exact beside
      · rw [shaft, table, made tries.1 tries.2 enters, State.attempt_short (free tries) (by rw [spare', lanes']; exact few),
          State.setShaft_shaft_self]
        have waits : (e.shaft sh).retry = true := by rw [own]; exact tries.1
        exact ⟨by rw [own, ← tries.1], kept⟩
      · rw [shaft, table, made tries.1 tries.2 enters,
          State.attempt_enters (free tries) (by rw [spare', lanes']; exact enough), lanes', kept]
        refine ⟨(Pair.get_set_self ..).trans ?_, rfl⟩
        simp only [State.shaft, Pair.get_set_self, ShaftRec.pend_eq, Bool.and_true]
        rw [show e.shafts.get sh = _ from own]
        rfl

end Sys2Proof.Machine
end

section
/-! PROOF. Thresholds that fire and the triggers of the sweep engine (O45, O47). -/

namespace Sys2Proof.Machine

/-! ## Thresholds -/

/-- A threshold that fires on a condition. -/
def State.fireIf (s : State) (sh : Shaft) (b : Bool) (k : Threshold) : State := if b then s.fire sh false k else s

/-- The thresholds that fire at an arrival that stands: its own, and the earlier ones that lie at or below it (R109). -/
def ThresholdSet.fires (th : ThresholdSet) (k : Threshold) (x : Nat) (j : Threshold) : Bool :=
  decide (j = k) || (decide (j ∈ earlierThresholds k) && !(th.get j).fired && decide ((th.get j).position ≤ x))

/-- A set of thresholds of which one fires on a condition. -/
def ThresholdSet.firedIf (th : ThresholdSet) (b : Bool) (k : Threshold) : ThresholdSet :=
  th.set k { th.get k with fired := (th.get k).fired || b }

theorem ThresholdSet.firedIf_false (th : ThresholdSet) (k : Threshold) : th.firedIf false k = th := by
  cases k <;> simp only [ThresholdSet.firedIf, ThresholdSet.set, ThresholdSet.get, Bool.or_false]

theorem ThresholdSet.firedIf_get (th : ThresholdSet) (b : Bool) (k j : Threshold) : (th.firedIf b k).get j =
    if j = k then { th.get j with fired := (th.get j).fired || b } else th.get j := by
  cases k <;> cases j <;> rfl

theorem ShaftRec.markFired_eq {r : ShaftRec} {th : ThresholdSet} (h : r.thresholds = some th) (k : Threshold) :
    r.markFired k = { r with thresholds := some (th.firedIf true k) } := by
  unfold ShaftRec.markFired
  rw [h]
  simp only [Option.map_some, ThresholdSet.firedIf, Bool.or_true]

theorem State.raiseIf_shaft (s : State) (c : Bool) (a : Alert) (sh : Shaft) : (s.raiseIf c a).shaft sh = s.shaft sh := by
  cases c <;> rfl

theorem State.raiseIf_settings (s : State) (c : Bool) (a : Alert) : (s.raiseIf c a).settings = s.settings := by
  cases c <;> rfl

/-- A shaft after a change-due event by length, before the automatic attempt (R111). -/
def State.dueByLength (s : State) (sh : Shaft) : State :=
  (s.setShaft sh { s.shaft sh with reason := .length }).raiseIf (decide ((s.shaft sh).reason ≠ .length)) (.changeDue sh)

theorem State.dueByLength_shaft (s : State) (sh : Shaft) :
    (s.dueByLength sh).shaft sh = { s.shaft sh with reason := .length } := by
  rw [State.dueByLength, State.raiseIf_shaft, State.setShaft_shaft_self]

theorem State.dueByLength_settings (s : State) (sh : Shaft) : (s.dueByLength sh).settings = s.settings := by
  rw [State.dueByLength, State.raiseIf_settings]
  rfl

/-- A change-due event by length, and the automatic attempt that it makes (R111, R115). -/
theorem State.changeDue_length (s : State) (sh : Shaft) : s.changeDue sh .length true =
    if (s.shaft sh).phase = .winding ∧ (s.settings.job.get sh).auto = true then (s.dueByLength sh).attempt sh
    else s.dueByLength sh := by
  have reason : decide (DueReason.after .length (s.shaft sh).reason ≠ (s.shaft sh).reason) =
      decide ((s.shaft sh).reason ≠ .length) := decide_eq_decide.mpr ne_comm
  have phase : ((s.dueByLength sh).shaft sh).phase = (s.shaft sh).phase := by rw [s.dueByLength_shaft]
  unfold State.changeDue
  simp only [reason, Bool.true_and, Bool.and_eq_true, decide_eq_true_eq]
  show (if ((s.dueByLength sh).shaft sh).phase = .winding ∧ ((s.dueByLength sh).settings.job.get sh).auto = true then
    (s.dueByLength sh).attempt sh else s.dueByLength sh) = _
  rw [phase, s.dueByLength_settings]

theorem State.changeDue_thresholds (s : State) (sh : Shaft) :
    ((s.changeDue sh .length true).shaft sh).thresholds = (s.shaft sh).thresholds := by
  rw [s.changeDue_length]
  split
  · obtain ⟨_, _, _, _, _, _, own⟩ := (s.dueByLength sh).attempt_shaft sh
    rw [own, s.dueByLength_shaft]
  · rw [s.dueByLength_shaft]

/-- A threshold that fires is the one that becomes fired. -/
theorem State.fireIf_thresholds {s : State} {sh : Shaft} {th : ThresholdSet} (h : (s.shaft sh).thresholds = some th) (b : Bool)
    (k : Threshold) : ((s.fireIf sh b k).shaft sh).thresholds = some (th.firedIf b k) := by
  cases b with
  | false => rw [th.firedIf_false]; exact h
  | true =>
    have marked : ((s.setShaft sh ((s.shaft sh).markFired k)).shaft sh).thresholds = some (th.firedIf true k) := by
      rw [State.setShaft_shaft_self, ShaftRec.markFired_eq h]
    cases k with
    | approach => exact marked
    | window => exact marked
    | due => exact (State.changeDue_thresholds ..).trans marked
    | overrun =>
      refine Eq.trans (congrArg ShaftRec.thresholds ?_) marked
      exact (State.raise_shaft ..).trans (State.mapReels_shaft ..)

theorem State.fireUpTo_cons {s : State} {sh : Shaft} {th : ThresholdSet} (h : (s.shaft sh).thresholds = some th) (x : Nat)
    (k : Threshold) (ks : List Threshold) : s.fireUpTo sh x false (k :: ks) =
      (s.fireIf sh (!(th.get k).fired && decide ((th.get k).position ≤ x)) k).fireUpTo sh x false ks := by
  unfold State.fireUpTo State.fireIf
  rw [List.foldl_cons, h]

/-- An arrival that stands: the four thresholds in their order, each firing on its condition (R109). -/
theorem State.takeThreshold_eq {s : State} {sh : Shaft} {k : Threshold} {x : Nat} {th : ThresholdSet}
    (h : (s.shaft sh).thresholds = some th) (stands : s.arrivalStands sh k x = true) : s.takeThreshold sh k x =
      (((s.fireIf sh (th.fires k x .approach) .approach).fireIf sh (th.fires k x .window) .window).fireIf sh
        (th.fires k x .due) .due).fireIf sh (th.fires k x .overrun) .overrun := by
  have first := State.fireIf_thresholds h (!(th.get .approach).fired && decide ((th.get .approach).position ≤ x)) .approach
  refine (if_pos stands).trans ?_
  cases k with
  | approach => rfl
  | window =>
    rw [earlierThresholds, State.fireUpTo_cons h]
    rfl
  | due =>
    rw [earlierThresholds, State.fireUpTo_cons h, State.fireUpTo_cons first]
    rfl
  | overrun =>
    rw [earlierThresholds, State.fireUpTo_cons h, State.fireUpTo_cons first,
      State.fireUpTo_cons (State.fireIf_thresholds first _ .window)]
    rfl

theorem State.fireIf_quiet {s : State} {sh : Shaft} {th : ThresholdSet} (h : (s.shaft sh).thresholds = some th) (b : Bool)
    {k : Threshold} (quiet : k = .approach ∨ k = .window) : ∃ d, s.fireIf sh b k = { s with
      shafts := s.shafts.set sh { s.shaft sh with thresholds := some (th.firedIf b k) }, digest := d } := by
  cases b with
  | false =>
    refine ⟨s.digest, ?_⟩
    rw [th.firedIf_false, ← h]
    exact (State.setShaft_self s sh).symm
  | true =>
    unfold State.fireIf State.fire
    rw [if_pos rfl, ShaftRec.markFired_eq h]
    obtain rfl | rfl := quiet
    · exact State.raise_frame ..
    · exact ⟨_, rfl⟩

/-- The due threshold: the reason LENGTH, and the automatic attempt (R111, R115). -/
theorem State.fireIf_due {s : State} {sh : Shaft} {th : ThresholdSet} (h : (s.shaft sh).thresholds = some th) (b : Bool) :
    ∃ d, let v : State := { s with
        shafts := s.shafts.set sh { s.shaft sh with
          thresholds := some (th.firedIf b .due), reason := if b then .length else (s.shaft sh).reason }
        digest := d }
      s.fireIf sh b .due = if b = true ∧ (s.shaft sh).phase = .winding ∧ (s.settings.job.get sh).auto = true then v.attempt sh
        else v := by
  cases b with
  | false =>
    refine ⟨s.digest, ?_⟩
    simp only [Bool.false_eq_true, false_and, if_false]
    rw [th.firedIf_false, ← h]
    exact (State.setShaft_self s sh).symm
  | true =>
    let w := s.setShaft sh { s.shaft sh with thresholds := some (th.firedIf true .due) }
    have own : w.shaft sh = { s.shaft sh with thresholds := some (th.firedIf true .due) } := State.setShaft_shaft_self ..
    obtain ⟨d, e⟩ := (w.setShaft sh { w.shaft sh with reason := .length }).raiseIf_frame
      (decide ((w.shaft sh).reason ≠ .length)) (.changeDue sh)
    have e : w.dueByLength sh = _ := e
    refine ⟨d, ?_⟩
    have fired : s.fireIf sh true .due = w.changeDue sh .length true := by
      unfold State.fireIf State.fire
      rw [if_pos rfl, ShaftRec.markFired_eq h]
      rfl
    rw [fired, w.changeDue_length, e, own]
    simp only [w, State.setShaft, State.setShafts, Pair.set_set, true_and, if_true]

/-- The overrun threshold: the flags of the WINDING reels (R112). -/
theorem State.fireIf_overrun {s : State} {sh : Shaft} {th : ThresholdSet} (h : (s.shaft sh).thresholds = some th) (b : Bool) :
    ∃ v d, s.fireIf sh b .overrun = { s with
      shafts := s.shafts.set sh { s.shaft sh with thresholds := some (th.firedIf b .overrun) }
      table := { s.table with reels := v }
      digest := d } := by
  cases b with
  | false =>
    refine ⟨s.table.reels, s.digest, ?_⟩
    rw [th.firedIf_false, ← h]
    exact (State.setShaft_self s sh).symm
  | true =>
    have fired : s.fireIf sh true .overrun = ((s.setShaft sh { s.shaft sh with
        thresholds := some (th.firedIf true .overrun) }).flagOverrun sh false).raise (.overrun sh) := by
      unfold State.fireIf State.fire
      rw [if_pos rfl, ShaftRec.markFired_eq h]
    obtain ⟨v, hv⟩ := State.flagOverrun_frame (s.setShaft sh { s.shaft sh with
      thresholds := some (th.firedIf true .overrun) }) sh false
    obtain ⟨d, hd⟩ := State.raise_frame ((s.setShaft sh { s.shaft sh with
      thresholds := some (th.firedIf true .overrun) }).flagOverrun sh false) (.overrun sh)
    refine ⟨v, d, (fired.trans hd).trans ?_⟩
    rw [hv]
    rfl

theorem State.fireIf_overrun_reel (s : State) (sh : Shaft) (g : Handle) : (s.fireIf sh true .overrun).reel g =
    (s.reel g).map fun r => if r.shaft = sh ∧ r.state = .winding then r.withFlags { r.flags with overrun := true } else r :=
  State.mapReels_reel (s.setShaft sh ((s.shaft sh).markFired .overrun)) _ g

/-- The alert that a threshold raises as it fires (R110 to R112). -/
def State.alertOf (s : State) (sh : Shaft) (i : Fin 20) : Threshold → Bool
  | .approach => decide (i = Alert.index (.approach sh))
  | .window => false
  | .due => decide ((s.shaft sh).reason ≠ .length) && decide (i = Alert.index (.changeDue sh))
  | .overrun => decide (i = Alert.index (.overrun sh))

theorem State.raise_isSet (s : State) (a : Alert) (i : Fin 20) :
    (s.raise a).digest.alerts[i].isSet = (s.digest.alerts[i].isSet || decide (i = a.index)) := by
  have set := s.raiseIf_isSet true a i
  rw [Bool.true_and] at set
  exact set

theorem State.attempt_digest (s : State) (sh : Shaft) : (s.attempt sh).digest = s.digest := by
  obtain ⟨r, n, e⟩ := s.attempt_frame sh
  rw [e]

theorem State.changeDue_isSet (s : State) (sh : Shaft) (i : Fin 20) : (s.changeDue sh .length true).digest.alerts[i].isSet =
    (s.digest.alerts[i].isSet || s.alertOf sh i .due) := by
  have kept : (s.changeDue sh .length true).digest = (s.dueByLength sh).digest := by
    rw [s.changeDue_length]
    split
    · exact State.attempt_digest ..
    · rfl
  rw [kept, State.dueByLength, State.raiseIf_isSet]
  rfl

theorem State.fireIf_isSet (s : State) (sh : Shaft) (b : Bool) (k : Threshold) (i : Fin 20) :
    (s.fireIf sh b k).digest.alerts[i].isSet = (s.digest.alerts[i].isSet || (b && s.alertOf sh i k)) := by
  cases b with
  | false => rw [Bool.false_and, Bool.or_false]; rfl
  | true =>
    rw [Bool.true_and]
    cases k with
    | approach => exact State.raise_isSet ..
    | window => exact (Bool.or_false _).symm
    | due =>
      refine (State.changeDue_isSet ..).trans ?_
      unfold State.alertOf
      rw [State.setShaft_shaft_self]
      rfl
    | overrun =>
      refine (State.raise_isSet ..).trans ?_
      rfl

/-- The shaft record while a threshold arrival is taken, the attempt set aside (R109 to R112). -/
def ShaftRec.dueWith (r : ShaftRec) (th : ThresholdSet) (due : Bool) : ShaftRec :=
  { r with thresholds := some th, reason := if due then .length else r.reason }

/-- The thresholds after an arrival that stands. -/
def ThresholdSet.firedAt (th : ThresholdSet) (k : Threshold) (x : Nat) : ThresholdSet :=
  (((th.firedIf (th.fires k x .approach) .approach).firedIf (th.fires k x .window) .window).firedIf (th.fires k x .due) .due).firedIf
    (th.fires k x .overrun) .overrun

theorem ThresholdSet.firedAt_get (th : ThresholdSet) (k : Threshold) (x : Nat) (j : Threshold) :
    (th.firedAt k x).get j = ⟨(th.get j).position, (th.get j).fired || th.fires k x j⟩ := by
  cases j <;> rfl

/-- An arrival that stands: what it leaves of the shaft and of the table (R109 to R115). -/
theorem State.takeThreshold_spec {s : State} {sh : Shaft} {k : Threshold} {x : Nat} {th : ThresholdSet}
    (h : (s.shaft sh).thresholds = some th) (stands : s.arrivalStands sh k x = true) : ∃ (u : State) (th' : ThresholdSet),
    (s.takeThreshold sh k x).shaft sh = { u.shaft sh with thresholds := some (th.firedAt k x) } ∧
    (s.takeThreshold sh k x).table.reserved = u.table.reserved ∧
    th'.window.fired = (th.firedAt k x).window.fired ∧
    ∃ v : State, v.shaft sh = (s.shaft sh).dueWith th' (th.fires k x .due) ∧ v.table = s.table ∧ v.map = s.map ∧
      u = if th.fires k x .due = true ∧ (s.shaft sh).phase = .winding ∧ (s.settings.job.get sh).auto = true then v.attempt sh
        else v := by
  have first := State.fireIf_thresholds h (th.fires k x .approach) .approach
  have second := State.fireIf_thresholds first (th.fires k x .window) .window
  have third := State.fireIf_thresholds second (th.fires k x .due) .due
  obtain ⟨d, e⟩ : ∃ d, (s.fireIf sh (th.fires k x .approach) .approach).fireIf sh (th.fires k x .window) .window = { s with
      shafts := s.shafts.set sh { s.shaft sh with
        thresholds := some ((th.firedIf (th.fires k x .approach) .approach).firedIf (th.fires k x .window) .window) }
      digest := d } := by
    obtain ⟨d₁, e₁⟩ := State.fireIf_quiet h (th.fires k x .approach) (.inl rfl)
    obtain ⟨d₂, e₂⟩ := State.fireIf_quiet first (th.fires k x .window) (.inr rfl)
    refine ⟨d₂, e₂.trans ?_⟩
    rw [e₁]
    simp only [State.shaft, Pair.set_set, Pair.get_set_self]
  obtain ⟨d₃, e₃⟩ := State.fireIf_due second (th.fires k x .due)
  obtain ⟨w, d₄, e₄⟩ := State.fireIf_overrun third (th.fires k x .overrun)
  let th' := ((th.firedIf (th.fires k x .approach) .approach).firedIf (th.fires k x .window) .window).firedIf (th.fires k x .due) .due
  let v : State := { s with shafts := s.shafts.set sh ((s.shaft sh).dueWith th' (th.fires k x .due)), digest := d₃ }
  let u := if th.fires k x .due = true ∧ (s.shaft sh).phase = .winding ∧ (s.settings.job.get sh).auto = true then v.attempt sh
    else v
  have due : ((s.fireIf sh (th.fires k x .approach) .approach).fireIf sh (th.fires k x .window) .window).fireIf sh
      (th.fires k x .due) .due = u := by
    rw [e₃, e]
    simp only [State.shaft, Pair.set_set, Pair.get_set_self]
    rfl
  rw [State.takeThreshold_eq h stands]
  refine ⟨u, th', ?_, ?_, rfl, v, Pair.get_set_self .., rfl, rfl, rfl⟩
  · rw [← due, e₄]
    exact Pair.get_set_self ..
  · rw [← due, e₄]

/-- The alerts that an arrival that stands raises (R110 to R112). -/
theorem State.takeThreshold_raises {s : State} {sh : Shaft} {k : Threshold} {x : Nat} {th : ThresholdSet}
    (h : (s.shaft sh).thresholds = some th) (stands : s.arrivalStands sh k x = true) {i : Fin 20} {j : Threshold}
    (fires : th.fires k x j = true) (raised : s.alertOf sh i j = true) :
    (s.takeThreshold sh k x).digest.alerts[i].isSet = true := by
  obtain ⟨d₁, e₁⟩ := State.fireIf_quiet h (th.fires k x .approach) (.inl rfl)
  obtain ⟨d₂, e₂⟩ := State.fireIf_quiet (State.fireIf_thresholds h (th.fires k x .approach) .approach) (th.fires k x .window) (.inr rfl)
  rw [State.takeThreshold_eq h stands]
  simp only [State.fireIf_isSet]
  cases j with
  | approach => simp [fires, raised]
  | window => cases raised
  | due =>
    have reason : (((s.fireIf sh (th.fires k x .approach) .approach).fireIf sh (th.fires k x .window) .window).shaft sh).reason =
        (s.shaft sh).reason := by
      rw [e₂, e₁]
      simp only [State.shaft, Pair.set_set, Pair.get_set_self]
    have same : ((s.fireIf sh (th.fires k x .approach) .approach).fireIf sh (th.fires k x .window) .window).alertOf sh i .due =
        s.alertOf sh i .due := by
      simp only [State.alertOf, reason]
    rw [same]
    simp [fires, raised]
  | overrun =>
    have same (u : State) : u.alertOf sh i .overrun = s.alertOf sh i .overrun := rfl
    rw [same]
    simp [fires, raised]

/-- The records after an arrival that stands: the overrun threshold alone flags them (R112). -/
theorem State.takeThreshold_reels {s : State} {sh : Shaft} {k : Threshold} {x : Nat} {th : ThresholdSet}
    (h : (s.shaft sh).thresholds = some th) (stands : s.arrivalStands sh k x = true) :
    (k ≠ .overrun → (s.takeThreshold sh k x).table.reels = s.table.reels) ∧
    (k = .overrun → ∀ g, (s.takeThreshold sh k x).reel g = (s.reel g).map fun r =>
      if r.shaft = sh ∧ r.state = .winding then r.withFlags { r.flags with overrun := true } else r) := by
  have first := State.fireIf_thresholds h (th.fires k x .approach) .approach
  have second := State.fireIf_thresholds first (th.fires k x .window) .window
  obtain ⟨d₁, e₁⟩ := State.fireIf_quiet h (th.fires k x .approach) (.inl rfl)
  obtain ⟨d₂, e₂⟩ := State.fireIf_quiet first (th.fires k x .window) (.inr rfl)
  obtain ⟨d₃, e₃⟩ := State.fireIf_due second (th.fires k x .due)
  have kept : (((s.fireIf sh (th.fires k x .approach) .approach).fireIf sh (th.fires k x .window) .window).fireIf sh
      (th.fires k x .due) .due).table.reels = s.table.reels := by
    rw [e₃]
    dsimp only
    split
    · obtain ⟨r, n, e⟩ := State.attempt_frame _ sh
      rw [e, e₂, e₁]
    · rw [e₂, e₁]
  rw [State.takeThreshold_eq h stands]
  refine ⟨fun other => ?_, fun overrun g => ?_⟩
  · have off : th.fires k x .overrun = false := by
      cases k with
      | overrun => exact absurd rfl other
      | _ => rfl
    rw [off]
    exact kept
  · subst overrun
    refine (State.fireIf_overrun_reel _ sh g).trans ?_
    rw [State.reel_of_reels kept]

theorem State.arrivalStands_eq {s : State} {sh : Shaft} {th : ThresholdSet} (h : (s.shaft sh).thresholds = some th)
    (k : Threshold) (x : Nat) : s.arrivalStands sh k x = (decide ((s.shaft sh).phase ≠ .idle) && !(th.get k).fired &&
      decide ((th.get k).position = x) && !((s.position.latch.get sh).any fun c => decide (c < x))) := by
  unfold State.arrivalStands
  rw [h]

/-- Settles O45. -/
theorem thresholdsFireOnce : Obligations.ThresholdsFireOnce := by
  unfold Obligations.ThresholdsFireOnce
  intro sh k a s found rest cutBelow r lanes
  let w : State := { s with position := { s.position with arrivals := rest } }
  have run : exec (.thresholdArrival sh k) s = .next (s.settle (w.takeThreshold sh k a.position)) := by
    have taken : s.takeArrival (.threshold sh k) = some (a, w) := by
      unfold State.takeArrival
      rw [found]
      rfl
    show Host.Outcome.next (match s.takeArrival (.threshold sh k) with | none => s | some (a, s1) => _) = _
    rw [taken]
  have discarded (h : w.arrivalStands sh k a.position = false) : exec (.thresholdArrival sh k) s = .next w := by
    rw [run]
    refine congrArg Host.Outcome.next ((congrArg s.settle (if_neg (by rw [h]; decide))).trans ?_)
    exact State.settle_untouched rfl rfl rfl rfl rfl rfl
  refine ⟨fun th set => ⟨fun stale => ?_, fun runs unfired here uncut => ?_⟩, fun unset => ?_⟩
  · refine discarded ?_
    rw [State.arrivalStands_eq (s := w) set]
    obtain idle | fired | elsewhere | cut := stale
    · rw [show (w.shaft sh).phase = .idle from idle]; rfl
    · rw [fired]; simp
    · simp [elsewhere]
    · rw [show (w.position.latch.get sh).any (fun c => decide (c < a.position)) = true from cut]; simp
  · have stands : w.arrivalStands sh k a.position = true := by
      rw [State.arrivalStands_eq (s := w) set, unfired,
        show (w.position.latch.get sh).any (fun c => decide (c < a.position)) = false from uncut]
      simp [here, show (w.shaft sh).phase ≠ .idle from runs]
    intro fires attempts
    obtain ⟨u, th', own, reserved, window, v, before, table, map, tried⟩ := State.takeThreshold_spec (s := w) set stands
    obtain ⟨same, flagged⟩ := State.takeThreshold_reels (s := w) set stands
    obtain ⟨r', n, reels, d, frame⟩ := w.takeThreshold_frame sh k a.position
    obtain ⟨hold, digest, settled⟩ := s.settle_frame (w.takeThreshold sh k a.position)
    have raises (i : Fin 20) (j : Threshold) (f : fires j = true) (raised : w.alertOf sh i j = true) :=
      settle_isSet (before := s) (State.takeThreshold_raises (s := w) set stands f raised)
    have shaft : (s.settle (w.takeThreshold sh k a.position)).shaft sh =
        { u.shaft sh with thresholds := some (th.firedAt k a.position) } := by
      rw [settled]
      exact own
    have kept : (s.settle (w.takeThreshold sh k a.position)).table.reserved = u.table.reserved := by
      rw [settled]
      exact reserved
    have spare : v.unreserved = s.table.free - (s.table.reserved.a + s.table.reserved.b) := by
      rw [State.unreserved, table]
    have enabled : (v.enabledLanes sh).length = lanes := by
      simp only [State.enabledLanes, State.lane_of_map map]
      rfl
    have quiet : ¬ attempts → u = v := fun h => tried.trans (if_neg h)
    have tries : attempts → u = v.attempt sh := fun h => tried.trans (if_pos h)
    have before : v.shaft sh = r.dueWith th' (fires .due) := before
    refine ⟨_, th.firedAt k a.position, run, ?_, th.firedAt_get k a.position, fun still => ?_, fun made full => ?_,
      fun made empty few => ?_, fun made empty enough => ?_, ?_, ?_, fun f => ?_, fun f changed => ?_, fun f => ⟨?_, ?_⟩,
      fun f => ?_⟩
    · rw [settled, frame]
    · rw [shaft, kept, quiet still, before, table]
      exact ⟨rfl, rfl⟩
    · rw [shaft, kept, tries made, State.attempt_blocked (by rw [before]; exact full), State.setShaft_shaft_self, before]
      exact ⟨rfl, congrArg ReelTable.reserved table⟩
    · rw [shaft, kept, tries made, State.attempt_short (by rw [before]; exact empty) (by rw [spare, enabled]; exact few),
        State.setShaft_shaft_self, before]
      exact ⟨rfl, congrArg ReelTable.reserved table⟩
    · have own : (v.attempt sh).shaft sh = (v.shaft sh).pend true ∧
          (v.attempt sh).table.reserved = s.table.reserved.set sh (s.table.reserved.get sh + lanes) := by
        rw [State.attempt_enters (by rw [before]; exact empty) (by rw [spare, enabled]; exact enough), enabled, table]
        exact ⟨Pair.get_set_self .., rfl⟩
      obtain ⟨own, taken⟩ := own
      have opened : (r.dueWith th' (fires .due)).windowOpen = (th.firedAt k a.position).window.fired := window
      rw [shaft, kept, tries made, own, taken, before, ShaftRec.pend_eq, Bool.and_true, opened]
      exact ⟨rfl, rfl⟩
    · rw [settled, frame]
    · rw [settled, frame]
      exact Pair.get_set_other ..
    · exact raises _ .approach f (decide_eq_true rfl)
    · refine raises _ .due f ?_
      have changed : (w.shaft sh).reason ≠ .length := changed
      simpa [State.alertOf] using changed
    · refine raises _ .overrun (by simp [fires, f]) (decide_eq_true rfl)
    · intro h q there shaft winds
      have reel : (s.settle (w.takeThreshold sh k a.position)).reel h = some (q.withFlags { q.flags with overrun := true }) := by
        rw [settled]
        refine (flagged f h).trans ?_
        rw [show w.reel h = some q from there, Option.map_some, if_pos ⟨shaft, winds⟩]
      refine ⟨_, reel, ?_⟩
      unfold Reel.withFlags
      split
      · next e => rw [← e]; exact ⟨rfl, rfl⟩
      · next e =>
        refine ⟨rfl, ?_⟩
        have fresh : q.flags.overrun ≠ true := fun set => e (by rw [← set])
        rw [if_neg fresh]
        rfl
    · have kept := same f
      rw [frame] at kept
      rw [settled, frame, show reels = s.table.reels from kept]
  · exact discarded (by unfold State.arrivalStands; rw [show (w.shaft sh).thresholds = none from unset])

end Sys2Proof.Machine
end

section
/-! PROOF. The sweep engine: its choice of work, the end of a sweep without WINDING records, and its triggers (O47). -/

namespace Sys2Proof.Machine

/-! ## The choice of a record -/

theorem find?_finRange {n : Nat} {p : Fin n → Bool} {a : Fin n} (holds : p a = true) (before : ∀ b, b < a → p b = false) :
    (List.finRange n).find? p = some a := by
  cases found : (List.finRange n).find? p with
  | none =>
    rw [List.find?_eq_none] at found
    exact absurd holds (found a (List.mem_finRange a))
  | some b =>
    obtain ⟨there, as, bs, split, earlier⟩ := List.find?_eq_some_iff_append.mp found
    have sorted : (as ++ b :: bs).Pairwise (· < ·) := split ▸ List.pairwise_lt_finRange n
    obtain ⟨_, tail, _⟩ := List.pairwise_append.mp sorted
    have mem : a ∈ as ++ b :: bs := split ▸ List.mem_finRange a
    obtain early | late := List.mem_append.mp mem
    · simp at earlier
      exact absurd holds (by simp [earlier a early])
    · obtain rfl | later := List.mem_cons.mp late
      · rfl
      · rw [before b ((List.pairwise_cons.mp tail).1 a later)] at there
        cases there

/-- The next WINDING record of a sweep (R130). -/
theorem State.nextWinding_some {s : State} {c : Nat} {h : Handle} {r : Reel} (there : s.reel h = some r)
    (winds : r.state = .winding) (ahead : c ≤ h.val)
    (first : ∀ g : Handle, c ≤ g.val → g < h → ∀ q ∈ s.reel g, q.state ≠ .winding) : s.nextWinding c = some h := by
  refine find?_finRange ?_ fun g before => ?_
  · simp [there, winds, ahead]
  · by_cases from' : c ≤ g.val
    · cases at' : s.reel g with
      | none => simp
      | some q => simp [first g from' before q at']
    · simp [from']

theorem State.nextWinding_none {s : State} {c : Nat} (h : ∀ g : Handle, c ≤ g.val → ∀ q ∈ s.reel g, q.state ≠ .winding) :
    s.nextWinding c = none := by
  refine List.find?_eq_none.mpr fun g _ => ?_
  cases there : s.reel g with
  | none => simp
  | some q =>
    have := h g
    simp_all

/-! ## The end of a sweep -/

theorem State.mapReels_self {s : State} {f : Reel → Reel} (h : ∀ g, ∀ r ∈ s.reel g, f r = r) : s.mapReels f = s := by
  have reels : (s.mapReels f).table.reels = s.table.reels := by
    refine Vector.ext fun i hi => ?_
    have here := s.mapReels_reel f ⟨i, hi⟩
    have same : (s.reel ⟨i, hi⟩).map f = s.reel ⟨i, hi⟩ := by
      cases there : s.reel ⟨i, hi⟩ with
      | none => rfl
      | some r => rw [Option.map_some, h _ r there]
    exact here.trans same
  have table : (s.mapReels f).table = s.table := by
    unfold State.mapReels at reels ⊢
    exact congrArg (fun v => { s.table with reels := v }) reels
  have e : s.mapReels f = { s with table := (s.mapReels f).table } := rfl
  rw [e, table]

/-- The shaft record as the end of a sweep writes its tension (R135, R137). -/
def State.tensioned (s : State) (sh : Shaft) : ShaftRec :=
  match (s.shaft sh).currentStep with
  | none => s.shaft sh
  | some st => if (s.shaft sh).phase = .idle then s.shaft sh else { s.shaft sh with tension := tensionAt st (s.dref sh st) }

theorem State.writeTension_eq (s : State) (sh : Shaft) : s.writeTension sh = s.setShaft sh (s.tensioned sh) := by
  unfold State.writeTension State.tensioned
  cases (s.shaft sh).currentStep with
  | none => exact (s.setShaft_self sh).symm
  | some st =>
    by_cases idle : (s.shaft sh).phase = .idle
    · simp only [if_pos idle]
      exact (s.setShaft_self sh).symm
    · simp only [if_neg idle]

theorem State.tensioned_eq (s : State) (sh : Shaft) : s.tensioned sh = { s.shaft sh with tension := (s.tensioned sh).tension } := by
  unfold State.tensioned
  split
  · rfl
  · split <;> rfl

theorem State.dref_congr {s t : State} (map : t.map = s.map) (table : t.table = s.table) (sh : Shaft) (st : PlanStep) :
    t.dref sh st = s.dref sh st := by
  obtain ⟨⟩ := s
  obtain ⟨⟩ := t
  cases map
  cases table
  rfl

/-- A tension follows from the map, the records and the shaft alone. -/
theorem State.tensioned_congr {s t : State} {sh : Shaft} (map : t.map = s.map) (table : t.table = s.table)
    (shaft : t.shaft sh = s.shaft sh) : t.tensioned sh = s.tensioned sh := by
  unfold State.tensioned
  simp only [shaft, State.dref_congr map table]

/-- The shaft records as the end of a sweep writes their tensions. -/
def State.tensions (s : State) : Pair ShaftRec := ⟨s.tensioned .a, s.tensioned .b⟩

theorem State.tensions_congr {s t : State} (map : t.map = s.map) (table : t.table = s.table) (shafts : t.shafts = s.shafts) :
    t.tensions = s.tensions := by
  have shaft (sh : Shaft) : t.shaft sh = s.shaft sh := by rw [State.shaft, State.shaft, shafts]
  rw [State.tensions, State.tensions, State.tensioned_congr map table (shaft .a), State.tensioned_congr map table (shaft .b)]

theorem State.writeTensions_eq (s : State) : (s.writeTension .a).writeTension .b = { s with shafts := s.tensions } := by
  rw [State.writeTension_eq, State.writeTension_eq,
    State.tensioned_congr (s := s) (t := s.setShaft .a (s.tensioned .a)) rfl rfl rfl]
  rfl

theorem State.tensions_shaft (s : State) (sh : Shaft) : s.tensions.get sh = { s.shaft sh with tension := (s.tensioned sh).tension } := by
  cases sh with
  | a => exact s.tensioned_eq .a
  | b => exact s.tensioned_eq .b

/-- Where no record winds, the end of a sweep writes the tensions alone (R134, R135). -/
theorem State.endSweep_idle {s : State} (idle : ∀ g, ∀ q ∈ s.reel g, q.state ≠ .winding) :
    s.endSweep = { s with shafts := s.tensions, engine := { s.engine with sweep := none } } := by
  have unflagged : s.flagLimits = s := State.mapReels_self fun g r there => if_neg (by
    simp [Reel.atLimit, idle g r there])
  have quiet (sh : Shaft) : s.gainsLimit sh = false := by
    refine Bool.eq_false_iff.mpr fun gains => ?_
    obtain ⟨g, _, some⟩ := List.any_eq_true.mp gains
    obtain ⟨r, there, limit⟩ := (Option.any_eq_true ..).mp some
    simp [Reel.atLimit, idle g r there] at limit
  unfold State.endSweep State.examineLimits
  rw [unflagged, quiet .a, quiet .b]
  show ((s.writeTension .a).writeTension .b).setEngine { ((s.writeTension .a).writeTension .b).engine with sweep := none } = _
  rw [s.writeTensions_eq]
  rfl

/-! ## Triggers -/

theorem State.beginVisit_eq {s : State} {h : Handle} {r : Reel} (there : s.reel h = some r) : s.beginVisit h = { s with
    table := { s.table with reels := s.table.reels.set h (some (r.liveRead s.position.p)) }
    engine := { s.engine with
      activity := .visiting (r.readings h (r.footageOf s.position.p)), sweep := some (h.val + 1) } } := by
  unfold State.beginVisit
  rw [there]
  rfl

/-- A sweep goes on to its next WINDING record (R130, R131). -/
theorem State.goOn_visits {s : State} {c : Nat} {h : Handle} {r : Reel} (there : s.reel h = some r)
    (winds : r.state = .winding) (ahead : c ≤ h.val)
    (first : ∀ g : Handle, c ≤ g.val → g < h → ∀ q ∈ s.reel g, q.state ≠ .winding) : s.goOn c = { s with
      table := { s.table with reels := s.table.reels.set h (some (r.liveRead s.position.p)) }
      engine := { s.engine with
        activity := .visiting (r.readings h (r.footageOf s.position.p)), sweep := some (h.val + 1) } } := by
  rw [State.goOn, State.nextWinding_some there winds ahead first]
  exact State.beginVisit_eq there

theorem State.goOn_ends {s : State} {c : Nat} (h : ∀ g : Handle, c ≤ g.val → ∀ q ∈ s.reel g, q.state ≠ .winding) :
    s.goOn c = s.endSweep := by
  rw [State.goOn, State.nextWinding_none h]

/-- An engine at rest that a trigger wakes goes through its records from the first (R129, R130). -/
theorem State.trigger_starts {s : State} (rest : s.engine = .initial) (awake : s.inReset = false) :
    s.trigger = (s.setEngine ⟨.idle, some 0, false, []⟩).goOn 0 := by
  obtain ⟨position, map, table, freeMarks, travel, shafts, engine, hold, port, link, digest, store, encoder, now, freeIndex,
    pending⟩ := s
  obtain rfl : engine = .initial := rest
  exact if_pos (⟨Eq.refl _, awake⟩ : Activity.idle = .idle ∧ _)

/-- A trigger of an engine at rest begins the visit of the first WINDING record (R129 to R131). -/
theorem State.trigger_visits {s : State} (rest : s.engine = .initial) (awake : s.inReset = false) {h : Handle} {r : Reel}
    (there : s.reel h = some r) (winds : r.state = .winding) (first : ∀ g, g < h → ∀ q ∈ s.reel g, q.state ≠ .winding) :
    s.trigger = { s with
      table := { s.table with reels := s.table.reels.set h (some (r.liveRead s.position.p)) }
      engine := ⟨.visiting (r.readings h (r.footageOf s.position.p)), some (h.val + 1), false, []⟩ } :=
  (State.trigger_starts rest awake).trans
    (State.goOn_visits (s := s.setEngine ⟨.idle, some 0, false, []⟩) there winds (Nat.zero_le _) fun g _ => first g)

/-- A trigger of an engine at rest without WINDING records ends its sweep at once (R129, R130, R135). -/
theorem State.trigger_idle {s : State} (rest : s.engine = .initial) (awake : s.inReset = false)
    (idle : ∀ g, ∀ q ∈ s.reel g, q.state ≠ .winding) : s.trigger = { s with shafts := s.tensions } := by
  rw [State.trigger_starts rest awake, State.goOn_ends (s := s.setEngine ⟨.idle, some 0, false, []⟩) fun g _ => idle g,
    State.endSweep_idle (s := s.setEngine ⟨.idle, some 0, false, []⟩) idle,
    State.tensions_congr (s := s) (t := s.setEngine ⟨.idle, some 0, false, []⟩) rfl rfl rfl]
  obtain ⟨position, map, table, freeMarks, travel, shafts, engine, hold, port, link, digest, store, encoder, now, freeIndex,
    pending⟩ := s
  obtain rfl : engine = .initial := rest
  rfl

theorem State.trigger_owed {s : State} (owed : s.engine.owed = true) : s.trigger = s := if_pos owed

theorem State.trigger_busy {s : State} (free : s.engine.owed = false) (busy : s.engine.activity ≠ .idle) :
    s.trigger = s.setEngine { s.engine with owed := true } := by
  refine (if_neg (by rw [free]; decide)).trans (if_neg fun h => busy h.1)

/-- The end of an event that has written tensions alone. -/
theorem State.settle_tensions {before after : State} (map : after.map = before.map) (position : after.position.fault = before.position.fault)
    (shafts : ∀ sh, ∃ x, after.shaft sh = { before.shaft sh with tension := x }) (travel : after.travel.free = before.travel.free)
    (marks : after.freeMarks = before.freeMarks) (hold : after.hold = before.hold) : before.settle after = after := by
  refine State.settle_same (State.feeds_of_shafts ?_ position fun sh => ?_) travel marks (by rw [hold])
  · rw [State.feedsUntracked, map]
    rfl
  · obtain ⟨x, e⟩ := shafts sh
    rw [e]
    exact ⟨rfl, rfl, rfl, rfl⟩

theorem State.armedAt_congr {s t : State} (h : t.position = s.position) {k : Watch} {x : Nat} : t.armedAt k x ↔ s.armedAt k x := by
  unfold State.armedAt State.watch
  rw [h]

/-- The sweep watch after it has been armed, and what the position unit keeps (R13, R128). -/
theorem State.armSweep_spec (s : State) (x : Nat) :
    (s.settings.sweepInterval ≠ 0 → x ≤ maxPosition → (s.armSweep x).armedAt .sweep x) ∧
    (s.settings.sweepInterval = 0 ∨ maxPosition < x → (s.armSweep x).watch .sweep = none) ∧
    (s.armSweep x).position = { s.position with
      watches := (s.armSweep x).position.watches
      arrivals := s.position.arrivals ++ (if s.settings.sweepInterval ≠ 0 ∧ x ≤ maxPosition ∧ x ≤ s.position.p then
        [⟨.sweep, x, s.position.p⟩] else []) } ∧
    ∀ k, k ≠ .sweep → (s.armSweep x).watch k = s.watch k := by
  by_cases off : s.settings.sweepInterval = 0 ∨ maxPosition < x
  · have e : s.armSweep x = s.disarm .sweep := if_pos off
    rw [e]
    refine ⟨fun on fits => absurd off (by omega), fun _ => s.watch_disarm .sweep, ?_, fun k other => s.watch_disarm_ne other⟩
    rw [if_neg (by omega), List.append_nil]
    rfl
  · have e : s.armSweep x = s.arm .sweep x := if_neg off
    rw [e]
    refine ⟨fun _ _ => s.armedAt_arm .sweep x, fun h => absurd h off, ?_, fun k other => s.watch_arm_ne x other⟩
    have arrivals := s.arrivals_arm .sweep x
    obtain ⟨w, l, frame⟩ := s.arm_frame .sweep x
    rw [frame] at arrivals ⊢
    have l : l = _ := arrivals
    rw [l]
    by_cases ahead : s.position.p < x
    · rw [if_pos ahead, if_neg (by omega), List.append_nil]
    · rw [if_neg ahead, if_pos (by omega)]

/-- Settles O47. -/
theorem triggersOweOneSweep : Obligations.TriggersOweOneSweep := by
  unfold Obligations.TriggersOweOneSweep
  intro s
  refine ⟨fun takes owed => ?_, fun takes free busy => ?_, fun takes rest h r there winds first => ?_,
    fun takes rest idle => ?_, fun reset => congrArg Host.Outcome.next (if_pos reset), fun none => ?_, fun a found awake => ?_⟩
  · exact settled_answer (q := ⟨0x38, []⟩) rfl takes (congrArg (Reply.code · .ok) (State.trigger_owed owed))
  · exact congrArg Host.Outcome.next (settled_reply (q := ⟨0x38, []⟩) (t := s.setEngine { s.engine with owed := true }) rfl takes
      (congrArg (Reply.code · .ok) (State.trigger_busy free busy)) rfl rfl rfl rfl rfl rfl)
  · obtain ⟨awake, _⟩ := id takes
    let u := s.setPort (s.port.take ⟨0x38, []⟩)
    exact congrArg Host.Outcome.next (settled_reply (q := ⟨0x38, []⟩) (t := { s with
      table := { s.table with reels := s.table.reels.set h (some (r.liveRead s.position.p)) }
      engine := ⟨.visiting (r.readings h (r.footageOf s.position.p)), some (h.val + 1), false, []⟩ }) rfl takes
      (congrArg (Reply.code · .ok) (State.trigger_visits (s := u) rest awake there winds first)) rfl rfl rfl rfl rfl rfl)
  · obtain ⟨awake, _⟩ := id takes
    let u := s.setPort (s.port.take ⟨0x38, []⟩)
    have e := State.trigger_idle (s := u) rest awake idle
    rw [State.tensions_congr (s := s) (t := u) rfl rfl rfl] at e
    have quiet := State.settle_tensions (before := s) (after := { s with shafts := s.tensions, port := s.port.answered 0x38 .ok [] })
      rfl rfl (fun sh => ⟨_, s.tensions_shaft sh⟩) rfl rfl rfl
    rw [s.writeTensions_eq]
    exact congrArg Host.Outcome.next ((settled_exec (q := ⟨0x38, []⟩) (v := { u with shafts := s.tensions }) rfl takes
      (congrArg (Reply.code · .ok) e) rfl).trans quiet)
  · have still : s.takeArrival .sweep = Option.none := by rw [State.takeArrival, none]
    refine congrArg Host.Outcome.next ?_
    split
    · rfl
    · rw [still]
  · let w : State := { s with position := { s.position with arrivals := s.position.arrivals.eraseP fun b => decide (b.watch = .sweep) } }
    have taken : s.takeArrival .sweep = some (a, w) := by
      unfold State.takeArrival
      rw [found]
      rfl
    obtain ⟨v, p, q, e, d, touched⟩ := w.trigger_touch
    have same : w.trigger.settings = s.settings := by rw [touched]
    have position : w.trigger.position = w.position := by rw [touched]
    let x := a.position + s.settings.sweepInterval
    have run : exec .sweepWatchArrival s = .next (s.settle (w.trigger.armSweep x)) := by
      refine congrArg Host.Outcome.next ((if_neg (by rw [awake]; decide)).trans ?_)
      rw [taken]
      show s.settle (w.trigger.armSweep (a.position + w.trigger.settings.sweepInterval)) = _
      rw [same]
    obtain ⟨ahead, off, moved, others⟩ := State.armSweep_spec w.trigger x
    rw [same] at ahead off moved
    rw [position] at moved
    obtain ⟨hold, digest, settled⟩ := s.settle_frame (w.trigger.armSweep x)
    have here : (s.settle (w.trigger.armSweep x)).position = (w.trigger.armSweep x).position := by rw [settled]
    have watch (k : Watch) : (s.settle (w.trigger.armSweep x)).watch k = (w.trigger.armSweep x).watch k := by
      rw [State.watch, State.watch, here]
    refine ⟨_, run, fun on fits => (State.armedAt_congr here).mpr (ahead on fits), fun rest => (watch _).trans (off rest), ?_,
      fun k other => ?_, fun busy => ?_, fun rest => ⟨fun h r there winds first => ?_, fun idle => ?_⟩⟩
    · rw [here]
      exact moved
    · rw [watch, others k other, State.watch, position]
      rfl
    all_goals
      obtain ⟨watches, arrivals, frame⟩ := w.trigger.armSweep_frame x
    · have owes : w.trigger = { w with engine := { s.engine with owed := true } } := by
        by_cases owed : s.engine.owed = true
        · rw [State.trigger_owed (s := w) owed, ← owed]
        · obtain owed' | busy := busy
          · exact absurd owed' owed
          · exact State.trigger_busy (s := w) (Bool.eq_false_iff.mpr owed) busy
      rw [owes] at frame
      rw [owes, State.settle_untouched (by rw [frame]) (by rw [frame]) (by rw [frame]) (by rw [frame]) (by rw [frame])
        (by rw [frame]), frame]
    · have visits := State.trigger_visits (s := w) rest awake there winds first
      rw [visits] at frame
      rw [visits, State.settle_untouched (by rw [frame]) (by rw [frame]) (by rw [frame]) (by rw [frame]) (by rw [frame])
        (by rw [frame]), frame]
    · have ends := State.trigger_idle (s := w) rest awake idle
      rw [State.tensions_congr (s := s) (t := w) rfl rfl rfl] at ends
      rw [ends] at frame
      have quiet := State.settle_tensions (before := s) (after := State.armSweep { w with shafts := s.tensions } x)
        (by rw [frame]) (by rw [frame]) (fun sh => by rw [frame]; exact ⟨_, s.tensions_shaft sh⟩) (by rw [frame])
        (by rw [frame]) (by rw [frame])
      rw [ends, quiet, s.writeTensions_eq, frame]

end Sys2Proof.Machine
end

section
/-! PROOF. The writes of a completed computation, and the engine's choice of its next one. -/

namespace Sys2Proof.Machine

/-! ## Records that computations leave as they are -/

/-- A record that a computation, a visit or the end of a sweep may have written. -/
def Reel.Near (r q : Reel) : Prop := ∃ d f v, q = { r with diameter := d, flags := f, revision := v }

theorem Reel.Near.refl (r : Reel) : r.Near r := ⟨_, _, _, Eq.refl _⟩

theorem Reel.withFlags_near (r : Reel) (d : Nat) (f : ReelFlags) : r.Near ({ r with diameter := d }.withFlags f) := by
  unfold Reel.withFlags
  split <;> exact ⟨_, _, _, rfl⟩

theorem Reel.withFlags_eq (r : Reel) (f : ReelFlags) : r.withFlags f = { r with
    flags := f, revision := r.revision + if f = r.flags then 0 else 1 } := by
  unfold Reel.withFlags
  split
  · next same => subst same; simp
  · rfl

/-! ## The write of a completed computation -/

/-- The write of a completed visit or of a completed closing computation (R131, R132). -/
def State.computed (s : State) (x : Readings) (visit : Bool) : State := if visit then s.writeVisit x else s.writeClosing x

/-- The record as the computation writes it. -/
def Reel.computedBy (r : Reel) (x : Readings) (visit : Bool) : Reel := if visit then r.visited x else r.closedWrite x

theorem State.computed_frame (s : State) (x : Readings) (visit : Bool) :
    ∃ v, s.computed x visit = { s with table := { s.table with reels := v } } := by
  cases visit with
  | false => exact s.writeClosing_frame x
  | true => exact s.writeVisit_frame x

theorem State.computed_reel (s : State) (x : Readings) (visit : Bool) (h : Handle) : (s.computed x visit).reel h =
    (s.reel h).map fun r => if h = x.handle ∧ r.id = x.id ∧ (visit = true → r.state = .winding) then r.computedBy x visit else r := by
  have others (u : State) (q : Reel) (c : Prop) [Decidable c] (k : s.reel x.handle = some q)
      (e : u = if c then s.setReel x.handle (some (q.computedBy x visit)) else s)
      (iff : c ↔ q.id = x.id ∧ (visit = true → q.state = .winding)) : u.reel h = (s.reel h).map fun r =>
        if h = x.handle ∧ r.id = x.id ∧ (visit = true → r.state = .winding) then r.computedBy x visit else r := by
    by_cases here : h = x.handle
    · subst here
      rw [e, k]
      by_cases test : c
      · rw [if_pos test, Option.map_some, if_pos ⟨rfl, iff.mp test⟩, State.setReel_reel, if_pos rfl]
      · rw [if_neg test, Option.map_some, if_neg fun ⟨_, a⟩ => test (iff.mpr a), k]
    · simp only [here, false_and, if_false, Option.map_id']
      rw [e]
      split
      · rw [State.setReel_reel, if_neg here]
      · rfl
  cases k : s.reel x.handle with
  | none =>
    have still : s.computed x visit = s := by
      cases visit <;> simp only [State.computed, State.writeVisit, State.writeClosing, k] <;> rfl
    rw [still]
    by_cases here : h = x.handle
    · rw [here, k]; rfl
    · simp [here]
  | some q =>
    cases visit with
    | false =>
      refine others _ q (q.id = x.id) k ?_ (by simp)
      show s.writeClosing x = _
      unfold State.writeClosing
      rw [k]
      rfl
    | true =>
      refine others _ q (q.id = x.id ∧ q.state = .winding) k ?_ (by simp)
      show s.writeVisit x = _
      unfold State.writeVisit
      rw [k]
      rfl

theorem Reel.computedBy_eq (r : Reel) (x : Readings) (visit : Bool) : r.computedBy x visit = { r with
    diameter := x.diameter
    flags := { r.flags with limited := r.flags.limited || x.clamped }
    revision := r.revision + if visit = true ∧ (r.flags.limited || x.clamped) = r.flags.limited then 0 else 1 } := by
  cases visit with
  | false => rfl
  | true =>
    have same : ({ r.flags with limited := r.flags.limited || x.clamped } : ReelFlags) = r.flags ↔
        (r.flags.limited || x.clamped) = r.flags.limited :=
      ⟨congrArg ReelFlags.limited, fun e => by rw [e]⟩
    show Reel.withFlags _ _ = _
    rw [Reel.withFlags_eq]
    simp only [same, true_and]

/-! ## The choice of work -/

theorem State.nextClosing_none {s : State} {l : List ClosingEntry} (h : ∀ e ∈ l, s.stale e) : s.nextClosing l = none := by
  induction l with
  | nil => rfl
  | cons e l ih =>
    have rest := ih fun o ho => h o (List.mem_cons_of_mem _ ho)
    unfold State.nextClosing
    cases there : s.reel e.handle with
    | none => exact rest
    | some r =>
      have other : r.id ≠ e.id := h e List.mem_cons_self r there
      simp only [other, if_false, rest]

theorem State.chooseWork_closes {s : State} {old later : List ClosingEntry} {e : ClosingEntry} {r : Reel}
    (list : s.engine.closing = old ++ e :: later) (stale : ∀ o ∈ old, s.stale o) (there : s.reel e.handle = some r)
    (same : r.id = e.id) : s.chooseWork = s.setEngine { s.engine with
      activity := .closing (r.readings e.handle r.footage), closing := later } := by
  have first := State.nextClosing_eq (s.setEngine { s.engine with activity := .idle }) (later := later) stale there same
  rw [← list] at first
  unfold State.chooseWork
  simp only [State.setEngine] at first ⊢
  rw [first]

theorem State.chooseWork_sweeps {s : State} (stale : ∀ e ∈ s.engine.closing, s.stale e) :
    s.chooseWork = (s.setEngine { s.engine with activity := .idle, closing := [] }).chooseSweep := by
  have none := State.nextClosing_none (s := s.setEngine { s.engine with activity := .idle }) stale
  unfold State.chooseWork
  simp only [State.setEngine] at none ⊢
  rw [none]

theorem State.startOwed_some {s : State} (owed : s.engine.owed = true) :
    s.startOwed = (s.setEngine { s.engine with owed := false, sweep := some 0 }).goOn 0 := if_pos owed

theorem State.startOwed_none {s : State} (owed : s.engine.owed = false) : s.startOwed = s := if_neg (by rw [owed]; decide)

theorem State.chooseSweep_none {s : State} (sweep : s.engine.sweep = none) : s.chooseSweep = s.startOwed := by
  rw [State.chooseSweep, sweep]

theorem State.chooseSweep_visits {s : State} {c : Nat} (sweep : s.engine.sweep = some c) {h : Handle} {r : Reel}
    (there : s.reel h = some r) (winds : r.state = .winding) (ahead : c ≤ h.val)
    (first : ∀ g : Handle, c ≤ g.val → g < h → ∀ q ∈ s.reel g, q.state ≠ .winding) : s.chooseSweep = { s with
      table := { s.table with reels := s.table.reels.set h (some (r.liveRead s.position.p)) }
      engine := { s.engine with
        activity := .visiting (r.readings h (r.footageOf s.position.p)), sweep := some (h.val + 1) } } := by
  rw [State.chooseSweep, sweep]
  show (match s.nextWinding c with | some h => s.beginVisit h | none => s.endSweep.startOwed) = _
  rw [State.nextWinding_some there winds ahead first]
  exact State.beginVisit_eq there

theorem State.chooseSweep_ends {s : State} {c : Nat} (sweep : s.engine.sweep = some c)
    (h : ∀ g : Handle, c ≤ g.val → ∀ q ∈ s.reel g, q.state ≠ .winding) : s.chooseSweep = s.endSweep.startOwed := by
  rw [State.chooseSweep, sweep]
  show (match s.nextWinding c with | some h => s.beginVisit h | none => s.endSweep.startOwed) = _
  rw [State.nextWinding_none h]

end Sys2Proof.Machine
end

section
/-! PROOF. The end of a sweep: the diameter limits, their alerts and reasons, and the winding tensions. -/

namespace Sys2Proof.Machine

/-! ## Change-due events -/

theorem State.attempt_phase (s : State) (sh : Shaft) :
    ((s.attempt sh).shaft sh).phase = (s.shaft sh).phase ∨ ((s.attempt sh).shaft sh).phase = .changePending := by
  by_cases full : (s.shaft sh).spindle (s.shaft sh).active.other ≠ .empty
  · rw [State.attempt_blocked full, State.setShaft_shaft_self]
    exact .inl rfl
  · by_cases few : s.unreserved < (s.enabledLanes sh).length
    · rw [State.attempt_short (not_not.mp full) few, State.setShaft_shaft_self]
      exact .inl rfl
    · rw [State.attempt_enters (not_not.mp full) (Nat.not_lt.mp few)]
      have own := congrArg ShaftRec.phase (Pair.get_set_self s.shafts sh ((s.shaft sh).pend true))
      exact .inr own

/-- What a change-due event leaves of its shaft's record, and the alert that it raises (R111, R115). -/
theorem State.changeDue_spec (s : State) (sh : Shaft) (event : DueReason) :
    let reason := event.after (s.shaft sh).reason
    let t := s.changeDue sh event true
    (∃ ph cut retry n records short, t.shaft sh = { s.shaft sh with
        phase := ph, cutReq := cut, retry := retry, retriesDue := n, records := records, short := short, reason := reason } ∧
      (ph = .idle ↔ (s.shaft sh).phase = .idle)) ∧
    ∀ i : Fin 20, t.digest.alerts[i].isSet =
      (s.digest.alerts[i].isSet || (decide (reason ≠ (s.shaft sh).reason) && decide (i = Alert.index (.changeDue sh)))) := by
  intro reason t
  let w := (s.setShaft sh { s.shaft sh with reason := reason }).raiseIf (decide (reason ≠ (s.shaft sh).reason)) (.changeDue sh)
  have own : w.shaft sh = { s.shaft sh with reason := reason } := by
    rw [State.raiseIf_shaft, State.setShaft_shaft_self]
  have alerts (i : Fin 20) : w.digest.alerts[i].isSet =
      (s.digest.alerts[i].isSet || (decide (reason ≠ (s.shaft sh).reason) && decide (i = Alert.index (.changeDue sh)))) :=
    State.raiseIf_isSet ..
  have cases : t = w ∨ ((w.shaft sh).phase = .winding ∧ t = w.attempt sh) := by
    have e : t = if true && decide ((w.shaft sh).phase = .winding) && (w.settings.job.get sh).auto then w.attempt sh else w := rfl
    rw [e]
    split
    · next c =>
      simp only [Bool.true_and, Bool.and_eq_true, decide_eq_true_eq] at c
      exact .inr ⟨c.1, rfl⟩
    · exact .inl rfl
  obtain e | ⟨phase, e⟩ := cases
  · rw [e]
    exact ⟨⟨_, _, _, _, _, _, own, Iff.rfl⟩, alerts⟩
  · obtain ⟨ph, cut, retry, n, records, short, changed⟩ := w.attempt_shaft sh
    have winds : (s.shaft sh).phase = .winding := by rw [own] at phase; exact phase
    have runs : ph ≠ .idle := by
      have moved := w.attempt_phase sh
      rw [changed, phase] at moved
      intro idle
      subst idle
      obtain h | h := moved <;> cases h
    rw [e]
    refine ⟨⟨ph, cut, retry, n, records, short, ?_, iff_of_false runs (by rw [winds]; decide)⟩, fun i => ?_⟩
    · rw [changed, own]
    · rw [State.attempt_digest]
      exact alerts i

/-! ## The diameter limits -/

/-- A record after the diameter-limit examination (R134). -/
def Reel.examined (r : Reel) : Reel := if r.atLimit then r.withFlags { r.flags with diaLimit := true } else r

theorem State.gainsLimit_iff {s : State} {sh : Shaft} : s.gainsLimit sh = true ↔ ∃ h, ∃ r ∈ s.reel h, r.shaft = sh ∧
    r.state = .winding ∧ r.flags.diaLimit = false ∧ r.limit ≤ r.diameter := by
  simp only [State.gainsLimit, List.any_eq_true, allHandles, List.mem_finRange, true_and, Option.any_eq_true, Reel.atLimit,
    Bool.and_eq_true, decide_eq_true_eq, Bool.not_eq_true', Option.mem_def]
  refine exists_congr fun h => exists_congr fun r => and_congr_right fun _ => ?_
  constructor
  · rintro ⟨⟨shaft, winds, limit⟩, fresh⟩
    exact ⟨shaft, winds, fresh, limit⟩
  · rintro ⟨shaft, winds, fresh, limit⟩
    exact ⟨⟨shaft, winds, limit⟩, fresh⟩

/-- The alerts of a shaft that gains DIA_LIMIT (R134). -/
def State.limitAlert (s : State) (sh : Shaft) (i : Fin 20) : Bool :=
  decide (i = Alert.index (.diaLimit sh)) ||
    (decide ((s.shaft sh).reason = .none) && decide (i = Alert.index (.changeDue sh)))

/-- What the announcement of a gained DIA_LIMIT leaves (R111, R134). -/
theorem State.announceLimit_spec (s : State) (gains : Bool) (sh : Shaft) :
    let t := s.announceLimit gains sh
    (∃ r n d, t = { s with
      table := { s.table with reserved := s.table.reserved.set sh n }, shafts := s.shafts.set sh r, digest := d }) ∧
    (gains = false → t.shaft sh = s.shaft sh) ∧
    (gains = true → ∃ ph cut retry n records short, t.shaft sh = { s.shaft sh with
        phase := ph, cutReq := cut, retry := retry, retriesDue := n, records := records, short := short
        reason := if (s.shaft sh).reason = .none then .diameter else (s.shaft sh).reason } ∧
      (ph = .idle ↔ (s.shaft sh).phase = .idle)) ∧
    ∀ i : Fin 20, t.digest.alerts[i].isSet = (s.digest.alerts[i].isSet || (gains && s.limitAlert sh i)) := by
  intro t
  cases gains with
  | false =>
    refine ⟨⟨s.shaft sh, s.table.reserved.get sh, s.digest, ?_⟩, fun _ => rfl, nofun, fun i => ?_⟩
    · have same : s.shafts.set sh (s.shaft sh) = s.shafts := Pair.set_get ..
      rw [Pair.set_get, same]
      rfl
    · rw [Bool.false_and, Bool.or_false]
      rfl
  | true =>
    have e : t = (s.raise (.diaLimit sh)).changeDue sh .diameter true := if_pos rfl
    obtain ⟨own, alerts⟩ := (s.raise (.diaLimit sh)).changeDue_spec sh .diameter
    obtain ⟨r, n, d, frame⟩ := (s.raise (.diaLimit sh)).changeDue_frame sh .diameter true
    have kept : (s.raise (.diaLimit sh)).shaft sh = s.shaft sh := rfl
    have after : DueReason.after .diameter (s.shaft sh).reason =
      if (s.shaft sh).reason = .none then .diameter else (s.shaft sh).reason := rfl
    refine ⟨⟨r, n, d, e.trans frame⟩, nofun, fun _ => ?_, fun i => ?_⟩
    · rw [e]
      exact own
    · have moved : decide (DueReason.after .diameter (s.shaft sh).reason ≠ (s.shaft sh).reason) =
          decide ((s.shaft sh).reason = .none) := by
        cases (s.shaft sh).reason <;> rfl
      rw [e, alerts i, State.raise_isSet, kept, moved, State.limitAlert, Bool.true_and, Bool.or_assoc]

/-- The diameter-limit examination (R134). -/
theorem State.examineLimits_spec (s : State) :
    let t := s.examineLimits
    (∃ v p q d, t = { s with table := { s.table with reels := v, reserved := p }, shafts := q, digest := d }) ∧
    (∀ h, t.reel h = (s.reel h).map Reel.examined) ∧
    (∀ sh, s.gainsLimit sh = false → t.shaft sh = s.shaft sh) ∧
    (∀ sh, s.gainsLimit sh = true → ∃ ph cut retry n records short, t.shaft sh = { s.shaft sh with
        phase := ph, cutReq := cut, retry := retry, retriesDue := n, records := records, short := short
        reason := if (s.shaft sh).reason = .none then .diameter else (s.shaft sh).reason } ∧
      (ph = .idle ↔ (s.shaft sh).phase = .idle)) ∧
    ∀ i : Fin 20, t.digest.alerts[i].isSet = (s.digest.alerts[i].isSet ||
      (s.gainsLimit .a && s.limitAlert .a i) || (s.gainsLimit .b && s.limitAlert .b i)) := by
  intro t
  obtain ⟨v, flagged⟩ : ∃ v, s.flagLimits = { s with table := { s.table with reels := v } } := ⟨_, rfl⟩
  have reels (h : Handle) : s.flagLimits.reel h = (s.reel h).map Reel.examined := State.mapReels_reel ..
  have shafts (sh : Shaft) : s.flagLimits.shaft sh = s.shaft sh := by rw [flagged]; rfl
  have digest : s.flagLimits.digest = s.digest := by rw [flagged]
  obtain ⟨⟨r₁, n₁, d₁, frame₁⟩, still₁, gains₁, alerts₁⟩ := s.flagLimits.announceLimit_spec (s.gainsLimit .a) .a
  obtain ⟨⟨r₂, n₂, d₂, frame₂⟩, still₂, gains₂, alerts₂⟩ :=
    (s.flagLimits.announceLimit (s.gainsLimit .a) .a).announceLimit_spec (s.gainsLimit .b) .b
  have e : t = (s.flagLimits.announceLimit (s.gainsLimit .a) .a).announceLimit (s.gainsLimit .b) .b := rfl
  have first : t.shaft .a = (s.flagLimits.announceLimit (s.gainsLimit .a) .a).shaft .a := by rw [e, frame₂]; rfl
  have second : (s.flagLimits.announceLimit (s.gainsLimit .a) .a).shaft .b = s.shaft .b := by
    have kept : s.flagLimits.shafts = s.shafts := by rw [flagged]
    rw [frame₁]
    show (s.flagLimits.shafts.set .a r₁).b = _
    rw [Pair.set_a_b, kept]
    rfl
  rw [shafts] at still₁ gains₁
  rw [second] at still₂ gains₂
  refine ⟨⟨v, (s.table.reserved.set .a n₁).set .b n₂, (s.shafts.set .a r₁).set .b r₂, d₂, ?_⟩, fun h => ?_, fun sh h => ?_,
    fun sh h => ?_, fun i => ?_⟩
  · rw [e, frame₂, frame₁, flagged]
  · refine (State.reel_of_reels (s := s.flagLimits) ?_ h).trans (reels h)
    rw [e, frame₂, frame₁]
  · cases sh with
    | a => exact first.trans (still₁ h)
    | b => exact still₂ h
  · cases sh with
    | a =>
      rw [first]
      exact gains₁ h
    | b => exact gains₂ h
  · have same₁ : s.flagLimits.limitAlert .a i = s.limitAlert .a i := by rw [State.limitAlert, State.limitAlert, shafts]
    have same₂ : (s.flagLimits.announceLimit (s.gainsLimit .a) .a).limitAlert .b i = s.limitAlert .b i := by
      rw [State.limitAlert, State.limitAlert, second]
    rw [e, alerts₂ i, alerts₁ i, same₁, same₂, digest]

/-! ## The end of a sweep -/

theorem State.endSweep_eq (s : State) : s.endSweep = { s.examineLimits with
    shafts := s.examineLimits.tensions, engine := { s.examineLimits.engine with sweep := none } } := by
  show ((s.examineLimits.writeTension .a).writeTension .b).setEngine
    { ((s.examineLimits.writeTension .a).writeTension .b).engine with sweep := none } = _
  rw [State.writeTensions_eq]
  rfl

theorem State.endSweep_shaft (s : State) (sh : Shaft) : s.endSweep.shaft sh = s.examineLimits.tensioned sh := by
  rw [State.endSweep_eq]
  cases sh <;> rfl

theorem State.endSweep_reel (s : State) (h : Handle) : s.endSweep.reel h = (s.reel h).map Reel.examined := by
  obtain ⟨_, reels, _⟩ := s.examineLimits_spec
  rw [State.endSweep_eq, ← reels h]
  rfl

theorem State.endSweep_frame (s : State) : ∃ v p q d, s.endSweep = { s with
    table := { s.table with reels := v, reserved := p }, shafts := q, digest := d, engine := { s.engine with sweep := none } } := by
  obtain ⟨⟨v, p, q, d, frame⟩, _⟩ := s.examineLimits_spec
  refine ⟨v, p, s.examineLimits.tensions, d, s.endSweep_eq.trans ?_⟩
  rw [frame]

/-! ## Tensions -/

/-- What the tensions read of the records. -/
def Reel.gauge (r : Reel) : Shaft × ReelState × Nat := (r.shaft, r.state, r.diameter)

theorem State.referenceDiameter_congr {s t : State} (map : t.map = s.map)
    (reels : ∀ h, (t.reel h).map Reel.gauge = (s.reel h).map Reel.gauge) (sh : Shaft) :
    t.referenceDiameter sh = s.referenceDiameter sh := by
  have diameters (h : Handle) : (t.reel h).map Reel.diameter = (s.reel h).map Reel.diameter := by
    have same := congrArg (Option.map fun g : Shaft × ReelState × Nat => g.2.2) (reels h)
    rw [Option.map_map, Option.map_map] at same
    exact same
  unfold State.referenceDiameter
  simp only [State.lane_of_map map, diameters]

theorem State.greatestDiameter_congr {s t : State} (reels : ∀ h, (t.reel h).map Reel.gauge = (s.reel h).map Reel.gauge) (sh : Shaft) :
    t.greatestDiameter sh = s.greatestDiameter sh := by
  unfold State.greatestDiameter
  congr 1
  funext m h
  have same := reels h
  cases ht : t.reel h <;> cases hs : s.reel h <;>
    simp only [ht, hs, Option.map_none, Option.map_some, Option.some.injEq, reduceCtorEq, Reel.gauge, Prod.mk.injEq] at same
  · rfl
  · obtain ⟨shaft, state, diameter⟩ := same
    simp only [shaft, state, diameter]

theorem Reel.examined_gauge (r : Reel) : r.examined.gauge = r.gauge := by
  unfold Reel.examined
  split
  · rw [Reel.withFlags_eq]
    rfl
  · rfl

theorem State.examineLimits_dref (s : State) (sh : Shaft) (st : PlanStep) : s.examineLimits.dref sh st = s.dref sh st := by
  obtain ⟨⟨v, p, q, d, frame⟩, reels, _⟩ := s.examineLimits_spec
  have gauges (h : Handle) : (s.examineLimits.reel h).map Reel.gauge = (s.reel h).map Reel.gauge := by
    rw [reels h, Option.map_map]
    congr 1
    funext r
    exact r.examined_gauge
  unfold State.dref
  rw [State.referenceDiameter_congr (by rw [frame]) gauges, State.greatestDiameter_congr gauges]

/-- What the end of a sweep leaves of a shaft (R134 to R137). -/
theorem State.endSweep_spec (s : State) (sh : Shaft) :
    (s.gainsLimit sh = false → s.endSweep.shaft sh = { s.shaft sh with tension := (s.endSweep.shaft sh).tension }) ∧
    (s.gainsLimit sh = true → (s.endSweep.shaft sh).reason =
      if (s.shaft sh).reason = .none then .diameter else (s.shaft sh).reason) ∧
    ((s.shaft sh).phase = .idle → (s.endSweep.shaft sh).tension = (s.shaft sh).tension) ∧
    ∀ st, (s.shaft sh).currentStep = some st → (s.shaft sh).phase ≠ .idle →
      (s.endSweep.shaft sh).tension = tensionAt st (s.dref sh st) := by
  obtain ⟨_, _, still, gains, _⟩ := s.examineLimits_spec
  have kept : (s.examineLimits.shaft sh).currentStep = (s.shaft sh).currentStep ∧
      ((s.examineLimits.shaft sh).phase = .idle ↔ (s.shaft sh).phase = .idle) ∧
      (s.examineLimits.shaft sh).tension = (s.shaft sh).tension := by
    cases g : s.gainsLimit sh with
    | false => rw [still sh g]; exact ⟨rfl, Iff.rfl, rfl⟩
    | true =>
      obtain ⟨_, _, _, _, _, _, e, phase⟩ := gains sh g
      rw [e]
      exact ⟨rfl, phase, rfl⟩
  obtain ⟨step, phase, tension⟩ := kept
  rw [s.endSweep_shaft]
  refine ⟨fun g => ?_, fun g => ?_, fun idle => ?_, fun st current runs => ?_⟩
  · rw [← still sh g]
    exact State.tensioned_eq ..
  · obtain ⟨_, _, _, _, _, _, e, _⟩ := gains sh g
    rw [State.tensioned_eq, e]
  · unfold State.tensioned
    split
    · exact tension
    · rw [if_pos (phase.mpr idle)]
      exact tension
  · unfold State.tensioned
    rw [step, current]
    show ShaftRec.tension (if _ then _ else _) = _
    rw [if_neg (mt phase.mp runs), s.examineLimits_dref]

/-- A second end of the same sweep writes the same tensions. -/
theorem State.endSweep_tensions (s : State) : s.endSweep.tensions = s.endSweep.shafts := by
  have again (sh : Shaft) : s.endSweep.tensioned sh = s.endSweep.shaft sh := by
    have own := s.endSweep_shaft sh
    have dref (st : PlanStep) : s.endSweep.dref sh st = s.examineLimits.dref sh st := by
      rw [State.endSweep_eq]
      exact State.dref_congr rfl rfl sh st
    have parts : (s.endSweep.shaft sh).currentStep = (s.examineLimits.shaft sh).currentStep ∧
        (s.endSweep.shaft sh).phase = (s.examineLimits.shaft sh).phase := by
      rw [own, State.tensioned_eq]
      exact ⟨rfl, rfl⟩
    obtain ⟨step, phase⟩ := parts
    rw [State.tensioned, step, phase]
    cases current : (s.examineLimits.shaft sh).currentStep with
    | none => rfl
    | some st =>
      by_cases idle : (s.examineLimits.shaft sh).phase = .idle
      · simp only [if_pos idle]
      · simp only [if_neg idle, dref]
        have e : s.examineLimits.tensioned sh = { s.examineLimits.shaft sh with
            tension := tensionAt st (s.examineLimits.dref sh st) } := by
          unfold State.tensioned
          rw [current]
          exact if_neg idle
        rw [own, e]
  rw [State.tensions, again, again]
  rfl

/-- An owed sweep that starts where the tensions stand keeps the shafts and the alerts, unless it ends with records that
wind. -/
theorem State.startOwed_kept {s : State} (stand : s.tensions = s.shafts) :
    s.startOwed.shafts = s.shafts ∧ s.startOwed.digest = s.digest := by
  cases owed : s.engine.owed with
  | false => rw [State.startOwed_none owed]; exact ⟨rfl, rfl⟩
  | true =>
    let v := s.setEngine { s.engine with owed := false, sweep := some 0 }
    rw [State.startOwed_some owed]
    by_cases winds : ∃ h r, s.reel h = some r ∧ r.state = .winding
    · have some : (v.nextWinding 0).isSome := by
        obtain ⟨h, r, there, winds⟩ := winds
        refine List.find?_isSome.mpr ⟨h, List.mem_finRange h, ?_⟩
        simp [show v.reel h = some r from there, winds]
      obtain ⟨h, found⟩ := Option.isSome_iff_exists.mp some
      have e : v.goOn 0 = v.beginVisit h := by rw [State.goOn, found]
      rw [e]
      unfold State.beginVisit
      split <;> exact ⟨rfl, rfl⟩
    · have idle : ∀ g, ∀ q ∈ v.reel g, q.state ≠ .winding := fun g q there w => winds ⟨g, q, there, w⟩
      rw [State.goOn_ends (s := v) fun g _ => idle g, State.endSweep_idle idle,
        State.tensions_congr (s := s) (t := v) rfl rfl rfl, stand]
      exact ⟨rfl, rfl⟩

/-- An owed sweep that starts behind one that has ended keeps its shafts and its alerts. -/
theorem State.startOwed_behind (s : State) :
    s.endSweep.startOwed.shafts = s.endSweep.shafts ∧ s.endSweep.startOwed.digest = s.endSweep.digest :=
  State.startOwed_kept s.endSweep_tensions

end Sys2Proof.Machine
end

section
/-! PROOF. Completed computations: the write, the choice of the next one and the end of a sweep (O48). -/

namespace Sys2Proof.Machine

/-! ## Records near to one another -/

theorem Option.rel_forth {α : Type} {R : α → α → Prop} {x y : Option α} (h : Option.Rel R x y) {a : α} (ha : a ∈ x) :
    ∃ b ∈ y, R a b := by
  cases h with
  | some r => cases ha; exact ⟨_, rfl, r⟩
  | none => cases ha

theorem Option.rel_of_map {α : Type} {R : α → α → Prop} (x : Option α) {f : α → α} (h : ∀ a ∈ x, R a (f a)) :
    Option.Rel R x (x.map f) := by
  cases x with
  | none => exact .none
  | some a => exact .some (h a rfl)

/-- Every record is near to the one that stood there. -/
def State.Near (s t : State) : Prop := ∀ h, Option.Rel Reel.Near (s.reel h) (t.reel h)

theorem Reel.Near.state {r q : Reel} (h : r.Near q) : q.state = r.state := by
  obtain ⟨_, _, _, rfl⟩ := h
  rfl

theorem Reel.Near.id {r q : Reel} (h : r.Near q) : q.id = r.id := by
  obtain ⟨_, _, _, rfl⟩ := h
  rfl

theorem Reel.Near.readings {r q : Reel} (h : r.Near q) (g : Handle) (f : Nat) : q.readings g f = r.readings g f := by
  obtain ⟨_, _, _, rfl⟩ := h
  rfl

theorem Reel.Near.footage {r q : Reel} (h : r.Near q) : q.footage = r.footage := by
  obtain ⟨_, _, _, rfl⟩ := h
  rfl

theorem Reel.Near.footageOf {r q : Reel} (h : r.Near q) (p : Nat) : q.footageOf p = r.footageOf p := by
  obtain ⟨_, _, _, rfl⟩ := h
  rfl

theorem State.Near.stale {s t : State} (h : s.Near t) {e : ClosingEntry} (stale : s.stale e) : t.stale e := fun q hq => by
  obtain ⟨r, hr, near⟩ := Option.rel_back (h e.handle) hq
  rw [near.id]
  exact stale r hr

/-- No record winds from a handle on. -/
def State.restsFrom (s : State) (c : Nat) : Prop := ∀ g : Handle, c ≤ g.val → ∀ q ∈ s.reel g, q.state ≠ .winding

theorem State.Near.restsFrom {s t : State} (h : s.Near t) {c : Nat} (rests : s.restsFrom c) : t.restsFrom c :=
  fun g above q hq => by
    obtain ⟨r, hr, near⟩ := Option.rel_back (h g) hq
    rw [near.state]
    exact rests g above r hr

/-- The first WINDING record from a handle on (R130). -/
def State.windsFirst (s : State) (c : Nat) (h : Handle) (r : Reel) : Prop :=
  s.reel h = some r ∧ r.state = .winding ∧ c ≤ h.val ∧ ∀ g : Handle, c ≤ g.val → g < h → ∀ q ∈ s.reel g, q.state ≠ .winding

theorem State.Near.windsFirst {s t : State} (h : s.Near t) {c : Nat} {g : Handle} {r : Reel} (first : s.windsFirst c g r) :
    ∃ q, t.windsFirst c g q ∧ r.Near q := by
  obtain ⟨there, winds, ahead, before⟩ := first
  obtain ⟨q, hq, near⟩ := Option.rel_forth (h g) there
  refine ⟨q, ⟨hq, near.state.trans winds, ahead, fun k above below u hu => ?_⟩, near⟩
  obtain ⟨v, hv, near⟩ := Option.rel_back (h k) hu
  rw [near.state]
  exact before k above below v hv

theorem Reel.computedBy_near (r : Reel) (x : Readings) (visit : Bool) : r.Near (r.computedBy x visit) :=
  ⟨_, _, _, r.computedBy_eq x visit⟩

theorem State.computed_near (s : State) (x : Readings) (visit : Bool) : s.Near (s.computed x visit) := fun h => by
  rw [s.computed_reel]
  refine Option.rel_of_map _ fun r _ => ?_
  split
  · exact r.computedBy_near x visit
  · exact .refl r

theorem Reel.examined_eq (r : Reel) : r.examined = { r with
    flags := { r.flags with diaLimit := r.flags.diaLimit || r.atLimit }
    revision := r.revision + if r.atLimit = true ∧ r.flags.diaLimit = false then 1 else 0 } := by
  unfold Reel.examined
  by_cases limit : r.atLimit = true
  · rw [if_pos limit, Reel.withFlags_eq, limit, Bool.or_true]
    have same : ({ r.flags with diaLimit := true } : ReelFlags) = r.flags ↔ r.flags.diaLimit = true :=
      ⟨fun e => (congrArg ReelFlags.diaLimit e).symm, fun e => by rw [← e]⟩
    cases set : r.flags.diaLimit <;> simp [same, set]
  · rw [if_neg limit]
    simp [limit]

theorem State.endSweep_near (s : State) : s.Near s.endSweep := fun h => by
  rw [s.endSweep_reel]
  exact Option.rel_of_map _ fun r _ => ⟨_, _, _, r.examined_eq⟩

/-! ## Records swept -/

/-- A record after the choice of work: its flags and its revision may have moved, and only while it winds. -/
def Reel.Swept (r q : Reel) : Prop := (∃ f v, q = { r with flags := f, revision := v }) ∧ (r.state ≠ .winding → q = r)

theorem Reel.Swept.refl (r : Reel) : r.Swept r := ⟨⟨_, _, Eq.refl _⟩, fun _ => Eq.refl _⟩

theorem Reel.Swept.trans {r q u : Reel} (h : r.Swept q) (k : q.Swept u) : r.Swept u := by
  obtain ⟨⟨f, v, rfl⟩, still⟩ := h
  obtain ⟨⟨f', v', rfl⟩, still'⟩ := k
  exact ⟨⟨f', v', rfl⟩, fun rests => (still' rests).trans (still rests)⟩

def State.Swept (s t : State) : Prop := ∀ h, Option.Rel Reel.Swept (s.reel h) (t.reel h)

theorem State.Swept.of_table {s t : State} (h : t.table = s.table) : s.Swept t := fun g => by
  rw [State.reel_of_table h]
  cases s.reel g with
  | none => exact .none
  | some r => exact .some (.refl r)

theorem State.Swept.trans {s t u : State} (h : s.Swept t) (k : t.Swept u) : s.Swept u := fun g => by
  have first := h g
  have second := k g
  generalize s.reel g = x at first
  generalize t.reel g = y at first second
  generalize u.reel g = z at second
  cases first with
  | none => exact second
  | some r =>
    cases second with
    | some q => exact .some (r.trans q)

theorem State.Swept.of_engine {s t : State} {e : SweepEngine} (h : (s.setEngine e).Swept t) : s.Swept t := h

theorem State.endSweep_swept (s : State) : s.Swept s.endSweep := fun h => by
  rw [s.endSweep_reel]
  refine Option.rel_of_map _ fun r _ => ⟨⟨_, _, r.examined_eq⟩, fun rests => if_neg ?_⟩
  simp [Reel.atLimit, rests]

theorem State.goOn_swept (s : State) (c : Nat) : s.Swept (s.goOn c) := by
  cases found : s.nextWinding c with
  | none =>
    rw [State.goOn, found]
    exact s.endSweep_swept
  | some h =>
    have e : s.goOn c = s.beginVisit h := by rw [State.goOn, found]
    have test := List.find?_some found
    rw [e]
    cases there : s.reel h with
    | none => simp [there] at test
    | some r =>
      have winds : r.state = .winding := by
        simp [there] at test
        exact test.2
      rw [State.beginVisit_eq there]
      intro g
      have reel : (State.reel { s with table := { s.table with reels := s.table.reels.set h (some (r.liveRead s.position.p)) } } g) =
          if g = h then some (r.liveRead s.position.p) else s.reel g := State.setReel_reel s h g _
      show Option.Rel _ _ (State.reel { s with table := { s.table with reels := s.table.reels.set h (some (r.liveRead s.position.p)) } } g)
      rw [reel]
      split
      · next e =>
        rw [e, there]
        exact .some ⟨⟨_, _, r.liveRead_eq s.position.p⟩, fun rests => absurd winds rests⟩
      · exact State.Swept.of_table (t := s) rfl g

theorem State.startOwed_swept (s : State) : s.Swept s.startOwed := by
  unfold State.startOwed
  split
  · exact .of_engine (State.goOn_swept _ 0)
  · exact .of_table rfl

theorem State.chooseSweep_swept (s : State) : s.Swept s.chooseSweep := by
  cases sweep : s.engine.sweep with
  | none =>
    rw [State.chooseSweep_none sweep]
    exact s.startOwed_swept
  | some c =>
    cases found : s.nextWinding c with
    | none =>
      have e : s.chooseSweep = s.endSweep.startOwed := by
        unfold State.chooseSweep
        rw [sweep]
        show (match s.nextWinding c with | some h => s.beginVisit h | none => s.endSweep.startOwed) = _
        rw [found]
      rw [e]
      exact s.endSweep_swept.trans (State.startOwed_swept _)
    | some h =>
      have e : s.chooseSweep = s.goOn c := by
        unfold State.chooseSweep State.goOn
        rw [sweep]
        show (match s.nextWinding c with | some h => s.beginVisit h | none => s.endSweep.startOwed) = _
        rw [found]
      rw [e]
      exact s.goOn_swept c

theorem State.chooseWork_swept (s : State) : s.Swept s.chooseWork := by
  unfold State.chooseWork
  dsimp only
  split
  · exact .of_table rfl
  · exact .of_engine (.of_engine (State.chooseSweep_swept _))

end Sys2Proof.Machine
end

section
/-! PROOF. What a completed computation leaves of the records, the engine and the shafts (O48). -/

namespace Sys2Proof.Machine

/-! ## The reference diameter -/

theorem State.greatestDiameter_eq {s : State} {sh : Shaft} {h : Handle} {r : Reel} (there : s.reel h = some r)
    (shaft : r.shaft = sh) (winds : r.state = .winding)
    (most : ∀ g, ∀ q ∈ s.reel g, q.shaft = sh → q.state = .winding → q.diameter ≤ r.diameter) :
    s.greatestDiameter sh = some r.diameter := by
  have fold : ∀ (hs : List Handle) (m : Option Nat), (∀ k ∈ m, k ≤ r.diameter) → (h ∈ hs ∨ m = some r.diameter) →
      hs.foldl (fun m g => match s.reel g with
        | none => m
        | some q => if q.shaft = sh ∧ q.state = .winding then some (max (m.getD 0) q.diameter) else m) m = some r.diameter := by
    intro hs
    induction hs with
    | nil => exact fun m _ found => found.resolve_left List.not_mem_nil
    | cons g hs ih =>
      intro m below found
      rw [List.foldl_cons]
      have later (other : g ≠ h) : h ∈ hs ∨ m = some r.diameter :=
        found.imp_left fun mem => (List.mem_cons.mp mem).resolve_left fun e => other e.symm
      cases at' : s.reel g with
      | none => exact ih m below (later fun e => by rw [e, there] at at'; cases at')
      | some q =>
        have bounded : m.getD 0 ≤ r.diameter := by
          cases m with
          | none => exact Nat.zero_le _
          | some k => exact below k rfl
        by_cases hit : q.shaft = sh ∧ q.state = .winding
        · simp only [if_pos hit]
          have fits := most g q at' hit.1 hit.2
          refine ih _ (fun k hk => by cases hk; exact Nat.max_le.mpr ⟨bounded, fits⟩) ?_
          by_cases e : g = h
          · rw [e, there] at at'
            cases at'
            exact .inr (by rw [Nat.max_eq_right bounded])
          · refine (later e).imp_right fun m => ?_
            rw [m]
            exact congrArg some (Nat.max_eq_left fits)
        · simp only [if_neg hit]
          refine ih m below (later fun e => hit ?_)
          rw [e, there] at at'
          cases at'
          exact ⟨shaft, winds⟩
  exact fold allHandles none nofun (.inl (List.mem_finRange h))

theorem State.greatestDiameter_none {s : State} {sh : Shaft} (rests : ∀ h, ∀ r ∈ s.reel h, r.shaft = sh → r.state ≠ .winding) :
    s.greatestDiameter sh = none := by
  have fold : ∀ hs : List Handle, hs.foldl (fun m g => match s.reel g with
      | none => m
      | some q => if q.shaft = sh ∧ q.state = .winding then some (max (m.getD 0) q.diameter) else m) none = none := by
    intro hs
    induction hs with
    | nil => rfl
    | cons g hs ih =>
      rw [List.foldl_cons]
      cases there : s.reel g with
      | none => exact ih
      | some q =>
        simp only [if_neg fun hit : q.shaft = sh ∧ q.state = .winding => rests g q there hit.1 hit.2]
        exact ih
  exact fold allHandles

theorem State.dref_of_reference {s : State} {sh : Shaft} {n : Lane} {h : Handle} {r : Reel}
    (reference : (s.lane n).shaft = sh ∧ (s.lane n).reference = true)
    (alone : ∀ m, (s.lane m).shaft = sh ∧ (s.lane m).reference = true → m = n) (current : (s.lane n).current = some h)
    (there : s.reel h = some r) (st : PlanStep) : s.dref sh st = min (max r.diameter st.core) st.span := by
  have found : allLanes.find? (fun m => decide ((s.lane m).shaft = sh) && (s.lane m).reference) = some n := by
    refine find?_finRange (by simp [reference.1, reference.2]) fun m before => ?_
    refine Bool.eq_false_iff.mpr fun is => ?_
    simp only [Bool.and_eq_true, decide_eq_true_eq] at is
    exact absurd (alone m is) (Fin.ne_of_lt before)
  have diameter : s.referenceDiameter sh = some r.diameter := by
    rw [State.referenceDiameter, found]
    show (s.lane n).current.bind _ = _
    rw [current, Option.bind_some, there]
    rfl
  rw [State.dref, diameter]

theorem State.dref_without {s : State} {sh : Shaft}
    (none : ∀ n, (s.lane n).shaft = sh ∧ (s.lane n).reference = true → (s.lane n).current = Option.none) (st : PlanStep) :
    s.dref sh st = min (max ((s.greatestDiameter sh).getD st.core) st.core) st.span := by
  have diameter : s.referenceDiameter sh = Option.none := by
    unfold State.referenceDiameter
    cases found : allLanes.find? (fun m => decide ((s.lane m).shaft = sh) && (s.lane m).reference) with
    | none => rfl
    | some n =>
      have is := List.find?_some found
      simp only [Bool.and_eq_true, decide_eq_true_eq] at is
      show (s.lane n).current.bind _ = _
      rw [none n is]
      rfl
  rw [State.dref, diameter]

/-! ## A sweep that ends -/

theorem State.startOwed_first {s : State} (owed : s.engine.owed = true) {h : Handle} {r : Reel} (first : s.windsFirst 0 h r) :
    s.startOwed = { s with
      table := { s.table with reels := s.table.reels.set h (some (r.liveRead s.position.p)) }
      engine := { s.engine with
        activity := .visiting (r.readings h (r.footageOf s.position.p)), sweep := some (h.val + 1), owed := false } } := by
  obtain ⟨there, winds, ahead, before⟩ := first
  rw [State.startOwed_some owed]
  exact State.goOn_visits (s := s.setEngine _) there winds ahead before

theorem State.startOwed_rests {s : State} (owed : s.engine.owed = true) (rests : s.restsFrom 0) :
    s.startOwed = { s with shafts := s.tensions, engine := { s.engine with owed := false, sweep := none } } := by
  have ends := State.goOn_ends (s := s.setEngine { s.engine with owed := false, sweep := some 0 }) rests
  rw [State.startOwed_some owed, ends,
    State.endSweep_idle (s := s.setEngine { s.engine with owed := false, sweep := some 0 }) fun g => rests g (Nat.zero_le _),
    State.tensions_congr (s := s) (t := s.setEngine { s.engine with owed := false, sweep := some 0 }) rfl rfl rfl]
  rfl

/-- A WINDING record that an owed sweep does not begin with stays as it is. -/
theorem State.startOwed_reel {s : State} {h : Handle} {r : Reel} (there : s.reel h = some r) (winds : r.state = .winding)
    (later : ¬ (s.engine.owed = true ∧ ∀ g : Handle, g < h → ∀ q ∈ s.reel g, q.state ≠ .winding)) :
    s.startOwed.reel h = some r := by
  cases owed : s.engine.owed with
  | false => rw [State.startOwed_none owed]; exact there
  | true =>
    have some : (s.nextWinding 0).isSome := by
      refine List.find?_isSome.mpr ⟨h, List.mem_finRange h, ?_⟩
      simp [there, winds]
    obtain ⟨g, found⟩ := Option.isSome_iff_exists.mp some
    have e : s.startOwed = (s.setEngine { s.engine with owed := false, sweep := Option.some 0 }).beginVisit g := by
      rw [State.startOwed_some owed, State.goOn,
        show (s.setEngine { s.engine with owed := false, sweep := Option.some 0 }).nextWinding 0 = Option.some g from found]
    have test := List.find?_some found
    cases at' : s.reel g with
    | none => simp [at'] at test
    | some q =>
      have ne : h ≠ g := fun same => later ⟨owed, fun k before u hu rests => by
        obtain ⟨_, as, bs, split, earlier⟩ := List.find?_eq_some_iff_append.mp found
        have sorted : (as ++ g :: bs).Pairwise (· < ·) := split ▸ List.pairwise_lt_finRange 96
        obtain ⟨_, tail, _⟩ := List.pairwise_append.mp sorted
        have mem : k ∈ as ++ g :: bs := split ▸ List.mem_finRange k
        rw [same] at before
        obtain early | late := List.mem_append.mp mem
        · have off := earlier k early
          rw [Option.mem_def] at hu
          simp [hu, rests] at off
        · obtain rfl | after := List.mem_cons.mp late
          · exact absurd before (lt_irrefl _)
          · exact absurd (lt_trans before ((List.pairwise_cons.mp tail).1 k after)) (lt_irrefl _)⟩
      rw [e, State.beginVisit_eq (s := s.setEngine { s.engine with owed := false, sweep := Option.some 0 }) at']
      exact (State.setReel_reel s g h _).trans ((if_neg ne).trans there)

/-- The choice of work where the sweep in flight, or the one owed, ends (R130, R135). -/
theorem State.chooseWork_ends {s : State} (stale : ∀ e ∈ s.engine.closing, s.stale e)
    (ends : (∃ c ∈ s.engine.sweep, s.restsFrom c) ∨ (s.engine.sweep = none ∧ s.engine.owed = true ∧ s.restsFrom 0)) :
    ∃ e : SweepEngine, e.activity = .idle ∧ e.closing = [] ∧
      (e.owed = s.engine.owed ∨ (e.owed = false ∧ s.restsFrom 0)) ∧
      s.chooseWork = (s.setEngine e).endSweep.startOwed := by
  rw [State.chooseWork_sweeps stale]
  obtain ⟨c, sweep, rests⟩ | ⟨sweep, owed, rests⟩ := ends
  · exact ⟨{ s.engine with activity := .idle, closing := [] }, rfl, rfl, .inl rfl,
      State.chooseSweep_ends (s := s.setEngine { s.engine with activity := .idle, closing := [] }) sweep rests⟩
  · refine ⟨{ s.engine with activity := .idle, closing := [], owed := false, sweep := some 0 }, rfl, rfl, .inr ⟨rfl, rests⟩, ?_⟩
    rw [State.chooseSweep_none (s := s.setEngine { s.engine with activity := .idle, closing := [] }) sweep,
      State.startOwed_some (s := s.setEngine { s.engine with activity := .idle, closing := [] }) owed]
    have ends := State.goOn_ends (s := s.setEngine { s.engine with activity := .idle, closing := [], owed := false, sweep := some 0 })
      rests
    refine ends.trans (State.startOwed_none ?_).symm
    obtain ⟨v, p, q, d, frame⟩ := State.endSweep_frame
      (s.setEngine { s.engine with activity := .idle, closing := [], owed := false, sweep := some 0 })
    rw [frame]
    rfl

end Sys2Proof.Machine
end

section
/-! PROOF. Completed computations write only their reel (O48). -/

namespace Sys2Proof.Machine

/-! ## The records after a computation -/

/-- A record as a completed computation leaves it. -/
def Reel.after (r : Reel) (h : Handle) (x : Readings) (visit : Bool) : Reel :=
  if h = x.handle ∧ r.id = x.id ∧ (visit = true → r.state = .winding) then r.computedBy x visit else r

theorem State.computed_back {s : State} {x : Readings} {visit : Bool} {h : Handle} {q : Reel}
    (there : (s.computed x visit).reel h = some q) : ∃ r, s.reel h = some r ∧ q = r.after h x visit := by
  rw [s.computed_reel] at there
  obtain ⟨r, hr, rfl⟩ := Option.map_eq_some_iff.mp there
  exact ⟨r, hr, rfl⟩

theorem State.computed_there {s : State} {x : Readings} {visit : Bool} {h : Handle} {r : Reel} (there : s.reel h = some r) :
    (s.computed x visit).reel h = some (r.after h x visit) := by
  rw [s.computed_reel, there]
  rfl

theorem Reel.after_near (r : Reel) (h : Handle) (x : Readings) (visit : Bool) : r.Near (r.after h x visit) := by
  unfold Reel.after
  split
  · exact r.computedBy_near x visit
  · exact .refl r

/-- A WINDING record as a completed computation leaves it (R131, R132). -/
theorem Reel.after_winding {r : Reel} (winds : r.state = .winding) (h : Handle) (x : Readings) (visit : Bool) :
    (r.after h x visit).diameter = (if h = x.handle ∧ r.id = x.id then x.diameter else r.diameter) ∧
    (r.after h x visit).flags = { r.flags with
      limited := r.flags.limited || decide (h = x.handle ∧ r.id = x.id ∧ x.clamped = true) } ∧
    (visit = true ∨ ¬ (h = x.handle ∧ r.id = x.id) → (r.after h x visit).revision =
      r.revision + if (h = x.handle ∧ r.id = x.id ∧ x.clamped = true) ∧ r.flags.limited = false then 1 else 0) := by
  unfold Reel.after
  by_cases own : h = x.handle ∧ r.id = x.id
  · obtain ⟨here, same⟩ := own
    rw [if_pos ⟨here, same, fun _ => winds⟩, if_pos ⟨here, same⟩, Reel.computedBy_eq]
    refine ⟨rfl, ?_, fun counted => ?_⟩
    · simp [here, same]
    · have visits : visit = true := counted.resolve_right (not_not.mpr ⟨here, same⟩)
      cases limited : r.flags.limited <;> cases clamped : x.clamped <;> simp [here, same, visits]
  · rw [if_neg fun h => own ⟨h.1, h.2.1⟩, if_neg own]
    refine ⟨rfl, ?_, fun _ => ?_⟩
    · rw [decide_eq_false fun h => own ⟨h.1, h.2.1⟩, Bool.or_false]
    · rw [if_neg fun h => own ⟨h.1.1, h.1.2.1⟩]
      simp

/-- A WINDING record at the end of a sweep behind a computation, and as the next visit reads it (R131, R134). -/
theorem Reel.swept_winding {r : Reel} (winds : r.state = .winding) (h : Handle) (x : Readings) (visit : Bool) (p : Nat) :
    let diameter := if h = x.handle ∧ r.id = x.id then x.diameter else r.diameter
    let clamps := h = x.handle ∧ r.id = x.id ∧ x.clamped = true
    let q := (r.after h x visit).examined
    let counted := r.revision + (if clamps ∧ r.flags.limited = false then 1 else 0) +
      (if q.flags.diaLimit = true ∧ r.flags.diaLimit = false then 1 else 0)
    let long := r.start ≤ p ∧ 4294967295 < ((p - r.start) * r.rho + 500000) / 1000000
    q.flags.diaLimit = (r.flags.diaLimit || decide (r.limit ≤ diameter)) ∧
    (q.liveRead p).flags.diaLimit = q.flags.diaLimit ∧
    (visit = true ∨ ¬ (h = x.handle ∧ r.id = x.id) → q.revision = counted ∧
      (q.liveRead p).revision = counted + (if (p < r.start ∧ r.flags.reversed = false) ∨
        (long ∧ r.flags.limited = false ∧ ¬ clamps) then 1 else 0)) := by
  intro diameter clamps q counted long
  obtain ⟨width, flags, revision⟩ := Reel.after_winding winds h x visit
  have parts : (r.after h x visit).state = .winding ∧ (r.after h x visit).limit = r.limit ∧
      (r.after h x visit).start = r.start ∧ (r.after h x visit).rho = r.rho := by
    obtain ⟨_, _, _, e⟩ := r.after_near h x visit
    rw [e]
    exact ⟨winds, rfl, rfl, rfl⟩
  obtain ⟨state, limit, start, rho⟩ := parts
  have atLimit : (r.after h x visit).atLimit = decide (r.limit ≤ diameter) := by
    rw [Reel.atLimit, state, limit, width]
    rfl
  have dia : q.flags.diaLimit = (r.flags.diaLimit || decide (r.limit ≤ diameter)) := by
    show (r.after h x visit).examined.flags.diaLimit = _
    rw [Reel.examined_eq, atLimit, flags]
  have others : q.flags.limited = (r.flags.limited || decide clamps) ∧ q.flags.reversed = r.flags.reversed ∧ q.start = r.start ∧
      q.rho = r.rho := by
    show (r.after h x visit).examined.flags.limited = _ ∧ (r.after h x visit).examined.flags.reversed = _ ∧
      (r.after h x visit).examined.start = _ ∧ (r.after h x visit).examined.rho = _
    rw [Reel.examined_eq, flags]
    exact ⟨rfl, rfl, start, rho⟩
  obtain ⟨limited, reversed, start, rho⟩ := others
  refine ⟨dia, ?_, fun counts => ?_⟩
  · rw [Reel.liveRead_eq]
  · have own : q.revision = counted := by
      have e : q.revision = (r.after h x visit).revision +
          if (r.after h x visit).atLimit = true ∧ (r.after h x visit).flags.diaLimit = false then 1 else 0 := by
        show (r.after h x visit).examined.revision = _
        rw [Reel.examined_eq]
      rw [e, revision counts, atLimit, flags]
      show _ = r.revision + _ + _
      congr 1
      refine if_congr ?_ rfl rfl
      rw [dia]
      cases r.flags.diaLimit <;> simp
    refine ⟨own, ?_⟩
    rw [Reel.liveRead_eq]
    show q.revision + _ = _
    rw [own, limited, reversed, start, rho]
    congr 1
    refine if_congr ?_ rfl rfl
    rw [Bool.or_eq_false_iff, decide_eq_false_iff_not]
    exact or_comm

/-! ## The command -/

theorem exec_computed {s : State} (awake : s.inReset = false) {x : Readings} {i : Instr} {visit : Bool}
    (h : (i = .visitComplete ∧ s.engine.activity = .visiting x ∧ visit = true) ∨
      (i = .closingComplete ∧ s.engine.activity = .closing x ∧ visit = false)) :
    exec i s = .next (s.settle (s.computed x visit).chooseWork) := by
  obtain ⟨rfl, activity, rfl⟩ | ⟨rfl, activity, rfl⟩ := h
  · show Host.Outcome.next (match s.engine.activity with
      | .visiting x => if s.inReset then s else s.settle (s.writeVisit x).chooseWork
      | _ => s) = _
    rw [activity, awake]
    rfl
  · show Host.Outcome.next (match s.engine.activity with
      | .closing x => if s.inReset then s else s.settle (s.writeClosing x).chooseWork
      | _ => s) = _
    rw [activity, awake]
    rfl

/-- What a completed computation leaves of every record's diameter, and what it leaves alone. -/
theorem computed_diameters (s : State) (x : Readings) (visit : Bool) :
    let t := s.settle (s.computed x visit).chooseWork
    (∀ h, (t.reel h).map Reel.diameter = (s.reel h).map fun r => (r.after h x visit).diameter) ∧
    (∀ h, ∀ r ∈ s.reel h, r.state ≠ .winding → t.reel h = some (r.after h x visit)) ∧
    t = { s with table := t.table, shafts := t.shafts, engine := t.engine, hold := t.hold, digest := t.digest } := by
  intro t
  obtain ⟨hold, digest, settled⟩ := s.settle_frame (s.computed x visit).chooseWork
  obtain ⟨v, written⟩ := s.computed_frame x visit
  obtain ⟨v', p, q, e, d, touched⟩ := (s.computed x visit).chooseWork_touch
  have settled : t = _ := settled
  have table : t.table = (s.computed x visit).chooseWork.table := by rw [settled]
  have swept (h : Handle) : Option.Rel Reel.Swept ((s.computed x visit).reel h) (t.reel h) := by
    rw [State.reel_of_table table]
    exact (s.computed x visit).chooseWork_swept h
  refine ⟨fun h => ?_, fun h r there rests => ?_, ?_⟩
  · have here := swept h
    cases there : s.reel h with
    | none =>
      rw [s.computed_reel, there] at here
      generalize t.reel h = y at here ⊢
      cases here
      rfl
    | some r =>
      rw [State.computed_there there] at here
      generalize t.reel h = y at here ⊢
      cases here with
      | some k =>
        obtain ⟨⟨_, _, rfl⟩, _⟩ := k
        rfl
  · have here := swept h
    rw [State.computed_there there] at here
    generalize t.reel h = y at here ⊢
    cases here with
    | some k =>
      obtain ⟨_, still⟩ := k
      rw [still ((r.after_near h x visit).state ▸ rests)]
  · rw [settled, touched, written]

/-! ## A sweep that ends -/

section Ends

variable {s : State} {e : SweepEngine} {owed : Bool} (idle : e.activity = .idle) (closing : e.closing = [])
  (owes : e.owed = owed ∨ (e.owed = false ∧ s.restsFrom 0))

theorem State.endSweep_engine (s : State) : s.endSweep.engine = { s.engine with sweep := none } := by
  obtain ⟨v, p, q, d, frame⟩ := s.endSweep_frame
  rw [frame]

theorem State.endSweep_position (s : State) : s.endSweep.position = s.position := by
  obtain ⟨v, p, q, d, frame⟩ := s.endSweep_frame
  rw [frame]

theorem State.endSweep_windsFirst {s : State} {c : Nat} {h : Handle} {r : Reel} (first : s.windsFirst c h r) :
    s.endSweep.windsFirst c h r.examined := by
  obtain ⟨there, winds, ahead, before⟩ := first
  refine ⟨by rw [s.endSweep_reel, there]; rfl, ?_, ahead, ?_⟩
  · rw [Reel.examined_eq]
    exact winds
  · intro g above below q hq
    obtain ⟨u, hu, near⟩ := Option.rel_back (s.endSweep_near g) hq
    rw [near.state]
    exact before g above below u hu

include idle closing owes

/-- The engine behind the end of a sweep: at rest, or at the first visit of the owed one (R130). -/
theorem ends_engine :
    (owed = false ∨ s.restsFrom 0 → (s.setEngine e).endSweep.startOwed.engine = ⟨.idle, none, false, []⟩) ∧
    (owed = true → ∀ h r, s.windsFirst 0 h r → (s.setEngine e).endSweep.startOwed.engine =
      ⟨.visiting (r.readings h (r.footageOf s.position.p)), some (h.val + 1), false, []⟩) := by
  have engine : (s.setEngine e).endSweep.engine = { e with sweep := none } := State.endSweep_engine _
  refine ⟨fun quiet => ?_, fun again h r first => ?_⟩
  · cases own : e.owed with
    | false =>
      rw [State.startOwed_none (by rw [engine]; exact own), engine, idle, closing, own]
    | true =>
      have rests : s.restsFrom 0 := by
        obtain same | ⟨off, rests⟩ := owes
        · exact quiet.resolve_left (by rw [← same, own]; decide)
        · exact rests
      rw [State.startOwed_rests (by rw [engine]; exact own) ((State.endSweep_near (s.setEngine e)).restsFrom rests)]
      show ({ (s.setEngine e).endSweep.engine with owed := false, sweep := none } : SweepEngine) = _
      rw [engine, idle, closing]
  · have own : e.owed = true := by
      obtain same | ⟨_, rests⟩ := owes
      · rw [same, again]
      · obtain ⟨there, winds, ahead, _⟩ := first
        exact absurd winds (rests h ahead r there)
    rw [State.startOwed_first (by rw [engine]; exact own) (State.endSweep_windsFirst (s := s.setEngine e) first)]
    obtain ⟨_, _, _, near⟩ : r.Near r.examined := ⟨_, _, _, r.examined_eq⟩
    show ({ (s.setEngine e).endSweep.engine with
      activity := .visiting (r.examined.readings h (r.examined.footageOf (s.setEngine e).endSweep.position.p))
      sweep := some (h.val + 1)
      owed := false } : SweepEngine) = _
    rw [engine, closing, near, State.endSweep_position]
    rfl

omit idle closing in
/-- A WINDING record behind the end of a sweep (R131, R134). -/
theorem ends_reel {h : Handle} {r : Reel} (there : s.reel h = some r) (winds : r.state = .winding) :
    (owed = true ∧ (∀ g : Handle, g < h → ∀ q ∈ s.reel g, q.state ≠ .winding) →
      (s.setEngine e).endSweep.startOwed.reel h = some (r.examined.liveRead s.position.p)) ∧
    (¬ (owed = true ∧ ∀ g : Handle, g < h → ∀ q ∈ s.reel g, q.state ≠ .winding) →
      (s.setEngine e).endSweep.startOwed.reel h = some r.examined) := by
  have engine : (s.setEngine e).endSweep.engine = { e with sweep := none } := State.endSweep_engine _
  have own : e.owed = owed := owes.resolve_right fun ⟨_, rests⟩ => rests h (Nat.zero_le _) r there winds
  have examined : (s.setEngine e).endSweep.reel h = some r.examined := by
    rw [State.endSweep_reel, show (s.setEngine e).reel h = some r from there]
    rfl
  refine ⟨fun ⟨again, before⟩ => ?_, fun later => ?_⟩
  · have first : s.windsFirst 0 h r := ⟨there, winds, Nat.zero_le _, fun g _ => before g⟩
    rw [State.startOwed_first (by rw [engine]; exact own.trans again) (State.endSweep_windsFirst (s := s.setEngine e) first),
      State.endSweep_position]
    exact (State.setReel_reel (s.setEngine e).endSweep h h _).trans (if_pos rfl)
  · refine State.startOwed_reel examined (by rw [Reel.examined_eq]; exact winds) fun ⟨again, before⟩ => later ⟨?_, ?_⟩
    · rw [engine] at again
      exact own.symm.trans again
    · intro g below q hq
      obtain ⟨u, hu, near⟩ := Option.rel_forth (State.endSweep_near (s.setEngine e) g) hq
      rw [← near.state]
      exact before g below u hu

end Ends

/-- A shaft gains DIA_LIMIT by the diameters as the computation leaves them (R134). -/
theorem State.computed_gains {s : State} {x : Readings} {visit : Bool} {sh : Shaft} :
    (s.computed x visit).gainsLimit sh = true ↔ ∃ h, ∃ r ∈ s.reel h, r.shaft = sh ∧ r.state = .winding ∧
      r.flags.diaLimit = false ∧ r.limit ≤ if h = x.handle ∧ r.id = x.id then x.diameter else r.diameter := by
  have parts {h : Handle} {r : Reel} (winds : r.state = .winding) : (r.after h x visit).shaft = r.shaft ∧
      (r.after h x visit).limit = r.limit ∧ (r.after h x visit).flags.diaLimit = r.flags.diaLimit ∧
      (r.after h x visit).diameter = if h = x.handle ∧ r.id = x.id then x.diameter else r.diameter := by
    obtain ⟨width, flags, _⟩ := Reel.after_winding winds h x visit
    obtain ⟨_, _, _, e⟩ := r.after_near h x visit
    rw [flags, width]
    exact ⟨by rw [e], by rw [e], rfl, rfl⟩
  rw [State.gainsLimit_iff]
  constructor
  · rintro ⟨h, q, hq, shaft, winds, fresh, limit⟩
    obtain ⟨r, hr, rfl⟩ := State.computed_back hq
    have winds : r.state = .winding := (r.after_near h x visit).state ▸ winds
    obtain ⟨sameShaft, sameLimit, sameFlag, width⟩ := parts (h := h) winds
    exact ⟨h, r, hr, sameShaft ▸ shaft, winds, sameFlag ▸ fresh, by rw [← width, ← sameLimit]; exact limit⟩
  · rintro ⟨h, r, hr, shaft, winds, fresh, limit⟩
    obtain ⟨sameShaft, sameLimit, sameFlag, width⟩ := parts (h := h) winds
    exact ⟨h, _, State.computed_there hr, sameShaft.trans shaft, (r.after_near h x visit).state.trans winds, sameFlag.trans fresh,
      by rw [width, sameLimit]; exact limit⟩

theorem ends_shafts (s : State) (e : SweepEngine) (sh : Shaft) :
    (s.setEngine e).endSweep.startOwed.shaft sh = (s.setEngine e).endSweep.shaft sh := by
  rw [State.shaft, (s.setEngine e).startOwed_behind.1]
  rfl

/-- The alerts of a shaft that gains DIA_LIMIT at the end of a sweep (R134). -/
theorem ends_alerts {s : State} {e : SweepEngine} {sh : Shaft} (gains : s.gainsLimit sh = true) {i : Fin 20}
    (alert : s.limitAlert sh i = true) : (s.setEngine e).endSweep.startOwed.digest.alerts[i].isSet = true := by
  obtain ⟨_, _, _, _, alerts⟩ := (s.setEngine e).examineLimits_spec
  have digest : (s.setEngine e).endSweep.digest = (s.setEngine e).examineLimits.digest := by rw [State.endSweep_eq]
  rw [(s.setEngine e).startOwed_behind.2, digest, alerts i]
  have gains : (s.setEngine e).gainsLimit sh = true := gains
  have alert : (s.setEngine e).limitAlert sh i = true := alert
  cases sh <;> simp [gains, alert]

/-- Settles O48. -/
theorem computationsWriteOnlyTheirReel : Obligations.ComputationsWriteOnlyTheirReel := by
  unfold Obligations.ComputationsWriteOnlyTheirReel
  intro x s awake
  refine ⟨fun visiting => ?_, fun closing => ?_, fun i busy => ?_, fun other => ?_, fun other => ?_⟩
  · obtain ⟨diameters, _, frame⟩ := computed_diameters s x true
    refine ⟨_, exec_computed awake (.inl ⟨rfl, visiting, rfl⟩), fun h => ?_, frame⟩
    rw [diameters h]
    congr 1
    funext r
    unfold Reel.after
    by_cases own : h = x.handle ∧ r.id = x.id ∧ r.state = .winding
    · rw [if_pos ⟨own.1, own.2.1, fun _ => own.2.2⟩, if_pos own, Reel.computedBy_eq]
    · rw [if_neg fun h => own ⟨h.1, h.2.1, h.2.2 rfl⟩, if_neg own]
  · obtain ⟨diameters, rests, frame⟩ := computed_diameters s x false
    refine ⟨_, exec_computed awake (.inr ⟨rfl, closing, rfl⟩), fun h => ?_, fun r there same still => ?_, frame⟩
    · rw [diameters h]
      congr 1
      funext r
      unfold Reel.after
      by_cases own : h = x.handle ∧ r.id = x.id
      · rw [if_pos ⟨own.1, own.2, nofun⟩, if_pos own, Reel.computedBy_eq]
      · rw [if_neg fun h => own ⟨h.1, h.2.1⟩, if_neg own]
    · refine ⟨_, rests x.handle r there still, ?_⟩
      rw [Reel.after, if_pos ⟨rfl, same, nofun⟩]
      exact ⟨rfl, rfl⟩
  · obtain ⟨visit, mode⟩ : ∃ visit, (i = .visitComplete ∧ s.engine.activity = .visiting x ∧ visit = true) ∨
        (i = .closingComplete ∧ s.engine.activity = .closing x ∧ visit = false) := by
      obtain ⟨e, a⟩ | ⟨e, a⟩ := busy
      · exact ⟨true, .inl ⟨e, a, rfl⟩⟩
      · exact ⟨false, .inr ⟨e, a, rfl⟩⟩
    intro stale next visiting diameter
    let w := s.computed x visit
    obtain ⟨v, written⟩ := s.computed_frame x visit
    have near : s.Near w := s.computed_near x visit
    have engine : w.engine = s.engine := by rw [show w = _ from written]
    have position : w.position = s.position := by rw [show w = _ from written]
    obtain ⟨hold, digest, settled⟩ := s.settle_frame w.chooseWork
    have chosen : (s.settle w.chooseWork).engine = w.chooseWork.engine := by rw [settled]
    have old (e : ClosingEntry) (h : stale e) : w.stale e := near.stale h
    have visits {c : Nat} {h : Handle} {r : Reel} (first : next c h r) : ∃ q, w.windsFirst c h q ∧
        Activity.visiting (q.readings h (q.footageOf w.position.p)) = visiting h r := by
      obtain ⟨q, first, near⟩ := near.windsFirst first
      refine ⟨q, first, ?_⟩
      rw [near.readings, near.footageOf, position]
    refine ⟨_, exec_computed awake mode, fun before e later r list allStale there same => ?_, fun allStale => ⟨fun c h r sweep first => ?_,
      fun sweep owed h r first => ?_, fun sweep free => ?_, fun ends => ?_⟩⟩
    · obtain ⟨q, hq, near⟩ := Option.rel_forth (near e.handle) there
      rw [chosen, State.chooseWork_closes (s := w) (by rw [engine]; exact list) (fun o ho => old o (allStale o ho)) hq (near.id.trans same),
        engine, near.readings, near.footage]
      rfl
    all_goals
      have stale' : ∀ e ∈ w.engine.closing, w.stale e := fun e he => old e (allStale e (engine ▸ he))
    · obtain ⟨q, ⟨hq, winds, ahead, before⟩, e⟩ := visits first
      rw [chosen, State.chooseWork_sweeps stale',
        State.chooseSweep_visits (s := w.setEngine { w.engine with activity := .idle, closing := [] })
          (show w.engine.sweep = some c by rw [engine]; exact sweep) hq winds ahead before]
      rw [engine]
      exact congrArg (fun a => (⟨a, some (h.val + 1), s.engine.owed, []⟩ : SweepEngine)) e
    · obtain ⟨q, first, e⟩ := visits first
      have none : (w.setEngine { w.engine with activity := .idle, closing := [] }).engine.sweep = none := by
        show w.engine.sweep = none
        rw [engine]; exact sweep
      rw [chosen, State.chooseWork_sweeps stale', State.chooseSweep_none none,
        State.startOwed_first (s := w.setEngine { w.engine with activity := .idle, closing := [] })
          (show w.engine.owed = true by rw [engine]; exact owed) first]
      exact congrArg (fun a => (⟨a, some (h.val + 1), false, []⟩ : SweepEngine)) e
    · have none : (w.setEngine { w.engine with activity := .idle, closing := [] }).engine.sweep = none := by
        show w.engine.sweep = none
        rw [engine]; exact sweep
      rw [chosen, State.chooseWork_sweeps stale', State.chooseSweep_none none,
        State.startOwed_none (s := w.setEngine { w.engine with activity := .idle, closing := [] })
          (show w.engine.owed = false by rw [engine]; exact free)]
      show (⟨.idle, w.engine.sweep, w.engine.owed, []⟩ : SweepEngine) = _
      rw [engine, sweep, free]
    · have ends : (∃ c ∈ w.engine.sweep, w.restsFrom c) ∨ (w.engine.sweep = none ∧ w.engine.owed = true ∧ w.restsFrom 0) := by
        rw [engine]
        obtain ⟨c, sweep, rests⟩ | ⟨sweep, owed, rests⟩ := ends
        · exact .inl ⟨c, sweep, near.restsFrom rests⟩
        · exact .inr ⟨sweep, owed, near.restsFrom fun g _ => rests g⟩
      obtain ⟨e, activity, none, owes, work⟩ := State.chooseWork_ends stale' ends
      rw [engine] at owes
      obtain ⟨quiet, again⟩ := ends_engine activity none owes
      have table : (s.settle w.chooseWork).table = (w.setEngine e).endSweep.startOwed.table := by rw [settled, work]
      have shaft (sh : Shaft) : (s.settle w.chooseWork).shaft sh = (w.setEngine e).endSweep.shaft sh := by
        rw [← ends_shafts, ← work, settled]
        rfl
      refine ⟨fun quietly => ?_, fun owed h r first => ?_, fun h r there winds => ?_, fun sh => ?_⟩
      · rw [chosen, work]
        exact quiet (quietly.imp_right fun rests => near.restsFrom fun g _ => rests g)
      · obtain ⟨q, first, same⟩ := visits first
        rw [chosen, work, again owed h q first, same]
      · obtain ⟨first, later⟩ := ends_reel owes (State.computed_there there) ((r.after_near h x visit).state.trans winds)
        obtain ⟨dia, same, counts⟩ := Reel.swept_winding winds h x visit s.position.p
        have counted (c : i = .visitComplete ∨ ¬ (h = x.handle ∧ r.id = x.id)) : visit = true ∨ ¬ (h = x.handle ∧ r.id = x.id) := by
          refine c.imp_left fun c => ?_
          obtain ⟨_, _, v⟩ | ⟨other, _⟩ := mode
          · exact v
          · rw [c] at other
            cases other
        have before : (∀ g, g < h → ∀ u ∈ s.reel g, u.state ≠ .winding) ↔ ∀ g, g < h → ∀ u ∈ w.reel g, u.state ≠ .winding := by
          refine forall_congr' fun g => imp_congr_right fun _ => ⟨fun rests q hq => ?_, fun rests u hu => ?_⟩
          · obtain ⟨u, hu, near⟩ := Option.rel_back (near g) hq
            rw [near.state]
            exact rests u hu
          · obtain ⟨q, hq, near⟩ := Option.rel_forth (near g) hu
            rw [← near.state]
            exact rests q hq
        have reel : (s.settle w.chooseWork).reel h = (w.setEngine e).endSweep.startOwed.reel h := State.reel_of_table table h
        by_cases visited : s.engine.owed = true ∧ ∀ g, g < h → ∀ u ∈ s.reel g, u.state ≠ .winding
        · refine ⟨_, reel.trans (first (visited.imp_right before.mp)), ?_, fun c => ?_⟩
          · rw [position, same]
            exact dia
          · rw [position, same]
            exact ⟨fun _ => (counts (counted c)).2, fun never => absurd visited never⟩
        · refine ⟨_, reel.trans (later fun h => visited (h.imp_right before.mpr)), dia, fun c => ?_⟩
          exact ⟨fun now => absurd now visited, fun _ => (counts (counted c)).1⟩
      · have own : (w.setEngine e).shaft sh = s.shaft sh := by
          show w.shaft sh = _
          rw [show w = _ from written]
          rfl
        have lanes (n : Lane) : (w.setEngine e).lane n = s.lane n := by
          refine State.lane_of_map ?_ n
          show w.map = _
          rw [show w = _ from written]
        obtain ⟨still, gains, idle, steps⟩ := (w.setEngine e).endSweep_spec sh
        rw [own] at still gains idle steps
        have gainsIff : (w.setEngine e).gainsLimit sh = true ↔ _ := State.computed_gains (s := s) (x := x) (visit := visit) (sh := sh)
        have alerts (gained : w.gainsLimit sh = true) {k : Fin 20} (alert : w.limitAlert sh k = true) :
            (s.settle w.chooseWork).digest.alerts[k].isSet = true :=
          settle_isSet (by rw [work]; exact ends_alerts gained alert)
        rw [shaft]
        refine ⟨fun gained => ⟨?_, ?_, fun fresh => ?_⟩, fun none => ?_, idle, fun st current runs => ⟨?_, fun alone => ⟨?_, ?_⟩⟩⟩
        · exact alerts (gainsIff.mpr gained) (by simp [State.limitAlert])
        · exact gains (gainsIff.mpr gained)
        · refine alerts (gainsIff.mpr gained) ?_
          have fresh : (w.shaft sh).reason = .none := by
            rw [show w.shaft sh = s.shaft sh from own]
            exact fresh
          simp [State.limitAlert, fresh]
        · exact still (Bool.eq_false_iff.mpr (mt gainsIff.mp none))
        all_goals
          have tension := steps st current runs
          have width {h : Handle} {r : Reel} (winds : r.state = .winding) : (r.after h x visit).diameter = diameter h r :=
            (Reel.after_winding winds h x visit).1
        · intro n h r reference alone current there winds
          rw [tension, ← width winds, State.dref_of_reference (s := w.setEngine e) (n := n) (by rw [lanes]; exact reference)
            (fun m hm => by rw [lanes] at hm; exact alone m hm) (by rw [lanes]; exact current) (State.computed_there there)]
          rfl
        all_goals
          have without : ∀ n, ((w.setEngine e).lane n).shaft = sh ∧ ((w.setEngine e).lane n).reference = true →
              ((w.setEngine e).lane n).current = Option.none := fun n hn => by
            rw [lanes] at hn ⊢
            exact alone n hn
          have place {h : Handle} {r : Reel} : (r.after h x visit).shaft = r.shaft := by
            obtain ⟨_, _, _, e⟩ := r.after_near h x visit
            rw [e]
        · intro h r there on winds most
          have greatest := State.greatestDiameter_eq (s := w.setEngine e) (sh := sh) (State.computed_there there) (place.trans on)
            ((r.after_near h x visit).state.trans winds) fun g q hq on' winds' => by
              obtain ⟨u, hu, rfl⟩ := State.computed_back hq
              have winds' : u.state = .winding := (u.after_near g x visit).state ▸ winds'
              rw [width winds, width winds']
              exact most g u hu (place (h := g) ▸ on') winds'
          rw [tension, State.dref_without without, greatest, width winds]
          rfl
        · intro rests
          have nothing := State.greatestDiameter_none (s := w.setEngine e) (sh := sh) fun g q hq on => by
            obtain ⟨u, hu, rfl⟩ := State.computed_back hq
            rw [(u.after_near g x visit).state]
            exact rests g u hu (place (h := g) ▸ on)
          rw [tension, State.dref_without without, nothing]
          rfl
  · refine congrArg Host.Outcome.next ?_
    obtain e | e := other <;> rw [e]
  · refine congrArg Host.Outcome.next ?_
    obtain e | e := other <;> rw [e]

end Sys2Proof.Machine
end

section
/-! PROOF. A preserving reset: what its taking discards, what an abandoned save leaves and what its end rebuilds (O31). -/

namespace Sys2Proof.Machine

/-! ## An abandoned save -/

theorem Memory.write_pairwise (m : Memory) (a : Nat) (b : Byte) (h : m.Pairwise (fun c d => c.1 < d.1)) :
    (Memory.write m a b).Pairwise (fun c d => c.1 < d.1) := by
  induction m with
  | nil => unfold Memory.write; split <;> simp
  | cons c m ih =>
    obtain ⟨ahead, rest⟩ := List.pairwise_cons.mp h
    unfold Memory.write
    split
    · next low =>
      split
      · exact h
      · exact List.pairwise_cons.mpr ⟨by simpa [low] using fun x y hy => Nat.lt_trans low (ahead (x, y) hy), h⟩
    · split
      · next same =>
        split
        · exact rest
        · exact List.pairwise_cons.mpr ⟨fun d hd => same ▸ ahead d hd, rest⟩
      · refine List.pairwise_cons.mpr ⟨fun d hd => ?_, ih rest⟩
        obtain ⟨new, _⟩ | old := Memory.mem_write hd
        · rw [new]
          show c.1 < a
          omega
        · exact ahead d old

/-- After bytes have been written a byte reads as before or as the byte written there. -/
theorem Memory.read_writeBytes_either (bs : List Byte) (m : Memory) (o a : Nat) (h : m.Pairwise (fun c d => c.1 < d.1)) :
    (Memory.writeBytes m o bs).Pairwise (fun c d => c.1 < d.1) ∧
    (Memory.read (Memory.writeBytes m o bs) a = Memory.read m a ∨
      ∃ i, a = o + i ∧ bs[i]? = some (Memory.read (Memory.writeBytes m o bs) a)) := by
  induction bs generalizing m o with
  | nil => exact ⟨h, .inl rfl⟩
  | cons b bs ih =>
    obtain ⟨sorted, reads⟩ := ih (Memory.write m o b) (o + 1) (Memory.write_pairwise m o b h)
    refine ⟨sorted, ?_⟩
    obtain same | ⟨i, at', new⟩ := reads
    · by_cases here : a = o
      · subst here
        have wrote := Memory.read_write_self m a b h
        exact .inr ⟨0, rfl, congrArg some (same.trans wrote).symm⟩
      · exact .inl (same.trans (Memory.read_write_ne m o a b here h))
    · exact .inr ⟨i + 1, by omega, new⟩

theorem read_writePart {m : Memory} (h : Memory.wf m) (image : List Byte) (n a : Nat) :
    Memory.read (writePart m image n) a = Memory.read m a ∨ image[a]? = some (Memory.read (writePart m image n) a) := by
  obtain ⟨sorted, body⟩ := Memory.read_writeBytes_either ((image.drop headerLength).take n) m headerLength a h.1
  obtain ⟨_, header⟩ := Memory.read_writeBytes_either ((image.take headerLength).take (n - (image.drop headerLength).length))
    (Memory.writeBytes m headerLength ((image.drop headerLength).take n)) 0 a sorted
  change Memory.read (writePart m image n) a = _ ∨ (∃ i, _ ∧ _ = some (Memory.read (writePart m image n) a)) at header
  obtain same | ⟨i, at', new⟩ := header
  · rw [same]
    refine body.imp_right fun ⟨i, at', new⟩ => ?_
    obtain ⟨there, _⟩ := List.getElem?_eq_some_iff.mp new
    have inside : i < n := by
      rw [List.length_take] at there
      omega
    rw [List.getElem?_take_of_lt inside, List.getElem?_drop, ← at'] at new
    exact new
  · obtain ⟨within, _⟩ := List.getElem?_eq_some_iff.mp new
    have short : i < n - (image.drop headerLength).length ∧ i < headerLength := by simp at within ⊢; omega
    rw [List.getElem?_take_of_lt short.1, List.getElem?_take_of_lt short.2] at new
    rw [Nat.zero_add] at at'
    exact .inr (at' ▸ new)

/-! ## The rebuilt hold unit -/

theorem Causes.any_of_anyStop {c : Causes} (h : c.anyStop = true) : c.any = true := by rw [Causes.any, h, Bool.or_true]

/-- The holds that a cause set brings where none was active (R144, R149). -/
theorem HoldUnit.follow_fresh {h : HoldUnit} (slow : h.slow = none) (stop : h.stop = none) (override : h.override = none)
    (expiry : Nat) : h.follow expiry = { h with
      slow := if h.causes.any then some expiry else none
      stop := if h.causes.anyStop then some expiry else none
      slowEntries := if h.causes.any then satInc h.slowEntries else h.slowEntries
      stopEntries := if h.causes.anyStop then satInc h.stopEntries else h.stopEntries
      slowLine := h.slowLine || h.causes.any
      stopLine := h.stopLine || h.causes.anyStop } := by
  obtain ⟨causes, lastTravel, lastMarks, _, _, _, slowEntries, stopEntries, renewals, slowLine, stopLine⟩ := h
  cases slow
  cases stop
  cases override
  by_cases level : causes.anyStop = true
  · simp [HoldUnit.follow, HoldUnit.activateStop, HoldUnit.activateSlow, HoldUnit.releaseSlow, HoldUnit.slowDemand,
      level, Causes.any_of_anyStop level]
  · by_cases any : causes.any = true <;>
      simp [HoldUnit.follow, HoldUnit.activateStop, HoldUnit.activateSlow, HoldUnit.releaseSlow, HoldUnit.slowDemand,
        level, any]

/-- The hold unit as a preserving reset's end rebuilds it (R151). -/
def State.rebuilt (s : State) : HoldUnit :=
  { HoldUnit.initial with
    causes := s.keptCauses
    lastTravel := s.travel.free
    lastMarks := s.freeMarks
    slow := if s.keptCauses.any then some (s.now + s.settings.quantum) else none
    stop := if s.keptCauses.anyStop then some (s.now + s.settings.quantum) else none
    slowEntries := if s.keptCauses.any then 1 else 0
    stopEntries := if s.keptCauses.anyStop then 1 else 0
    slowLine := s.keptCauses.any
    stopLine := s.keptCauses.anyStop }

theorem State.rebuilt_level (s : State) : decide (s.rebuilt.level ≠ .none) = s.keptCauses.any := by
  unfold HoldUnit.level State.rebuilt
  cases stop : s.keptCauses.anyStop with
  | true => simp [Causes.any_of_anyStop stop]
  | false => cases s.keptCauses.any <;> rfl

/-- The digest unit as a preserving reset's end leaves it (R151, R172). -/
def State.rebuiltDigest (s : State) : DigestUnit :=
  if s.keptCauses.any then { DigestUnit.initial with
    changeTag := 1
    alerts := DigestUnit.initial.alerts.set (Alert.index .holdChanged) ⟨true, 1, false⟩
    attn := true }
  else .initial

theorem State.rebuildHolds_eq (s : State) (awake : s.inReset = false) (digest : s.digest = .initial) :
    s.rebuildHolds = (s.setHold s.rebuilt).setDigest s.rebuiltDigest := by
  have holds : HoldUnit.follow { HoldUnit.initial with
      causes := s.keptCauses, lastTravel := s.travel.free, lastMarks := s.freeMarks } (s.now + s.settings.quantum) =
      s.rebuilt := by
    rw [HoldUnit.follow_fresh rfl rfl rfl]
    simp [State.rebuilt, HoldUnit.initial, satInc]
  unfold State.rebuildHolds
  simp only [holds]
  rw [show (s.setHold s.rebuilt).hold = s.rebuilt from rfl, s.rebuilt_level]
  unfold State.raiseIf State.rebuiltDigest
  cases s.keptCauses.any with
  | true =>
    simp only [if_true, State.raise, State.updateDigest, DigestUnit.raise]
    have asleep : (s.setHold s.rebuilt).inReset = false := awake
    have fresh : (s.setHold s.rebuilt).digest = .initial := digest
    rw [asleep, fresh]
    rfl
  | false =>
    simp only [Bool.false_eq_true, if_false]
    rw [← digest]
    rfl

theorem State.keptCauses_congr {s t : State} (map : t.map = s.map) (shafts : t.shafts = s.shafts)
    (position : t.position = s.position) (travel : t.travel = s.travel) (marks : t.freeMarks = s.freeMarks)
    (settings : t.settings = s.settings) : t.keptCauses = s.keptCauses := by
  unfold State.keptCauses State.testMarks State.testTravel
  rw [State.feeds_congr (s := s) (t := t) (by rw [map]) shafts (by rw [position]), travel, marks, settings]

/-- The units that a preserving reset's end renews, the engine apart (R151, R181). -/
theorem State.renewUnits_eq (s : State) : s.renewUnits = { s with
    hold := s.rebuilt, port := .initial, link := .initial, digest := s.rebuiltDigest
    store := { s.store with reset := .none } } := by
  obtain ⟨w, start⟩ : ∃ w : State, w = { s with
      port := .initial, link := .initial, digest := .initial, store := { s.store with reset := .none } } := ⟨_, rfl⟩
  have causes : w.keptCauses = s.keptCauses := by subst start; exact State.keptCauses_congr rfl rfl rfl rfl rfl rfl
  have hold : w.rebuilt = s.rebuilt := by
    unfold State.rebuilt
    rw [causes, start]
  have digest : w.rebuiltDigest = s.rebuiltDigest := by rw [State.rebuiltDigest, State.rebuiltDigest, causes]
  have e : s.renewUnits = w.rebuildHolds := by rw [start]; rfl
  rw [e, State.rebuildHolds_eq w (by rw [start]; rfl) (by rw [start]), hold, digest, start]
  rfl

/-! ## The engine after a preserving reset -/

/-- An owed sweep starts and changes no more than live readings and tensions. -/
theorem State.startOwed_owing {s : State} (owed : s.engine.owed = true) :
    ∃ v p e, s.startOwed = { s with table := { s.table with reels := v }, shafts := p, engine := e } ∧
      ∀ sh, ∃ x, p.get sh = { s.shaft sh with tension := x } := by
  cases found : s.nextWinding 0 with
  | none =>
    have rests : s.restsFrom 0 := fun g _ q hq winds => by
      have := List.find?_eq_none.mp found g (List.mem_finRange g)
      simp [show s.reel g = some q from hq, winds] at this
    rw [State.startOwed_rests owed rests]
    exact ⟨s.table.reels, _, _, rfl, fun sh => ⟨_, s.tensions_shaft sh⟩⟩
  | some h =>
    have test := List.find?_some found
    cases there : s.reel h with
    | none => simp [there] at test
    | some r =>
      have visit := State.beginVisit_eq (s := s.setEngine { s.engine with owed := false, sweep := some 0 }) there
      have goes : s.startOwed = (s.setEngine { s.engine with owed := false, sweep := some 0 }).beginVisit h := by
        have next : (s.setEngine { s.engine with owed := false, sweep := some 0 }).nextWinding 0 = some h := found
        rw [State.startOwed_some owed, State.goOn, next]
      exact ⟨_, _, _, goes.trans visit, fun sh => ⟨_, Eq.refl _⟩⟩

/-- An engine that owes a sweep and has none in flight chooses its work and changes no more than live readings and tensions. -/
theorem State.chooseWork_owing {s : State} (sweep : s.engine.sweep = none) (owed : s.engine.owed = true) :
    ∃ v p e, s.chooseWork = { s with table := { s.table with reels := v }, shafts := p, engine := e } ∧
      ∀ sh, ∃ x, p.get sh = { s.shaft sh with tension := x } := by
  unfold State.chooseWork
  dsimp only
  split
  · exact ⟨_, _, _, rfl, fun sh => ⟨_, Eq.refl _⟩⟩
  · obtain ⟨v, p, e, starts, tension⟩ := State.startOwed_owing (s := s.setEngine { s.engine with activity := .idle, closing := [] }) owed
    exact ⟨v, p, e, (State.chooseSweep_none (s := s.setEngine { s.engine with activity := .idle, closing := [] }) sweep).trans starts,
      tension⟩

/-- The feeds of a preserving reset's rebuilt causes (R151). -/
theorem State.keptCauses_spec (s : State) :
    s.keptCauses.travelLow = decide (s.travel.free ≤ s.settings.travelLower) ∧
    s.keptCauses.travelEmpty = decide (s.travel.free < 2) ∧
    s.keptCauses.marksLow = decide (s.freeMarks ≤ s.settings.markLower) ∧
    s.keptCauses.untracked = s.feedsUntracked ∧ s.keptCauses.positionLimit = s.position.fault ∧
    (∀ sh, s.keptCauses.records.get sh = (s.shaft sh).records ∧
      s.keptCauses.notUnloaded.get sh = (s.shaft sh).feedsNotUnloaded ∧
      s.keptCauses.overrun.get sh = (s.shaft sh).feedsOverrun ∧
      s.keptCauses.planEnd.get sh = decide ((s.shaft sh).phase = .runout)) := by
  have low (a b n : Nat) : lowTest a b n false = decide (n ≤ a) := by
    unfold lowTest
    by_cases h : n ≤ a <;> simp [h]
  have empty (a n : Nat) : emptyTest a n false = decide (n < 2) := by
    unfold emptyTest
    by_cases h : n < 2 <;> simp [h]
  exact ⟨low .., empty .., low .., rfl, rfl, fun sh => by cases sh <;> exact ⟨rfl, rfl, rfl, rfl⟩⟩

theorem State.takePreserving_eq (s : State) : s.takePreserving = { s with
    port := .initial
    digest := { s.digest with attn := false }
    hold := { s.hold with causes := .empty }
    store := { s.store with preserve := false, lastReset := .preserved, reset := .preserving, loading := false } } := rfl

/-- The port's content falls at the taking of a preserving reset. -/
theorem State.takeReset_setPort {s : State} (flag : s.store.preserve = true) (p : Port) :
    (s.setPort p).takeReset = s.takeReset := by
  unfold State.takeReset
  rw [if_pos flag, if_pos (c := (s.setPort p).store.preserve = true) flag]
  unfold State.abandonSave
  cases save : s.store.save with
  | none => simp only [State.setPort_store, save]; rfl
  | some image => simp only [State.setPort_store, save]; rfl

/-- The end of a preserving reset: the renewed units, and the engine's choice of work (R139, R151, R181). -/
theorem State.endReset_renews {s : State} (reset : s.store.reset = .preserving) :
    ∃ u v p e, u = { s with
        hold := s.rebuilt, port := .initial, link := .initial, digest := s.rebuiltDigest
        store := { s.store with reset := .none }, engine := s.engine.renewed } ∧
      s.endReset = u.chooseWork ∧ u.chooseWork = { u with table := { u.table with reels := v }, shafts := p, engine := e } ∧
      ∀ sh, ∃ x, p.get sh = { u.shaft sh with tension := x } := by
  let u : State := { s with
    hold := s.rebuilt, port := .initial, link := .initial, digest := s.rebuiltDigest
    store := { s.store with reset := .none }, engine := s.engine.renewed }
  obtain ⟨v, p, e, work, tension⟩ := State.chooseWork_owing (s := u) rfl rfl
  refine ⟨u, v, p, e, rfl, ?_, work, tension⟩
  rw [State.endReset_preserving reset, State.renewUnits_eq]
  show State.settle _ u.chooseWork = _
  rw [work]
  refine State.settle_tensions rfl rfl tension rfl rfl rfl

/-- Settles O31. -/
theorem preservingResetKeepsTracking : Obligations.PreservingResetKeepsTracking := by
  unfold Obligations.PreservingResetKeepsTracking
  have takes {s : State} (awake : s.inReset = false) (flag : s.store.preserve = true) :
      exec .warmReset s = .next s.abandonSave.takePreserving := by
    refine congrArg Host.Outcome.next ((if_neg (by rw [awake]; decide)).trans ?_)
    exact if_pos flag
  refine ⟨fun s awake flag idle => ⟨_, takes awake flag, ?_⟩, fun s image awake flag saves wf => ⟨_, takes awake flag, ?_⟩,
    fun s ready flag => ?_, fun s reset loaded => ?_⟩
  · rw [State.abandonSave_idle idle]
    exact s.takePreserving_eq
  · have e : s.abandonSave = { s with
        freeIndex := s.freeIndex + 1
        store := { s.store with
          save := none
          eeprom := writePart s.store.eeprom image (Config.saveProgress s.freeIndex) } } := by
      unfold State.abandonSave
      rw [saves]
      rfl
    rw [e, State.takePreserving_eq]
    exact ⟨rfl, fun a => read_writePart wf image _ a⟩
  · have taken : s.takeReset = s.abandonSave.takePreserving := if_pos flag
    have part := exec_resetPart ready
    rw [State.takeReset_setPort flag, taken] at part
    exact ⟨s.abandonSave.takePreserving, s.abandonSave.takePreserving.endReset, takes ready.1 flag, rfl, part, rfl⟩
  · obtain ⟨u, v, p, e, start, ends, work, tension⟩ := State.endReset_renews reset
    obtain ⟨low, empty, marks, untracked, limit, shafts⟩ := s.keptCauses_spec
    refine ⟨_, congrArg Host.Outcome.next ends, ?_⟩
    have hold : u.chooseWork.hold = s.rebuilt := by rw [work, start]
    have digest : u.chooseWork.digest = s.rebuiltDigest := by rw [work, start]
    have shafts' (sh : Shaft) : u.shaft sh = s.shaft sh := by rw [start]; rfl
    have reel (h : Handle) : u.reel h = s.reel h := by rw [start]; rfl
    have table : u.table = s.table := by rw [start]
    have position : u.position = s.position := by rw [start]
    have stale (o : ClosingEntry) : u.stale o = s.stale o := by rw [State.stale, State.stale, reel]
    have engine : u.engine = s.engine.renewed := by rw [start]
    refine ⟨by rw [hold, digest]; rw [work, start], fun sh => ?_, ?_⟩
    · obtain ⟨x, e⟩ := tension sh
      have own : u.chooseWork.shaft sh = { s.shaft sh with tension := x } := by
        rw [work, ← shafts']
        exact e
      rw [own]
    rw [hold, digest]
    refine ⟨fun any => ?_, fun quiet => ?_, low, empty, marks, untracked, limit, shafts, rfl, rfl, rfl, rfl, rfl, rfl,
      rfl, rfl, rfl, rfl, ?_⟩
    · exact if_pos any
    · exact if_neg fun any => by
        rw [show s.keptCauses.any = false from quiet] at any
        cases any
    intro waiting
    have list : u.engine.closing = waiting := by rw [engine]; rfl
    have sweep : u.engine.sweep = none := by rw [engine]; rfl
    have owed : u.engine.owed = true := by rw [engine]; rfl
    refine ⟨fun old e later r split before there same => ?_, fun allStale => ?_⟩
    · have closes := State.chooseWork_closes (s := u) (list.trans split) (fun o ho => stale o ▸ before o ho)
        ((reel _).trans there) same
      rw [closes]
      refine ⟨table, by rw [start]; rfl, ?_⟩
      show SweepEngine.mk _ _ _ _ = _
      rw [sweep, owed]
    · have sweeps := State.chooseWork_sweeps (s := u) fun o ho => stale o ▸ allStale o (list ▸ ho)
      let w := u.setEngine { u.engine with activity := .idle, closing := [] }
      rw [State.chooseSweep_none (s := w) sweep] at sweeps
      refine ⟨fun h r there winds first => ?_, fun rests => ?_⟩
      · have begins := State.startOwed_first (s := w) owed ⟨(reel h).trans there, winds, Nat.zero_le _, fun g _ before q hq =>
          first g before q ((reel g).symm.trans hq)⟩
        rw [sweeps, begins]
        refine ⟨?_, by show u.shafts = _; rw [start], ?_⟩
        · show { u.table with reels := u.table.reels.set h (some (r.liveRead u.position.p)) } = _
          rw [table, position]
        · rw [← position]
          rfl
      · have ends := State.startOwed_rests (s := w) owed fun g _ q hq => rests g q ((reel g).symm.trans hq)
        rw [sweeps, ends]
        refine ⟨table, rfl, ?_⟩
        have same : w.tensions = s.tensions := State.tensions_congr (by show u.map = _; rw [start]) table
          (by show u.shafts = _; rw [start])
        rw [s.writeTensions_eq]
        exact same
end Sys2Proof.Machine
end

section
/-! PROOF. The release pass: what it leaves of the travel list and the watches, and where one lane of one entry lands
(O44). -/

namespace Sys2Proof.Machine

/-! ## The watches behind a pass -/

theorem State.setKnifeWatch_watch_ne (s : State) {w : Watch} (other : w ≠ .knife) : s.setKnifeWatch.watch w = s.watch w := by
  unfold State.setKnifeWatch
  split
  · exact s.watch_disarm_ne other
  · exact s.watch_arm_ne _ other

theorem State.setNipWatch_watch_ne (s : State) {sh : Shaft} {w : Watch} (other : w ≠ .nip sh) :
    (s.setNipWatch sh).watch w = s.watch w := by
  unfold State.setNipWatch
  split
  · exact s.watch_disarm_ne other
  · split
    · exact s.watch_disarm_ne other
    · exact s.watch_arm_ne _ other

theorem State.arm_ahead {s : State} {w : Watch} {x : Nat} (ahead : s.position.p < x) :
    s.arm w x = { s with position := { s.position with watches := s.position.watches.set w (some x) } } := if_pos ahead

/-- A nip watch set where the first entry stands held or beyond P hands over no arrival (R13, R82). -/
theorem State.setNipWatch_ahead {s : State} {sh : Shaft}
    (ahead : ∀ e l, s.travel.nip.get sh = e :: l → s.held sh e.arrival = false → s.position.p < e.arrival) :
    ∃ w, s.setNipWatch sh = { s with position := { s.position with watches := w } } := by
  unfold State.setNipWatch
  split
  · exact ⟨_, rfl⟩
  · next e l stage =>
    split
    · exact ⟨_, rfl⟩
    · next free => exact ⟨_, State.arm_ahead (ahead e l stage (Bool.eq_false_iff.mpr free))⟩

/-- The knife watch set where the first entry stands beyond P hands over no arrival (R13, R82). -/
theorem State.setKnifeWatch_ahead {s : State} (ahead : ∀ e l, s.travel.approach = e :: l → s.position.p < e.knife) :
    ∃ w, s.setKnifeWatch = { s with position := { s.position with watches := w } } := by
  unfold State.setKnifeWatch
  split
  · exact ⟨_, rfl⟩
  · next e l stage => exact ⟨_, State.arm_ahead (ahead e l stage)⟩

theorem head_dropWhile {α : Type} {p : α → Bool} {l : List α} {a : α} {as : List α} (h : l.dropWhile p = a :: as) :
    p a = false := by
  have head : (l.dropWhile p).head? = some a := by rw [h]; rfl
  have := List.head?_dropWhile_not p l
  rw [head] at this
  exact this

/-! ## The current parent -/

/-- The shaft's current parent behind an entry released (R95). -/
def NipEntry.parentAfter (parent : Nat) (e : NipEntry) : Nat :=
  match e.finding with
  | .splice next => next
  | _ => parent

theorem TravelList.release_current (t : TravelList) (sh : Shaft) (e : NipEntry) :
    (t.release sh e.finding).current = t.current.set sh (e.parentAfter (t.current.get sh)) := by
  unfold TravelList.release NipEntry.parentAfter
  cases e.finding with
  | splice => rfl
  | _ => exact (Pair.set_get ..).symm

theorem State.releaseEntries_current (sh : Shaft) (es : List NipEntry) (s : State) :
    (es.foldl (State.releaseEntry sh) s).travel.current =
      s.travel.current.set sh (es.foldl NipEntry.parentAfter (s.travel.current.get sh)) := by
  induction es generalizing s with
  | nil => exact (Pair.set_get ..).symm
  | cons e es ih =>
    obtain ⟨ls, t, n, k, d, entry⟩ := s.releaseEntry_frame sh e
    have current : (State.releaseEntry sh s e).travel.current =
        s.travel.current.set sh (e.parentAfter (s.travel.current.get sh)) := by
      rw [entry]
      exact s.travel.release_current sh e
    rw [List.foldl_cons, List.foldl_cons, ih, current, Pair.get_set_self, Pair.set_set]

/-! ## The pass -/

/-- The entries a release pass takes off the stage of a shaft (R91). -/
abbrev State.freed (s : State) (sh : Shaft) : List NipEntry := (s.travel.nip.get sh).takeWhile (s.releases sh)

/-- The state in which a release pass carries out the entries it has taken. -/
def State.unstaged (s : State) (sh : Shaft) : State :=
  s.setTravel { s.travel with nip := s.travel.nip.set sh ((s.travel.nip.get sh).dropWhile (s.releases sh)) }

theorem State.releasePass_eq (s : State) (sh : Shaft) :
    s.releasePass sh = ((s.freed sh).foldl (State.releaseEntry sh) (s.unstaged sh)).setNipWatch sh := rfl

/-- A release pass: the entries taken give back one slot each, the splices among them give the shaft its parent, and the
nip watch is set without handing an arrival over (R82, R91, R95). -/
theorem State.releasePass_spec (s : State) (sh : Shaft) :
    (∃ w ls t n k d, s.releasePass sh = { s with
      position := { s.position with watches := w }
      map := { s.map with lanes := ls }
      table := t
      freeMarks := n
      travel := { s.travel with
        free := s.travel.free + (s.freed sh).length
        nip := s.travel.nip.set sh ((s.travel.nip.get sh).dropWhile (s.releases sh))
        tooLate := k
        current := s.travel.current.set sh ((s.freed sh).foldl NipEntry.parentAfter (s.travel.current.get sh)) }
      digest := d }) ∧
    (s.releasePass sh).nipWatchSet sh ∧ ∀ w, w ≠ .nip sh → (s.releasePass sh).watch w = s.watch w := by
  obtain ⟨ls, t, n, c, k, d, entries⟩ := State.releaseEntries_frame sh (s.freed sh) (s.unstaged sh)
  have current := State.releaseEntries_current sh (s.freed sh) (s.unstaged sh)
  rw [entries] at current
  have current : c = s.travel.current.set sh ((s.freed sh).foldl NipEntry.parentAfter (s.travel.current.get sh)) := current
  subst current
  have pass := s.releasePass_eq sh
  rw [entries] at pass
  refine ⟨?_, pass ▸ State.setNipWatch_set _ sh, fun w other => pass ▸ State.setNipWatch_watch_ne _ other⟩
  rw [pass]
  obtain ⟨w, set⟩ := State.setNipWatch_ahead (sh := sh) (s := { s.unstaged sh with
      map := { s.map with lanes := ls }
      table := t
      freeMarks := n
      travel := { (s.unstaged sh).travel with
        free := s.travel.free + (s.freed sh).length
        tooLate := k
        current := s.travel.current.set sh ((s.freed sh).foldl NipEntry.parentAfter (s.travel.current.get sh)) }
      digest := d }) fun e l stage free => by
    have stage : (s.travel.nip.get sh).dropWhile (s.releases sh) = e :: l := (Pair.get_set_self ..).symm.trans stage
    have free : s.held sh e.arrival = false := free
    have stays := head_dropWhile stage
    simp only [State.releases, free, Bool.not_false, Bool.and_true, decide_eq_false_iff_not] at stays
    exact Nat.lt_of_not_le stays
  exact ⟨w, ls, t, n, k, d, set⟩

/-! ## One lane of one entry -/

/-- What the release of one lane leaves: a landing on the reel that covers its arrival position, or a tally (R34, R92, R94). -/
theorem State.releaseLane_spec (s : State) (sh : Shaft) (e : NipEntry) (l : LaneHit) :
    (∀ h, s.coveringReel l.lane sh e.arrival = some h → s.releaseLane sh e l = s.land h (e.mark l)) ∧
    (s.coveringReel l.lane sh e.arrival = none → s.releaseLane sh e l = { s with
      map := { s.map with lanes := s.map.lanes.set l.lane { s.lane l.lane with tally := satInc (s.lane l.lane).tally } }
      travel := { s.travel with tooLate := if e.late then satInc s.travel.tooLate else s.travel.tooLate } }) := by
  unfold State.releaseLane
  refine ⟨fun h found => by rw [found], fun none => ?_⟩
  rw [none]
  unfold State.missed
  cases e.late <;> rfl

/-- A landing reads the records, the pool and the grade tables alone. -/
theorem State.land_parts {s u : State} (table : u.table = s.table) (marks : u.freeMarks = s.freeMarks)
    (settings : u.settings = s.settings) (h : Handle) (m : Mark) :
    (u.land h m).table = (s.land h m).table ∧ (u.land h m).freeMarks = (s.land h m).freeMarks := by
  have reel : u.reel h = s.reel h := State.reel_of_table table h
  cases there : s.reel h with
  | none => rw [State.land_free there, State.land_free (reel.trans there)]; exact ⟨table, marks⟩
  | some r =>
    obtain ⟨d, e⟩ := State.land_there there m
    obtain ⟨d', e'⟩ := State.land_there (reel.trans there) m
    have chains : u.chains r = s.chains r := by unfold State.chains; rw [marks]
    have landed : u.landedReel m r = s.landedReel m r := by unfold State.landedReel; rw [chains, settings]
    rw [e, e', landed, chains, table, marks]
    exact ⟨rfl, rfl⟩

/-- A pass that releases one entry of one lane. -/
theorem State.releasePass_one {s : State} {sh : Shaft} {e : NipEntry} {l : LaneHit} (freed : s.freed sh = [e])
    (lanes : e.lanes = [l]) :
    (∀ h, s.coveringReel l.lane sh e.arrival = some h →
      (s.releasePass sh).table = (s.land h (e.mark l)).table ∧
      (s.releasePass sh).freeMarks = (s.land h (e.mark l)).freeMarks ∧
      (s.releasePass sh).map = s.map ∧ (s.releasePass sh).travel.tooLate = s.travel.tooLate) ∧
    (s.coveringReel l.lane sh e.arrival = none →
      (s.releasePass sh).table = s.table ∧ (s.releasePass sh).freeMarks = s.freeMarks ∧
      (s.releasePass sh).map = { s.map with
        lanes := s.map.lanes.set l.lane { s.lane l.lane with tally := satInc (s.lane l.lane).tally } } ∧
      (s.releasePass sh).travel.tooLate = if e.late then satInc s.travel.tooLate else s.travel.tooLate) := by
  let u := s.unstaged sh
  let v := u.releaseLane sh e l
  obtain ⟨w, a, set⟩ := (v.setTravel (v.travel.release sh e.finding)).setNipWatch_frame sh
  have pass : s.releasePass sh = (v.setTravel (v.travel.release sh e.finding)).setNipWatch sh := by
    rw [State.releasePass_eq, freed]
    show (State.setTravel _ _).setNipWatch sh = _
    rw [lanes]
    rfl
  have table : (s.releasePass sh).table = v.table := by rw [pass, set]; rfl
  have marks : (s.releasePass sh).freeMarks = v.freeMarks := by rw [pass, set]; rfl
  have map : (s.releasePass sh).map = v.map := by rw [pass, set]; rfl
  have late : (s.releasePass sh).travel.tooLate = v.travel.tooLate := by rw [pass, set]; rfl
  obtain ⟨lands, missed⟩ := u.releaseLane_spec sh e l
  rw [table, marks, map, late]
  refine ⟨fun h found => ?_, fun none => ?_⟩
  · have e' : v = u.land h (e.mark l) := lands h found
    obtain ⟨t, n, d, frame⟩ := u.land_frame h (e.mark l)
    obtain ⟨sameTable, sameMarks⟩ := State.land_parts (s := s) (u := u) rfl rfl rfl h (e.mark l)
    rw [e', sameTable, sameMarks, frame]
    exact ⟨rfl, rfl, rfl, rfl⟩
  · have e' : v = _ := missed none
    rw [e']
    exact ⟨rfl, rfl, rfl, rfl⟩

/-- Settles O44. -/
theorem releasePassesTakeWhatTheNipHasReached : Obligations.ReleasePassesTakeWhatTheNipHasReached := by
  unfold Obligations.ReleasePassesTakeWhatTheNipHasReached
  intro sh s released
  obtain ⟨taken, none⟩ | ⟨a, found, taken⟩ := s.takeArrival_cases (.nip sh)
  · refine ⟨fun _ => ?_, fun some => absurd none some⟩
    show Host.Outcome.next _ = _
    rw [taken]
  refine ⟨fun absent => absurd (found.symm.trans absent) nofun, fun _ => ?_⟩
  let u : State := { s with position := { s.position with
    arrivals := s.position.arrivals.eraseP (fun a => decide (a.watch = .nip sh)) } }
  have run : exec (.nipWatchArrival sh) s = .next (s.settle (u.releasePass sh)) := by
    show Host.Outcome.next _ = _
    rw [taken]
  obtain ⟨⟨w, ls, t, n, k, d, pass⟩, watch, others⟩ := u.releasePass_spec sh
  obtain ⟨hold, digest, settled⟩ := s.settle_frame (u.releasePass sh)
  have same (v : State) : ({ v with hold := hold, digest := digest } : State).nipWatchSet sh ↔ v.nipWatchSet sh := Iff.rfl
  refine ⟨_, run, ?_⟩
  rw [settled]
  refine ⟨by rw [pass]; rfl, by rw [pass]; rfl, by rw [pass], by rw [pass], (same _).mpr watch, others, by rw [pass],
    fun f x l late stage reached free => ?_⟩
  have releases : s.releases sh ⟨f, x, [l], late⟩ = true := by
    simp [State.releases, reached, free]
  have freed : u.freed sh = [⟨f, x, [l], late⟩] := by
    have stage : u.travel.nip.get sh = _ := stage
    have releases : u.releases sh _ = true := releases
    simp [State.freed, stage, releases]
  obtain ⟨lands, missed⟩ := State.releasePass_one freed rfl
  have current : (u.releasePass sh).travel.current = s.travel.current.set sh
      (NipEntry.parentAfter (s.travel.current.get sh) ⟨f, x, [l], late⟩) := by
    rw [pass, freed]
    rfl
  refine ⟨fun h found => ?_, fun none => ?_, fun parent splice => ?_, fun other => ?_⟩
  · obtain ⟨table, _, map, late'⟩ := lands h found
    exact ⟨table.trans (State.land_parts (s := s) (u := u) rfl rfl rfl h _).1, map, late'⟩
  · obtain ⟨table, _, map, late'⟩ := missed none
    refine ⟨table, ?_, late'⟩
    have lane : (u.releasePass sh).lane l.lane = (s.map.lanes.set l.lane { s.lane l.lane with tally := satInc (s.lane l.lane).tally })[l.lane] :=
      congrArg (fun m : KnifeMap => m.lanes[l.lane]) map
    exact congrArg LaneRec.tally (lane.trans (Vector.getElem_set_self _))
  · rw [current, splice]
    rfl
  · have still : NipEntry.parentAfter (s.travel.current.get sh) ⟨f, x, [l], late⟩ = s.travel.current.get sh := by
      unfold NipEntry.parentAfter
      split
      · next parent splice => exact absurd splice (other parent)
      · rfl
    rw [current, still, Pair.set_get]

end Sys2Proof.Machine
end

section
/-! PROOF. The knife pass: the nip entries of the approach entries taken, the release passes behind them and the watches
(O43). -/

namespace Sys2Proof.Machine

/-! ## The resolution of the entries taken -/

/-- The nip entries of a report on a shaft (R89). -/
def State.reportNips (s : State) (sh : Shaft) (e : ApproachEntry) (f : Finding) (x hi : Nat) : List NipEntry :=
  if s.laneSet sh x hi = [] then [] else [s.nipEntry e sh f (s.laneSet sh x hi)]

/-- The nip entries of an approach entry on a shaft (R89, R90). -/
def State.nips (s : State) (sh : Shaft) (e : ApproachEntry) : List NipEntry :=
  match e.content with
  | .report f x w => s.reportNips sh e f x (cutEnd s.settings.webWidth x w)
  | .splice parent => [s.nipEntry e sh (.splice parent) (s.spliceLanes sh)]

/-- An approach entry counts in the trim tally when it passes the knife (R23). -/
def State.trims (s : State) (e : ApproachEntry) : Bool :=
  match e.content with
  | .report _ x w => s.isTrim x (cutEnd s.settings.webWidth x w)
  | .splice _ => false

/-- A nip stage behind the insertion of entries. -/
abbrev insertNips (l es : List NipEntry) : List NipEntry := es.foldl (fun l e => insertNip e l) l

/-- A state whose travel list has given entries to one nip stage, with the slots they take. -/
def State.putNips (s : State) (sh : Shaft) (es : List NipEntry) : State :=
  s.setTravel { s.travel with
    free := s.travel.free - es.length
    nip := s.travel.nip.set sh (insertNips (s.travel.nip.get sh) es) }

theorem State.nips_short (s : State) (sh : Shaft) (e : ApproachEntry) : (s.nips sh e).length ≤ 1 := by
  unfold State.nips State.reportNips
  split
  · split <;> simp
  · simp

theorem State.addReport_eq {s v : State} (settings : v.settings = s.settings) (sh : Shaft) (e : ApproachEntry) (f : Finding)
    (x hi : Nat) : v.addReport e f sh (s.laneSet sh x hi) = v.putNips sh (s.reportNips sh e f x hi) := by
  have entry (l : List LaneHit) : v.nipEntry e sh f l = s.nipEntry e sh f l := by
    unfold State.nipEntry
    rw [settings]
  unfold State.addReport State.reportNips
  by_cases empty : s.laneSet sh x hi = []
  · rw [if_pos (by rw [empty]; rfl), if_pos empty]
    show v = v.setTravel { v.travel with nip := v.travel.nip.set sh (v.travel.nip.get sh) }
    rw [Pair.set_get]
    rfl
  · rw [if_neg (by simpa using empty), if_neg empty, entry]
    rfl

/-- The state behind the trim tally and the return of the slots of an approach entry (R23, R88). -/
def State.trimmed (s : State) (e : ApproachEntry) : State := { s with
  map := { s.map with trim := if s.trims e then satInc s.map.trim else s.map.trim }
  travel := { s.travel with free := s.travel.free + 2 } }

/-- An approach entry that passes the knife (R89, R90). -/
theorem State.resolveEntry_eq (s : State) (e : ApproachEntry) :
    s.resolveEntry e = ((s.trimmed e).putNips .a (s.nips .a e)).putNips .b (s.nips .b e) := by
  unfold State.resolveEntry
  cases content : e.content with
  | splice parent =>
    simp only [State.trimmed, State.trims, State.nips, content]
    rfl
  | report f x w =>
    have trimmed : (s.setTravel { s.travel with free := s.travel.free + 2 }).countTrim x (cutEnd s.settings.webWidth x w) =
        s.trimmed e := by
      unfold State.countTrim State.trimmed State.trims
      simp only [content]
      show (if s.isTrim x (cutEnd s.settings.webWidth x w) = true then _ else _) = _
      split <;> rfl
    simp only [trimmed, State.nips, content]
    have set (sh : Shaft) (hi : Nat) : (s.trimmed e).laneSet sh x hi = s.laneSet sh x hi := rfl
    rw [set, set, State.addReport_eq (s := s) (v := s.trimmed e) rfl,
      State.addReport_eq (s := s) (v := (s.trimmed e).putNips .a _) rfl]

theorem repeat_apply {α : Type} (f : α → α) (n : Nat) (a : α) : Nat.repeat f n (f a) = Nat.repeat f (n + 1) a := by
  induction n with
  | zero => rfl
  | succ n ih => exact congrArg f ih

/-- The entries of a knife pass resolved one by one (R88 to R90). -/
theorem State.resolveEntries_eq (es : List ApproachEntry) (s : State) : ∃ f,
    es.foldl State.resolveEntry s = { s with
      map := { s.map with trim := Nat.repeat satInc (es.filter s.trims).length s.map.trim }
      travel := { s.travel with
        free := f
        nip := ⟨insertNips s.travel.nip.a (es.flatMap (s.nips .a)), insertNips s.travel.nip.b (es.flatMap (s.nips .b))⟩ } } ∧
    f + (es.flatMap (s.nips .a)).length + (es.flatMap (s.nips .b)).length = s.travel.free + 2 * es.length := by
  induction es generalizing s with
  | nil => exact ⟨s.travel.free, rfl, rfl⟩
  | cons e es ih =>
    obtain ⟨u, start⟩ : ∃ u, u = s.resolveEntry e := ⟨_, rfl⟩
    have parts : u = { s with
        map := { s.map with trim := if s.trims e then satInc s.map.trim else s.map.trim }
        travel := { s.travel with
          free := s.travel.free + 2 - (s.nips .a e).length - (s.nips .b e).length
          nip := ⟨insertNips s.travel.nip.a (s.nips .a e), insertNips s.travel.nip.b (s.nips .b e)⟩ } } := by
      rw [start, s.resolveEntry_eq]
      rfl
    have nips : u.nips = s.nips := by rw [parts]; rfl
    have trims : u.trims = s.trims := by rw [parts]; rfl
    obtain ⟨f, all, count⟩ := ih u
    have a := s.nips_short .a e
    have b := s.nips_short .b e
    rw [nips] at count
    have free : u.travel.free = s.travel.free + 2 - (s.nips .a e).length - (s.nips .b e).length := by rw [parts]
    refine ⟨f, ?_, ?_⟩
    · rw [List.foldl_cons, ← start, all, nips, trims, parts]
      simp only [List.flatMap_cons, insertNips, List.foldl_append]
      congr 2
      rw [List.filter_cons]
      cases s.trims e with
      | true => exact repeat_apply satInc _ _
      | false => rfl
    · simp only [List.flatMap_cons, List.length_append, List.length_cons]
      omega

/-! ## The release passes behind the knife -/

theorem State.releasePass_calm {s : State} {sh : Shaft} (calm : ∀ e ∈ s.travel.nip.get sh, s.position.p < e.arrival) :
    s.releasePass sh = s.setNipWatch sh := by
  have stays (e : NipEntry) (mem : e ∈ s.travel.nip.get sh) : s.releases sh e = false := by
    simp [State.releases, calm e mem]
  have freed : s.freed sh = [] := by
    unfold State.freed
    cases stage : s.travel.nip.get sh with
    | nil => rfl
    | cons e l => simp [stays e (stage ▸ List.mem_cons_self)]
  have left : (s.travel.nip.get sh).dropWhile (s.releases sh) = s.travel.nip.get sh := by
    have all := List.takeWhile_append_dropWhile (p := s.releases sh) (l := s.travel.nip.get sh)
    rw [show (s.travel.nip.get sh).takeWhile (s.releases sh) = [] from freed] at all
    exact all
  rw [State.releasePass_eq, freed, List.foldl_nil, State.unstaged, left, Pair.set_get]
  rfl

/-- The release pass on a shaft whose stage has gained entries (R88). -/
def State.gain (s : State) (sh : Shaft) (es : List NipEntry) : State := if es.isEmpty then s else s.releasePass sh

theorem State.nipWatchSet_congr {s t : State} {sh : Shaft} (nip : t.travel.nip.get sh = s.travel.nip.get sh)
    (position : t.position = { s.position with watches := t.position.watches }) (watch : t.watch (.nip sh) = s.watch (.nip sh)) :
    t.nipWatchSet sh ↔ s.nipWatchSet sh := by
  have held (x : Nat) : t.held sh x = s.held sh x := by
    unfold State.held
    rw [position]
  have armed (x : Nat) : t.armedAt (.nip sh) x ↔ s.armedAt (.nip sh) x := by
    unfold State.armedAt
    rw [watch, position]
  unfold State.nipWatchSet
  simp only [nip, watch, held, armed]

/-- What the release pass behind the knife leaves of the state (R88, R91). -/
theorem State.gain_spec (s : State) (sh : Shaft) (es : List NipEntry) :
    (∃ w ls t n f p k c d, s.gain sh es = { s with
      position := { s.position with watches := w }
      map := { s.map with lanes := ls }
      table := t
      freeMarks := n
      travel := { s.travel with free := f, nip := s.travel.nip.set sh p, tooLate := k, current := c }
      digest := d }) ∧
    (es ≠ [] → (s.gain sh es).nipWatchSet sh) ∧ (∀ w, (es ≠ [] → w ≠ .nip sh) → (s.gain sh es).watch w = s.watch w) ∧
    ((∀ e ∈ s.travel.nip.get sh, s.position.p < e.arrival) →
      ∃ w, s.gain sh es = { s with position := { s.position with watches := w } }) := by
  unfold State.gain
  cases es with
  | nil =>
    refine ⟨⟨s.position.watches, s.map.lanes, s.table, s.freeMarks, s.travel.free, s.travel.nip.get sh, s.travel.tooLate,
      s.travel.current, s.digest, ?_⟩, fun h => absurd rfl h, fun _ _ => rfl, fun _ => ⟨_, rfl⟩⟩
    rw [Pair.set_get]
    rfl
  | cons e es =>
    obtain ⟨⟨w, ls, t, n, k, d, pass⟩, set, others⟩ := s.releasePass_spec sh
    refine ⟨⟨w, ls, t, n, _, _, k, _, d, pass⟩, fun _ => set, fun w other => others w (other nofun), fun calm => ?_⟩
    obtain ⟨w, watched⟩ := State.setNipWatch_ahead (s := s) (sh := sh) fun e l stage _ => calm e (stage ▸ List.mem_cons_self)
    exact ⟨w, (State.releasePass_calm calm).trans watched⟩

theorem insertNips_length (l es : List NipEntry) : (insertNips l es).length = l.length + es.length := by
  induction es generalizing l with
  | nil => rfl
  | cons e es ih =>
    have one : (insertNip e l).length = l.length + 1 := by
      rw [insertNip_eq]
      exact (insertBy_perm _).length_eq
    show (insertNips (insertNip e l) es).length = _
    rw [ih, one, List.length_cons]
    omega

theorem mem_insertNips {l es : List NipEntry} {e : NipEntry} : e ∈ insertNips l es ↔ e ∈ l ∨ e ∈ es := by
  induction es generalizing l with
  | nil => simp [insertNips]
  | cons d es ih =>
    have one : e ∈ insertNip d l ↔ e = d ∨ e ∈ l := by
      rw [insertNip_eq, (insertBy_perm _).mem_iff, List.mem_cons]
    show e ∈ insertNips (insertNip d l) es ↔ _
    rw [ih, one, List.mem_cons]
    tauto

theorem State.nips_arrival {s : State} {sh : Shaft} {e : ApproachEntry} {n : NipEntry} (mem : n ∈ s.nips sh e) :
    n.arrival = e.knife + s.settings.dKw.get sh := by
  unfold State.nips State.reportNips at mem
  split at mem
  · split at mem
    · cases mem
    · cases List.mem_singleton.mp mem
      rfl
  · cases List.mem_singleton.mp mem
    rfl

/-- Where P has reached none of the old entries of the nip stages and none of the new, the release passes release none. -/
theorem State.resolved_ahead {s : State} {sh : Shaft} (old : ∀ e ∈ s.travel.nip.get sh, s.position.p < e.arrival)
    (new : ∀ e ∈ s.travel.approach.takeWhile s.passes, s.position.p < e.knife + s.settings.dKw.get sh) :
    ∀ n ∈ insertNips (s.travel.nip.get sh) ((s.travel.approach.takeWhile s.passes).flatMap (s.nips sh)),
      s.position.p < n.arrival := fun n mem => by
  obtain there | fresh := mem_insertNips.mp mem
  · exact old n there
  · obtain ⟨e, taken, of⟩ := List.mem_flatMap.mp fresh
    rw [State.nips_arrival of]
    exact new e taken

/-- The entries that a knife pass takes (R88). -/
abbrev State.takes (s : State) : List ApproachEntry := s.travel.approach.takeWhile s.passes

/-- The nip entries that a knife pass puts into the stage of a shaft (R89, R90). -/
abbrev State.added (s : State) (sh : Shaft) : List NipEntry := s.takes.flatMap (s.nips sh)

/-- The state behind the resolution of the entries that a knife pass takes (R88 to R90). -/
def State.resolved (s : State) : State :=
  s.takes.foldl State.resolveEntry (s.setTravel { s.travel with approach := s.travel.approach.dropWhile s.passes })

theorem State.resolved_eq (s : State) : ∃ f, s.resolved = { s with
      map := { s.map with trim := Nat.repeat satInc (s.takes.filter s.trims).length s.map.trim }
      travel := { s.travel with
        free := f
        approach := s.travel.approach.dropWhile s.passes
        nip := ⟨insertNips s.travel.nip.a (s.added .a), insertNips s.travel.nip.b (s.added .b)⟩ } } ∧
    f + (s.added .a).length + (s.added .b).length = s.travel.free + 2 * s.takes.length :=
  State.resolveEntries_eq s.takes (s.setTravel { s.travel with approach := s.travel.approach.dropWhile s.passes })

theorem State.knifePass_eq (s : State) :
    s.knifePass = ((s.resolved.gain .a (s.added .a)).gain .b (s.added .b)).setKnifeWatch := by
  have gains (v : State) (sh : Shaft) (stage : v.travel.nip.get sh = insertNips (s.travel.nip.get sh) (s.added sh)) :
      s.passIfGained v sh = v.gain sh (s.added sh) := by
    unfold State.passIfGained State.gain
    rw [stage, insertNips_length]
    cases s.added sh with
    | nil => simp
    | cons e es => exact (if_pos (by simp)).trans (if_neg (by simp)).symm
  obtain ⟨f, resolved, _⟩ := s.resolved_eq
  have first := gains s.resolved .a (by rw [resolved]; rfl)
  obtain ⟨⟨w, ls, t, n, f', p, k, c, d, pass⟩, _⟩ := s.resolved.gain_spec .a (s.added .a)
  have second := gains (s.resolved.gain .a (s.added .a)) .b (by rw [pass, resolved]; rfl)
  rw [← second, ← first]
  rfl

/-- A knife pass hands no arrival over and sets the watches of the stages it has changed (R82, R88). -/
theorem State.knifePass_spec (s : State) :
    (∃ w ls t n f p k c d, s.knifePass = { s.resolved with
      position := { s.position with watches := w }
      map := { s.resolved.map with lanes := ls }
      table := t
      freeMarks := n
      travel := { s.resolved.travel with free := f, nip := p, tooLate := k, current := c }
      digest := d }) ∧
    s.knifePass.knifeWatchSet ∧ (∀ sh, s.added sh ≠ [] → s.knifePass.nipWatchSet sh) ∧
    (∀ w, w ≠ .knife → (∀ sh, s.added sh ≠ [] → w ≠ .nip sh) → s.knifePass.watch w = s.watch w) ∧
    ((∀ sh, ∀ e ∈ s.resolved.travel.nip.get sh, s.position.p < e.arrival) →
      ∃ w, s.knifePass = { s.resolved with position := { s.position with watches := w } }) ∧
    ∀ sh, s.added (other sh) = [] → ∃ w, s.knifePass = { s.resolved.gain sh (s.added sh) with
      position := { s.position with watches := w } } := by
  obtain ⟨f, resolved, _⟩ := s.resolved_eq
  have position : s.resolved.position = s.position := by rw [resolved]
  have approach : s.resolved.travel.approach = s.travel.approach.dropWhile s.passes := by rw [resolved]
  have pass := s.knifePass_eq
  generalize s.resolved = u at *
  obtain ⟨⟨wa, la, ta, na, fa, pa, ka, ca, da, first⟩, setA, othersA, calmA⟩ := u.gain_spec .a (s.added .a)
  generalize hv : u.gain .a (s.added .a) = v at *
  obtain ⟨⟨wb, lb, tb, nb, fb, pb, kb, cb, db, second⟩, setB, othersB, calmB⟩ := v.gain_spec .b (s.added .b)
  generalize hx : v.gain .b (s.added .b) = x at *
  have stage : x.travel.approach = s.travel.approach.dropWhile s.passes := by rw [second, first, ← approach]
  have p : x.position.p = s.position.p := by rw [second, first, ← position]
  obtain ⟨w, watched⟩ := State.setKnifeWatch_ahead (s := x) fun e l stage' => by
    have stays := head_dropWhile (stage.symm.trans stage')
    rw [p]
    exact Nat.lt_of_not_le (of_decide_eq_false stays)
  have knife (k : Watch) (other : k ≠ .knife) : s.knifePass.watch k = x.watch k := pass ▸ x.setKnifeWatch_watch_ne other
  refine ⟨?_, pass ▸ x.setKnifeWatch_set, fun sh gains => ?_, fun k other rest => ?_, fun calm => ?_, fun sh none => ?_⟩
  · refine ⟨w, lb, tb, nb, fb, (u.travel.nip.set .a pa).set .b pb, kb, cb, db, ?_⟩
    rw [pass, watched, second, first, position]
  · cases sh with
    | a =>
      refine (State.nipWatchSet_congr ?_ ?_ ?_).mpr (setA gains)
      · rw [pass, watched, second]
        rfl
      · rw [pass, watched, second]
      · exact (knife (.nip .a) nofun).trans (othersB (.nip .a) fun _ => nofun)
    | b =>
      refine (State.nipWatchSet_congr ?_ ?_ (knife (.nip .b) nofun)).mpr (setB gains) <;> rw [pass, watched]
  · rw [knife k other, othersB k (rest .b), othersA k (rest .a)]
    rw [State.watch, position]
    rfl
  · obtain ⟨w₁, e₁⟩ := calmA (by rw [position]; exact calm .a)
    obtain ⟨w₂, e₂⟩ := calmB (by rw [e₁]; rw [position]; exact calm .b)
    refine ⟨w, ?_⟩
    rw [pass, watched, e₂, e₁, position]
  · refine ⟨w, ?_⟩
    rw [pass, watched]
    cases sh with
    | a =>
      have same : x = v := by rw [← hx, show s.added .b = [] from none]; rfl
      rw [same, hv, first, position]
    | b =>
      have same : v = u := by rw [← hv, show s.added .a = [] from none]; rfl
      rw [← same, hx, second, first, position]

/-- Settles O43. -/
theorem knifePassesTakeWhatTheWebHasReached : Obligations.KnifePassesTakeWhatTheWebHasReached := by
  unfold Obligations.KnifePassesTakeWhatTheWebHasReached
  intro s p arrivalOf nips trims taken added
  obtain ⟨absent, stays⟩ | ⟨a, found, takes⟩ := s.takeArrival_cases .knife
  · refine ⟨fun _ => ?_, fun some => absurd stays some⟩
    show Host.Outcome.next _ = _
    rw [absent]
  refine ⟨fun absent => absurd (found.symm.trans absent) nofun, fun _ => ?_⟩
  let u : State := { s with position := { s.position with
    arrivals := s.position.arrivals.eraseP (fun a => decide (a.watch = .knife)) } }
  have run : exec .knifeWatchArrival s = .next (s.settle u.knifePass) := by
    show Host.Outcome.next _ = _
    rw [takes]
  have sameNips (sh : Shaft) : u.nips sh = nips sh := by
    funext ⟨content, knife, accepted⟩
    cases content with
    | splice parent => rfl
    | report f x w => rfl
  have sameTrims : u.trims = trims := by
    funext ⟨content, knife, accepted⟩
    cases content with
    | splice parent => rfl
    | report f x w => rfl
  have sameAdded (sh : Shaft) : u.added sh = added sh := by
    exact congrArg (fun g => u.takes.flatMap g) (sameNips sh)
  obtain ⟨f, resolved, count⟩ := u.resolved_eq
  rw [sameAdded, sameAdded, sameTrims] at resolved
  rw [sameAdded, sameAdded] at count
  obtain ⟨⟨w, ls, t, n, f', q, k, c, d, pass⟩, knife, nip, others, calm, -⟩ := u.knifePass_spec
  obtain ⟨hold, digest, settled⟩ := s.settle_frame u.knifePass
  refine ⟨_, run, ?_⟩
  rw [settled]
  refine ⟨by rw [pass, resolved]; rfl, by rw [pass], knife, fun sh gains => nip sh (by rw [sameAdded]; exact gains),
    fun v other rest => others v other fun sh gains => rest sh (by rw [← sameAdded]; exact gains),
    by rw [pass, resolved], fun ahead => ?_⟩
  have calm := calm fun sh => by
    obtain ⟨new, old⟩ := ahead sh
    have all := State.resolved_ahead (s := u) (sh := sh) old new
    rw [sameNips] at all
    rw [resolved]
    cases sh <;> exact all
  obtain ⟨w, still⟩ := calm
  rw [still, resolved]
  exact ⟨rfl, count, rfl, rfl, rfl⟩

end Sys2Proof.Machine
end

section
/-! PROOF. The acceptance of an approach entry, and splice pulses (O38). -/

namespace Sys2Proof.Machine

/-! ## Alerts through a pass -/

/-- No write of a pass clears an alert. -/
theorem Fall.isSet {s t : State} (h : Fall s t) {i : Fin 20} (set : s.digest.alerts[i].isSet = true) :
    t.digest.alerts[i].isSet = true := by
  cases h with
  | land h m =>
    cases there : s.reel h with
    | none => rw [State.land_free there]; exact set
    | some r =>
      obtain ⟨u, start, e⟩ := State.land_eq there m
      have digest : u.digest = s.digest := by rw [start]
      rw [e, State.raiseIf_isSet, State.raiseIf_isSet, digest, set]
      rfl
  | _ => exact set

theorem Falls.isSet {s t : State} (h : Falls s t) {i : Fin 20} (set : s.digest.alerts[i].isSet = true) :
    t.digest.alerts[i].isSet = true := by
  induction h with
  | refl => exact set
  | tail _ fall ih => exact fall.isSet ih

/-! ## Acceptance -/

theorem State.setKnifeWatch_arrivals (s : State) : s.position.arrivals <+: s.setKnifeWatch.position.arrivals := by
  unfold State.setKnifeWatch
  split
  · exact List.prefix_refl _
  · rw [State.arrivals_arm]
    split
    · exact List.prefix_refl _
    · exact List.prefix_append ..

/-- An entry accepted whose knife position lies beyond P waits in the approach stage (R85, R86). -/
theorem State.acceptEntry_waits {s : State} {e : ApproachEntry} (beyond : s.position.p < e.knife) :
    (∃ w a, s.acceptEntry e = { s with
      position := { s.position with watches := w, arrivals := a }
      travel := { s.travel with free := s.travel.free - 2, approach := insertApproach e s.travel.approach } }) ∧
    (s.acceptEntry e).knifeWatchSet ∧ (∀ w, w ≠ .knife → (s.acceptEntry e).watch w = s.watch w) ∧
    s.position.arrivals <+: (s.acceptEntry e).position.arrivals := by
  let u := s.setTravel { s.travel with free := s.travel.free - 2, approach := insertApproach e s.travel.approach }
  have waits : s.acceptEntry e = u.setKnifeWatch := if_neg (Nat.not_le.mpr beyond)
  rw [waits]
  obtain ⟨w, a, frame⟩ := u.setKnifeWatch_frame
  exact ⟨⟨w, a, frame⟩, u.setKnifeWatch_set, fun w other => u.setKnifeWatch_watch_ne other, u.setKnifeWatch_arrivals⟩

theorem insertBy_first {α : Type} {key : α → Nat} {e : α} {l : List α} (first : ∀ x ∈ l, key e < key x) :
    insertBy key e l = e :: l := by
  cases l with
  | nil => rfl
  | cons x l => exact if_neg (Nat.not_le.mpr (first x List.mem_cons_self))

/-- An entry accepted that P has reached, before any other, passes the knife at once (R86, R88). -/
theorem State.acceptEntry_passes {s : State} {e : ApproachEntry} (reached : e.knife ≤ s.position.p) (slots : 2 ≤ s.travel.free)
    (ahead : ∀ a ∈ s.travel.approach, s.position.p < a.knife) :
    ∃ (v : State) (f : Nat), s.acceptEntry e = v.knifePass ∧ v.position = s.position ∧ (∀ sh, v.added sh = s.nips sh e) ∧
      v.resolved = { s with
        map := { s.map with trim := if s.trims e then satInc s.map.trim else s.map.trim }
        travel := { s.travel with
          free := f
          nip := ⟨insertNips s.travel.nip.a (s.nips .a e), insertNips s.travel.nip.b (s.nips .b e)⟩ } } ∧
      f + (s.nips .a e).length + (s.nips .b e).length = s.travel.free := by
  let v := s.setTravel { s.travel with free := s.travel.free - 2, approach := insertApproach e s.travel.approach }
  have stage : v.travel.approach = e :: s.travel.approach := by
    show insertApproach e s.travel.approach = _
    rw [insertApproach_eq]
    exact insertBy_first fun a mem => Nat.lt_of_le_of_lt reached (ahead a mem)
  have passes : v.passes e = true := decide_eq_true reached
  have stays (a : ApproachEntry) (mem : a ∈ s.travel.approach) : v.passes a = false :=
    decide_eq_false (Nat.not_le.mpr (ahead a mem))
  have rest : s.travel.approach.takeWhile v.passes = [] ∧ s.travel.approach.dropWhile v.passes = s.travel.approach := by
    cases list : s.travel.approach with
    | nil => exact ⟨rfl, rfl⟩
    | cons a l =>
      have := stays a (list ▸ List.mem_cons_self)
      simp [this]
  have takes : v.takes = [e] := by
    show v.travel.approach.takeWhile v.passes = _
    rw [stage, List.takeWhile_cons, if_pos passes, rest.1]
  have leaves : v.travel.approach.dropWhile v.passes = s.travel.approach := by
    rw [stage, List.dropWhile_cons, if_pos passes, rest.2]
  have added (sh : Shaft) : v.added sh = s.nips sh e := by
    show v.takes.flatMap (v.nips sh) = _
    rw [takes]
    exact List.append_nil _
  obtain ⟨f, resolved, count⟩ := v.resolved_eq
  rw [added, added, takes] at count
  rw [added, added, takes, leaves] at resolved
  refine ⟨v, f, if_pos reached, rfl, added, ?_, ?_⟩
  · rw [resolved]
    have trims : v.trims = s.trims := rfl
    rw [trims, List.filter_cons]
    cases s.trims e <;> rfl
  · have free : v.travel.free = s.travel.free - 2 := rfl
    rw [free] at count
    simp only [List.length_cons, List.length_nil] at count
    omega

/-! ## Splice pulses -/

/-- The entry of a splice event (R86). -/
def State.spliceEntry (s : State) : ApproachEntry :=
  { content := .splice (s.travel.staged.getD 0), knife := s.position.p + s.settings.dSk, accepted := s.position.p }

/-- The state in which a splice event's entry is accepted (R86). -/
def State.unstagedParent (s : State) : State :=
  (s.setTravel { s.travel with staged := none }).raiseIf s.travel.staged.isNone .parentUnknown

theorem State.takeSplice_accepts {s : State} (near : s.position.p + s.settings.dSk + s.settings.maxKw ≤ maxPosition)
    (slots : 2 ≤ s.travel.free) : s.takeSplice = s.unstagedParent.acceptEntry s.spliceEntry :=
  (if_neg (Nat.not_lt.mpr near)).trans (if_neg (Nat.not_lt.mpr slots))

theorem State.unstagedParent_spec (s : State) : ∃ d, s.unstagedParent = { s with
      travel := { s.travel with staged := none }, digest := d } ∧
    (s.travel.staged = none → (d.alerts[Alert.index .parentUnknown]).isSet = true) := by
  obtain ⟨d, frame⟩ := (s.setTravel { s.travel with staged := none }).raiseIf_frame s.travel.staged.isNone .parentUnknown
  refine ⟨d, frame, fun unstaged => ?_⟩
  have digest := (s.setTravel { s.travel with staged := none }).raiseIf_isSet s.travel.staged.isNone .parentUnknown
    (Alert.index .parentUnknown)
  rw [frame, unstaged] at digest
  rw [show d.alerts[Alert.index .parentUnknown].isSet = _ from digest]
  simp

/-- Settles O38. -/
theorem splicesEnterTheApproachStage : Obligations.SplicesEnterTheApproachStage := by
  unfold Obligations.SplicesEnterTheApproachStage
  intro s p k reach stamp parent entry accepted
  have accepts : s.position.acceptsSplice = true ↔ accepted := by
    unfold PositionUnit.acceptsSplice
    simp only [Option.all_eq_true, decide_eq_true_eq]
    rfl
  have run : exec .splicePulse s = .next (s.settle (if s.tracking && s.position.acceptsSplice then s.stampSplice.takeSplice else s)) := rfl
  refine ⟨fun refused => ?_, fun tracks takes => ?_⟩
  · rw [run, if_neg, State.settle_self]
    intro both
    obtain ⟨tracks, takes⟩ := Bool.and_eq_true_iff.mp both
    obtain blind | late := refused
    · rw [blind] at tracks
      cases tracks
    · exact late (accepts.mp takes)
  rw [if_pos (by rw [tracks, accepts.mpr takes]; rfl)] at run
  let u := s.stampSplice
  have far : reach = u.position.p + u.settings.dSk + u.settings.maxKw := rfl
  refine ⟨_, run, ?_⟩
  have kept : (s.settle u.takeSplice).position = u.takeSplice.position := by
    obtain ⟨hold, digest, settled⟩ := s.settle_frame u.takeSplice
    rw [settled]
  by_cases out : maxPosition < reach
  · have ignored : u.takeSplice = u.raise .positionLimit := if_pos out
    rw [ignored, State.settle_untouched (before := s) (after := u.raise .positionLimit) rfl rfl rfl rfl rfl rfl]
    refine ⟨rfl, fun _ => ⟨rfl, ?_⟩, fun near => absurd out (Nat.not_lt.mpr near), fun near => absurd out (Nat.not_lt.mpr near)⟩
    rw [State.raise_alert, if_pos rfl]
  have near : reach ≤ maxPosition := Nat.not_lt.mp out
  by_cases full : s.travel.free < 2
  · let v := u.setTravel { s.travel with spliceRefusals := satInc s.travel.spliceRefusals }
    have refused : u.takeSplice = v.raise .reportsRefused := (if_neg out).trans (if_pos full)
    rw [refused, State.settle_untouched (before := s) (after := v.raise .reportsRefused) rfl rfl rfl rfl rfl rfl]
    refine ⟨rfl, fun far => absurd far out, fun _ _ => ⟨rfl, ?_⟩, fun _ slots => absurd full (Nat.not_lt.mpr slots)⟩
    rw [State.raise_alert, if_pos rfl]
  have slots : 2 ≤ s.travel.free := Nat.not_lt.mp full
  obtain ⟨d, unstaged, unknown⟩ := u.unstagedParent_spec
  have taken : u.takeSplice = u.unstagedParent.acceptEntry u.spliceEntry := u.takeSplice_accepts near slots
  generalize u.unstagedParent = v at *
  obtain ⟨hold, digest, settled⟩ := s.settle_frame u.takeSplice
  refine ⟨?_, fun far => absurd far out, fun _ short => absurd short full, fun _ _ => ⟨fun none => ?_, fun apart => ?_,
    fun joined calm ahead => ?_⟩⟩
  · obtain ⟨w, a, ls, j, t, n, f, l, p, c, k, d, frame⟩ := v.acceptEntry_frame u.spliceEntry
    rw [kept, taken, frame, unstaged]
    rfl
  · refine settle_isSet ?_
    rw [taken]
    refine (v.acceptEntry_falls u.spliceEntry).isSet ?_
    rw [unstaged]
    exact unknown none
  · have beyond : v.position.p < u.spliceEntry.knife := by
      rw [unstaged]
      exact Nat.lt_add_of_pos_right apart
    obtain ⟨⟨w, a, frame⟩, knife, others, arrivals⟩ := State.acceptEntry_waits beyond
    rw [← taken] at frame knife others arrivals
    rw [settled]
    refine ⟨?_, knife, fun w other => ?_, ?_⟩
    · rw [frame, unstaged]
      rfl
    · refine (others w other).trans ?_
      rw [unstaged]
      rfl
    · rw [unstaged] at arrivals
      exact arrivals
  · have calmer (sh : Shaft) : ∀ e ∈ v.travel.nip.get sh, v.position.p < e.arrival := by
      rw [unstaged]
      exact (ahead sh).2
    have reached : u.spliceEntry.knife = p := by
      show p + s.settings.dSk = p
      rw [joined]
      rfl
    have arrival (sh : Shaft) : u.spliceEntry.knife + v.settings.dKw.get sh = p + s.settings.dKw.get sh := by
      rw [reached, unstaged]
      rfl
    obtain ⟨x, f, passes, position, added, resolved, count⟩ := State.acceptEntry_passes (s := v) (e := u.spliceEntry)
      (by rw [reached, unstaged]; exact Nat.le_refl p) (by rw [unstaged]; exact slots) (by rw [unstaged]; exact calm)
    have nips (sh : Shaft) : v.nips sh u.spliceEntry = [entry sh] := by
      show [v.nipEntry u.spliceEntry sh (.splice parent) (v.spliceLanes sh)] = _
      have late : ¬ p + s.settings.dKw.get sh < u.spliceEntry.accepted := Nat.not_lt.mpr (Nat.le_add_right p _)
      rw [State.nipEntry, arrival, decide_eq_false late, unstaged]
      rfl
    rw [nips, nips] at resolved count
    obtain ⟨-, knife, nip, others, still, -⟩ := x.knifePass_spec
    obtain ⟨w, still⟩ := still fun sh e mem => by
      rw [position]
      have mem : e ∈ insertNip (entry sh) (v.travel.nip.get sh) := by
        rw [resolved] at mem
        cases sh <;> exact mem
      rw [insertNip_eq, (insertBy_perm _).mem_iff, List.mem_cons] at mem
      obtain rfl | old := mem
      · rw [unstaged]
        exact Nat.lt_add_of_pos_right (ahead sh).1
      · exact calmer sh e old
    rw [passes] at taken
    rw [← taken] at knife nip others still
    rw [settled]
    refine ⟨?_, knife, fun sh => nip sh ?_, fun w other rest => ?_, ?_⟩
    · have free : f = s.travel.free - 2 := by
        rw [unstaged] at count
        have count : f + 1 + 1 = s.travel.free := count
        omega
      rw [still, resolved, position, unstaged, free]
      rfl
    · rw [added, nips]
      nofun
    · refine (others w other fun sh _ => rest sh).trans ?_
      rw [State.watch, position, unstaged]
      rfl
    · rw [still, position, unstaged]
      rfl

end Sys2Proof.Machine
end

section
/-! PROOF. The thirteenth character of an inspection report (O50). -/

namespace Sys2Proof.Machine

/-! ## The tests of a report -/

/-- The finding that a report's kind, class and error give (R85). -/
def Report.gives (r : Report) (f : Finding) : Prop :=
  if r.defect then ∃ c : Fin 4, f = .defect c ∧ r.cls = c.val + 1 else f = .register r.error

theorem Report.finding_some {r : Report} (h : r.defect = true → 1 ≤ r.cls ∧ r.cls ≤ 4) : ∃ f, r.finding = some f ∧ r.gives f := by
  unfold Report.finding Report.gives
  cases defect : r.defect with
  | false => exact ⟨_, rfl, rfl⟩
  | true =>
    obtain ⟨low, high⟩ := h defect
    obtain e | e | e | e : r.cls = 1 ∨ r.cls = 2 ∨ r.cls = 3 ∨ r.cls = 4 := by omega
    all_goals rw [e]
    · exact ⟨_, rfl, 0, rfl, rfl⟩
    · exact ⟨_, rfl, 1, rfl, rfl⟩
    · exact ⟨_, rfl, 2, rfl, rfl⟩
    · exact ⟨_, rfl, 3, rfl, rfl⟩

theorem Report.gives.plain {r : Report} {f : Finding} (h : r.gives f) (p : Nat) : f ≠ .splice p := by
  unfold Report.gives at h
  split at h
  · obtain ⟨c, e, _⟩ := h
    rw [e]
    nofun
  · rw [h]
    nofun

theorem Report.finding_none {r : Report} (defect : r.defect = true) (h : ¬ (1 ≤ r.cls ∧ r.cls ≤ 4)) : r.finding = none := by
  unfold Report.finding
  rw [if_pos defect]
  split
  · omega
  · omega
  · omega
  · omega
  · rfl

/-- A report whose position, class and knife position are in range (R83). -/
def State.reportInRange (s : State) (r : Report) : Prop :=
  r.x < s.settings.webWidth ∧ (r.defect = true → 1 ≤ r.cls ∧ r.cls ≤ 4) ∧ s.reportKnife r + s.settings.maxKw ≤ maxPosition

theorem State.testReport_range {s : State} {r : Report} (h : ¬ s.reportInRange r) : s.testReport r = .error .range := by
  unfold State.testReport
  by_cases wide : s.settings.webWidth ≤ r.x
  · exact if_pos wide
  rw [if_neg wide]
  by_cases cls : r.defect = true ∧ ¬ (1 ≤ r.cls ∧ r.cls ≤ 4)
  · rw [Report.finding_none cls.1 cls.2]
  have cls : r.defect = true → 1 ≤ r.cls ∧ r.cls ≤ 4 := fun defect => by
    by_contra bad
    exact cls ⟨defect, bad⟩
  obtain ⟨f, finding, -⟩ := Report.finding_some cls
  rw [finding]
  exact if_pos (Nat.lt_of_not_le fun near => h ⟨Nat.lt_of_not_le wide, cls, near⟩)

theorem State.testReport_inRange {s : State} {r : Report} (h : s.reportInRange r) : ∃ f, r.gives f ∧
    s.testReport r = if s.travel.free < 2 then .error .travelFull else .ok f := by
  obtain ⟨wide, cls, near⟩ := h
  obtain ⟨f, finding, gives⟩ := Report.finding_some cls
  refine ⟨f, gives, ?_⟩
  unfold State.testReport
  rw [if_neg (Nat.not_le.mpr wide), finding]
  exact if_neg (Nat.not_lt.mpr near)

/-! ## One entry at the nip -/

theorem State.freed_first {s : State} {sh : Shaft} {e : NipEntry} {l : List NipEntry} (stage : s.travel.nip.get sh = e :: l)
    (releases : s.releases sh e = true) (ahead : ∀ d ∈ l, s.position.p < d.arrival) :
    s.freed sh = [e] ∧ (s.travel.nip.get sh).dropWhile (s.releases sh) = l := by
  have rest : l.takeWhile (s.releases sh) = [] ∧ l.dropWhile (s.releases sh) = l := by
    cases l with
    | nil => exact ⟨rfl, rfl⟩
    | cons d l =>
      have stays : s.releases sh d = false := by
        simp [State.releases, ahead d List.mem_cons_self]
      simp [stays]
  unfold State.freed
  rw [stage, List.takeWhile_cons, if_pos releases, List.dropWhile_cons, if_pos releases, rest.1, rest.2]
  exact ⟨rfl, rfl⟩

/-- An entry put into a stage before every other leaves at once where P has reached it and no cut holds it (R88, R91). -/
theorem State.releasePass_first {s : State} {sh : Shaft} {e : NipEntry} {old : List NipEntry}
    (stage : s.travel.nip.get sh = e :: old) (releases : s.releases sh e = true)
    (ahead : ∀ d ∈ old, s.position.p < d.arrival) (other : ∀ p, e.finding ≠ .splice p) :
    (∃ w ls t n k d, s.releasePass sh = { s with
      position := { s.position with watches := w }
      map := { s.map with lanes := ls }
      table := t
      freeMarks := n
      travel := { s.travel with free := s.travel.free + 1, nip := s.travel.nip.set sh old, tooLate := k }
      digest := d }) := by
  obtain ⟨freed, left⟩ := State.freed_first stage releases ahead
  obtain ⟨⟨w, ls, t, n, k, d, pass⟩, -⟩ := s.releasePass_spec sh
  have still : e.parentAfter (s.travel.current.get sh) = s.travel.current.get sh := by
    unfold NipEntry.parentAfter
    split
    · next p splice => exact absurd splice (other p)
    · rfl
  refine ⟨w, ls, t, n, k, d, ?_⟩
  rw [pass, freed, left, List.foldl_cons, List.foldl_nil, still, Pair.set_get]
  rfl

/-! ## A report that passes the knife at once -/

theorem State.nips_report (s : State) (sh : Shaft) (r : Report) (f : Finding) : s.nips sh (s.reportEntry r f) =
    if s.laneSet sh r.x (cutEnd s.settings.webWidth r.x r.w) = [] then [] else
      [⟨f, s.reportKnife r + s.settings.dKw.get sh, s.laneSet sh r.x (cutEnd s.settings.webWidth r.x r.w),
        decide (s.reportKnife r + s.settings.dKw.get sh < s.position.p)⟩] := rfl

/-- The lane set of a report on a shaft (R21). -/
abbrev State.reportLanes (s : State) (r : Report) (sh : Shaft) : List LaneHit :=
  s.laneSet sh r.x (cutEnd s.settings.webWidth r.x r.w)

/-- The trim tally behind the resolution of a report (R23). -/
def State.reportTrimmed (s : State) (r : Report) : KnifeMap := { s.map with
  trim := if s.isTrim r.x (cutEnd s.settings.webWidth r.x r.w) then satInc s.map.trim else s.map.trim }

/-- The nip stage of a shaft behind the resolution of a report whose nips all lie ahead (R89). -/
def State.reportStage (s : State) (r : Report) (f : Finding) (sh : Shaft) : List NipEntry :=
  if s.reportLanes r sh = [] then s.travel.nip.get sh
  else insertNip ⟨f, s.reportKnife r + s.settings.dKw.get sh, s.reportLanes r sh, false⟩ (s.travel.nip.get sh)

/-- A report accepted at or behind its knife position, where P has reached no other entry (R86, R88). -/
theorem State.acceptReport_passes {s : State} {r : Report} {f : Finding} (reached : s.reportKnife r ≤ s.position.p)
    (slots : 2 ≤ s.travel.free) (ahead : ∀ a ∈ s.travel.approach, s.position.p < a.knife)
    (calm : ∀ sh, ∀ e ∈ s.travel.nip.get sh, s.position.p < e.arrival) :
    let t := s.acceptEntry (s.reportEntry r f)
    let nip (sh : Shaft) := s.reportKnife r + s.settings.dKw.get sh
    (t.knifeWatchSet ∧ (∀ sh, s.reportLanes r sh ≠ [] → t.nipWatchSet sh) ∧
      (∀ w, w ≠ .knife → (∀ sh, s.reportLanes r sh ≠ [] → w ≠ .nip sh) → t.watch w = s.watch w) ∧
      t.position.arrivals = s.position.arrivals) ∧
    ((∀ sh, s.position.p < nip sh) → ∃ w free, t = { s with
        position := { s.position with watches := w }
        map := s.reportTrimmed r
        travel := { s.travel with free := free, nip := ⟨s.reportStage r f .a, s.reportStage r f .b⟩ } } ∧
      free + (if s.reportLanes r .a = [] then 0 else 1) + (if s.reportLanes r .b = [] then 0 else 1) = s.travel.free) ∧
    ∀ (sh : Shaft) (l : LaneHit), (∀ p, f ≠ .splice p) → s.reportLanes r sh = [l] → s.reportLanes r (other sh) = [] →
      nip sh ≤ s.position.p → s.held sh (nip sh) = false →
      let late := decide (nip sh < s.position.p)
      (∃ w ls d, t = { s with
        position := { s.position with watches := w }
        map := { s.reportTrimmed r with lanes := ls }
        table := t.table
        freeMarks := t.freeMarks
        travel := { s.travel with tooLate := t.travel.tooLate }
        digest := d }) ∧
      (∀ h, s.coveringReel l.lane sh (nip sh) = some h → t.map = s.reportTrimmed r ∧
        t.table = (s.land h ⟨f, nip sh, l.offset, l.width, late⟩).table ∧
        t.freeMarks = (s.land h ⟨f, nip sh, l.offset, l.width, late⟩).freeMarks ∧
        t.travel.tooLate = s.travel.tooLate) ∧
      (s.coveringReel l.lane sh (nip sh) = none → t.table = s.table ∧ t.freeMarks = s.freeMarks ∧
        (t.lane l.lane).tally = satInc (s.lane l.lane).tally ∧
        t.travel.tooLate = if late then satInc s.travel.tooLate else s.travel.tooLate) := by
  intro t nip
  obtain ⟨v, free, passes, position, added, resolved, count⟩ := State.acceptEntry_passes (e := s.reportEntry r f) reached slots ahead
  have trims : s.trims (s.reportEntry r f) = s.isTrim r.x (cutEnd s.settings.webWidth r.x r.w) := rfl
  have gains (sh : Shaft) : s.reportLanes r sh ≠ [] ↔ v.added sh ≠ [] := by
    rw [added, s.nips_report]
    by_cases empty : s.reportLanes r sh = []
    · simp [empty]
    · simp [empty]
  have t_eq : t = v.knifePass := passes
  obtain ⟨⟨w, ls, tb, n, fr, q, k, c, d, frame⟩, knife, set, others, still, single⟩ := v.knifePass_spec
  rw [← t_eq] at frame knife set others still single
  refine ⟨⟨knife, fun sh some => set sh ((gains sh).mp some), fun w other rest => ?_, ?_⟩, fun beyond => ?_,
    fun sh l plain one none reach loose => ?_⟩
  · refine (others w other fun sh some => rest sh ((gains sh).mpr some)).trans ?_
    rw [State.watch, position]
    rfl
  · rw [frame, position]
  · have entries (sh : Shaft) : insertNips (s.travel.nip.get sh) (s.nips sh (s.reportEntry r f)) = s.reportStage r f sh ∧
        (s.nips sh (s.reportEntry r f)).length = if s.reportLanes r sh = [] then 0 else 1 := by
      rw [s.nips_report, decide_eq_false (Nat.lt_asymm (beyond sh)), State.reportStage]
      by_cases empty : s.reportLanes r sh = []
      · simp only [if_pos empty]
        exact ⟨rfl, rfl⟩
      · simp only [if_neg empty]
        exact ⟨rfl, rfl⟩
    rw [(entries .a).2, (entries .b).2] at count
    rw [show insertNips s.travel.nip.a _ = _ from (entries .a).1, show insertNips s.travel.nip.b _ = _ from (entries .b).1,
      trims] at resolved
    obtain ⟨w, still⟩ := still fun sh e mem => by
      have mem : e ∈ insertNips (s.travel.nip.get sh) (s.nips sh (s.reportEntry r f)) := by
        rw [(entries sh).1]
        rw [resolved] at mem
        cases sh <;> exact mem
      rw [position]
      obtain old | new := mem_insertNips.mp mem
      · exact calm sh e old
      · rw [State.nips_arrival new]
        exact beyond sh
    refine ⟨w, free, ?_, count⟩
    rw [still, resolved, position]
    rfl
  · intro late
    have alone : v.added (other sh) = [] := by rw [added, s.nips_report]; exact if_pos none
    have own : v.added sh = [⟨f, nip sh, [l], late⟩] := by
      rw [added, s.nips_report]
      show (if s.reportLanes r sh = [] then _ else _) = _
      rw [if_neg (by rw [one]; nofun)]
      show [NipEntry.mk f (nip sh) (s.reportLanes r sh) late] = _
      rw [one]
    obtain ⟨w, single⟩ := single sh alone
    obtain ⟨y, start⟩ : ∃ y, y = v.resolved := ⟨_, rfl⟩
    rw [own, ← start, position] at single
    rw [← start] at resolved
    have single : t = { y.releasePass sh with position := { s.position with watches := w } } := single
    have stage : y.travel.nip.get sh = ⟨f, nip sh, [l], late⟩ :: s.travel.nip.get sh := by
      have new : insertNips (s.travel.nip.get sh) (s.nips sh (s.reportEntry r f)) = ⟨f, nip sh, [l], late⟩ :: s.travel.nip.get sh := by
        rw [← added, own]
        show insertNip _ _ = _
        rw [insertNip_eq]
        exact insertBy_first fun e mem => Nat.lt_of_le_of_lt reach (calm sh e mem)
      rw [resolved, ← new]
      cases sh <;> rfl
    have otherStage : y.travel.nip.get (other sh) = s.travel.nip.get (other sh) := by
      have new : insertNips (s.travel.nip.get (other sh)) (s.nips (other sh) (s.reportEntry r f)) =
          s.travel.nip.get (other sh) := by
        rw [← added, alone]
        rfl
      rw [resolved, ← new]
      cases sh <;> rfl
    have releases : y.releases sh ⟨f, nip sh, [l], late⟩ = true := by
      have loose : y.held sh (nip sh) = false := by rw [resolved]; exact loose
      have reach : nip sh ≤ y.position.p := by rw [resolved]; exact reach
      simp [State.releases, loose, reach]
    have ahead : ∀ d ∈ s.travel.nip.get sh, y.position.p < d.arrival := by rw [resolved]; exact calm sh
    obtain ⟨freed, -⟩ := State.freed_first stage releases ahead
    obtain ⟨w', ls, tb, n, k, d, pass⟩ := State.releasePass_first stage releases ahead plain
    obtain ⟨lands, missed⟩ := State.releasePass_one freed rfl
    have free' : y.travel.free + 1 = s.travel.free := by
      rw [← added, ← added] at count
      rw [resolved, ← count]
      cases sh with
      | a => rw [show v.added .b = [] from alone, own]; rfl
      | b => rw [show v.added .a = [] from alone, own]; rfl
    have nips' : y.travel.nip.set sh (s.travel.nip.get sh) = s.travel.nip := by
      cases sh with
      | a => exact congrArg (Pair.mk _) otherStage
      | b => exact congrArg (Pair.mk · _) otherStage
    have cover : y.coveringReel l.lane sh (nip sh) = s.coveringReel l.lane sh (nip sh) :=
      State.spotsKept.coveringReel (.of_table (by rw [resolved])) ..
    have map : y.map = s.reportTrimmed r := by rw [resolved, trims]; rfl
    have tooLate : y.travel.tooLate = s.travel.tooLate := by rw [resolved]
    have table : y.table = s.table := by rw [resolved]
    have marks : y.freeMarks = s.freeMarks := by rw [resolved]
    have parts : t.table = (y.releasePass sh).table ∧ t.freeMarks = (y.releasePass sh).freeMarks ∧
        t.map = (y.releasePass sh).map ∧ t.travel = (y.releasePass sh).travel := by
      rw [single]
      exact ⟨rfl, rfl, rfl, rfl⟩
    obtain ⟨tTable, tMarks, tMap, tTravel⟩ := parts
    refine ⟨⟨w, ls, d, ?_⟩, fun h found => ?_, fun missing => ?_⟩
    · rw [tTable, tMarks, tTravel, single, pass, nips', free', map, resolved]
    · obtain ⟨landed, spent, same, never⟩ := lands h (cover.trans found)
      obtain ⟨sameTable, sameMarks⟩ := State.land_parts (s := s) (u := y) table marks (by rw [resolved]) h
        ⟨f, nip sh, l.offset, l.width, late⟩
      rw [tTable, tMarks, tMap, tTravel]
      exact ⟨same.trans map, landed.trans sameTable, spent.trans sameMarks, never.trans tooLate⟩
    · obtain ⟨landed, spent, same, counts⟩ := missed (cover.trans missing)
      have lanes : y.map.lanes = s.map.lanes := by rw [map]; rfl
      have lane : y.lane l.lane = s.lane l.lane := congrArg (fun ls : Vector LaneRec 24 => ls[l.lane]) lanes
      rw [lane, lanes] at same
      refine ⟨tTable.trans (landed.trans table), tMarks.trans (spent.trans marks), ?_, ?_⟩
      · have own : t.lane l.lane = (s.map.lanes.set l.lane { s.lane l.lane with tally := satInc (s.lane l.lane).tally })[l.lane] :=
          congrArg (fun m : KnifeMap => m.lanes[l.lane]) (tMap.trans same)
        exact congrArg LaneRec.tally (own.trans (Vector.getElem_set_self _))
      · rw [tTravel, counts, tooLate]

/-! ## The thirteenth character -/

/-- The state with the receiver back in HUNT. -/
def State.hunting (s : State) : State := s.setLink s.link.hunting

theorem exec_thirteenth {s : State} (awake : s.inReset = false) (receiving : s.link.phase = .receiving)
    (length : s.link.bytes.length = 12) (char : Byte) :
    exec (.uartCharacter char false) s = .next (s.settle (s.hunting.takeFrame (s.link.bytes ++ [char]))) := by
  rw [exec_uartCharacter awake]
  refine congrArg (fun t => Host.Outcome.next (s.settle t)) ?_
  unfold State.takeCharacter
  rw [receiving]
  exact (if_neg (by decide)).trans (if_pos (by rw [length]))

theorem reportFrameValid_iff (bytes : List Byte) : reportFrameValid bytes = true ↔ byteAt bytes 0 = 10 ∧
    (crc16 (bytes.take 11)).toNat = fieldAt bytes 11 2 ∧ (byteAt bytes 1 = 1 ∨ byteAt bytes 1 = 2) := by
  simp only [reportFrameValid, Bool.and_eq_true, Bool.or_eq_true, decide_eq_true_eq, and_assoc]

theorem settle_refused (s : State) (why : Refused) :
    s.settle (s.hunting.refuseReport why) = s.hunting.refuseReport why :=
  State.settle_untouched rfl rfl rfl rfl rfl rfl

/-- Settles O50. -/
theorem reportsAreTestedInOrder : Obligations.ReportsAreTestedInOrder := by
  unfold Obligations.ReportsAreTestedInOrder
  intro char s awake receiving length bytes framed cls k inRange hunting finding p x hi trimmed nip refused
  let u := s.hunting
  let r := reportIn bytes
  have run : exec (.uartCharacter char false) s = .next (s.settle (u.takeFrame bytes)) := exec_thirteenth awake receiving length char
  have range : u.reportInRange r ↔ inRange := by
    show (_ ∧ (decide (byteAt bytes 1 = 1) = true → _) ∧ _) ↔ _
    rw [decide_eq_true_eq]
    exact Iff.rfl
  have gives {f : Finding} (h : r.gives f) : finding f := by
    have h : if decide (byteAt bytes 1 = 1) = true then _ else _ := h
    show if _ then _ else _
    simp only [decide_eq_true_eq] at h
    exact h
  have turned (why : Refused) (e : u.takeFrame bytes = u.refuseReport why) : s.settle (u.takeFrame bytes) = u.refuseReport why := by
    rw [e]
    exact settle_refused s why
  refine ⟨_, run, fun bad => ?_, fun good loads => ?_, fun good loaded out => ?_, fun good loaded within full => ?_,
    fun good loaded within slots beyond => ?_, fun good loaded within slots reached ahead calm => ?_⟩
  · rw [turned .badFrame (if_neg fun valid => bad ((reportFrameValid_iff bytes).mp valid))]
    exact ⟨rfl, refuseReport_raises u .badFrame⟩
  all_goals
    have valid := (reportFrameValid_iff bytes).mpr good
  · rw [turned .loading ((if_pos valid).trans (if_pos loads))]
    exact ⟨rfl, refuseReport_raises u .loading⟩
  all_goals
    have handed : u.takeFrame bytes = u.handReport r := (if_pos valid).trans (if_neg (by
      show ¬ s.store.loading = true
      rw [loaded]
      decide))
  · rw [turned .range (handed.trans (by unfold State.handReport; rw [State.testReport_range (mt range.mp out)]))]
    exact ⟨rfl, refuseReport_raises u .range⟩
  all_goals
    obtain ⟨f, is, test⟩ := State.testReport_inRange (range.mpr within)
    change u.testReport r = if s.travel.free < 2 then _ else _ at test
  · rw [turned .travelFull (handed.trans (by unfold State.handReport; rw [test, if_pos full]))]
    exact ⟨rfl, refuseReport_raises u .travelFull⟩
  all_goals
    have accepts : u.takeFrame bytes = u.acceptEntry (u.reportEntry r f) :=
      handed.trans (by unfold State.handReport; rw [test, if_neg (Nat.not_lt.mpr slots)])
    obtain ⟨hold, digest, settled⟩ := s.settle_frame (u.takeFrame bytes)
    refine ⟨f, gives is, ?_⟩
    rw [settled, accepts]
  · obtain ⟨⟨w, a, frame⟩, knife, others, arrivals⟩ := State.acceptEntry_waits (s := u) (e := u.reportEntry r f) beyond
    refine ⟨?_, knife, others, arrivals⟩
    rw [frame]
    rfl
  · obtain ⟨watches, far, near⟩ := State.acceptReport_passes (s := u) (r := r) (f := f) reached slots ahead calm
    intro stage
    refine ⟨watches, fun beyond => ?_, fun sh l one none reach loose => ?_⟩
    · obtain ⟨w, free, e, count⟩ := far beyond
      rw [e]
      exact ⟨rfl, count⟩
    · obtain ⟨⟨w, ls, d, e⟩, lands, missed⟩ := near sh l is.plain one none reach loose
      refine ⟨?_, fun h found => ?_, missed⟩
      · rw [e]
        rfl
      · obtain ⟨map, table, marks, late⟩ := lands h found
        obtain ⟨sameTable, sameMarks⟩ := State.land_parts (s := s) (u := u) rfl rfl rfl h
          ⟨f, nip sh, l.offset, l.width, decide (nip sh < p)⟩
        exact ⟨map, table.trans sameTable, marks.trans sameMarks, late⟩

end Sys2Proof.Machine
end

section
/-! PROOF. The report of a taken cut: the release pass with the latch absent and the attribution of a held operator mark
(O39). -/

namespace Sys2Proof.Machine

/-! ## What a pass leaves of lanes and tallies -/

theorem satInc_mono {m n : Nat} (h : m ≤ n) : satInc m ≤ satInc n := by
  unfold satInc
  split <;> split <;> omega

theorem le_satInc (n : Nat) : n ≤ satInc n := by
  unfold satInc
  split <;> omega

/-- Every lane stands as it stood but for its tally, which has not fallen. -/
def State.lanesKept (s t : State) : Prop :=
  ∀ n, t.lane n = { s.lane n with tally := (t.lane n).tally } ∧ (s.lane n).tally ≤ (t.lane n).tally

theorem State.lanesKept.refl (s : State) : s.lanesKept s := fun _ => ⟨rfl, Nat.le_refl _⟩

theorem State.lanesKept.trans {s t u : State} (h : s.lanesKept t) (k : t.lanesKept u) : s.lanesKept u := fun n => by
  obtain ⟨first, grows⟩ := h n
  obtain ⟨second, grows'⟩ := k n
  refine ⟨?_, Nat.le_trans grows grows'⟩
  rw [second, first]

theorem State.lanesKept.of_map {s t : State} (h : t.map.lanes = s.map.lanes) : s.lanesKept t := fun n => by
  have same : t.lane n = s.lane n := congrArg (fun ls : Vector LaneRec 24 => ls[n]) h
  rw [same]
  exact ⟨rfl, Nat.le_refl _⟩

theorem State.lanesKept.tally (s : State) (n : Lane) : s.lanesKept (s.countUntracked n) := fun m => by
  have e : (s.countUntracked n).lane m = if m = n then { s.lane n with tally := satInc (s.lane n).tally } else s.lane m :=
    State.setLane_lane ..
  rw [e]
  split
  · next same => rw [same]; exact ⟨rfl, le_satInc _⟩
  · exact ⟨rfl, Nat.le_refl _⟩

theorem Fall.lanesKept {s t : State} (h : Fall s t) : s.lanesKept t := by
  cases h with
  | land h m =>
    obtain ⟨_, _, _, e⟩ := s.land_frame h m
    rw [e]
    exact .of_map rfl
  | tally n => exact .tally s n
  | _ => exact .of_map rfl

theorem Falls.lanesKept {s t : State} (h : Falls s t) : s.lanesKept t := by
  induction h with
  | refl => exact .refl s
  | tail _ fall ih => exact ih.trans fall.lanesKept

/-- The flag tallies of all records stand as they stood. -/
def State.flagsKept (s t : State) : Prop :=
  ∀ h, (t.reel h).map (fun r => r.tallies.flag) = (s.reel h).map fun r => r.tallies.flag

theorem State.flagsKept.trans {s t u : State} (h : s.flagsKept t) (k : t.flagsKept u) : s.flagsKept u :=
  fun g => (k g).trans (h g)

theorem State.flagsKept.of_table {s t : State} (h : t.table = s.table) : s.flagsKept t := fun g => by
  rw [State.reel_of_table h]

theorem State.landedReel_tallies (s : State) (m : Mark) (r : Reel) : (s.landedReel m r).tallies = r.tallies.count m.finding := by
  obtain ⟨v, e, -⟩ := s.landedReel_eq m r
  rw [e, Reel.landed_eq]

theorem Tallies.count_flag {t : Tallies} {f : Finding} (other : f ≠ .flag) : (t.count f).flag = t.flag := by
  match f with
  | .defect 0 => rfl
  | .defect 1 => rfl
  | .defect 2 => rfl
  | .defect 3 => rfl
  | .register _ => rfl
  | .splice _ => rfl
  | .flag => exact absurd rfl other

theorem State.flagsKept.land {s : State} {h : Handle} {m : Mark} (other : m.finding ≠ .flag) : s.flagsKept (s.land h m) := by
  cases there : s.reel h with
  | none => rw [State.land_free there]; exact .of_table rfl
  | some r =>
    intro g
    rw [State.land_rewritten there m g]
    split
    · next e =>
      rw [e, there]
      have same : (s.landedReel m r).tallies.flag = r.tallies.flag := by
        rw [s.landedReel_tallies]
        exact Tallies.count_flag other
      exact congrArg some same
    · rfl

/-- A release pass over entries that are no operator marks flags no record. -/
theorem State.releasePass_flags {s : State} {sh : Shaft} (plain : ∀ e ∈ s.travel.nip.get sh, e.finding ≠ .flag) :
    s.flagsKept (s.releasePass sh) := by
  have lane (e : NipEntry) (other : e.finding ≠ .flag) (t : State) (l : LaneHit) : t.flagsKept (t.releaseLane sh e l) := by
    obtain ⟨lands, missed⟩ := t.releaseLane_spec sh e l
    cases found : t.coveringReel l.lane sh e.arrival with
    | none => rw [missed found]; exact .of_table rfl
    | some h => rw [lands h found]; exact .land other
  have entries (es : List NipEntry) (plain : ∀ e ∈ es, e.finding ≠ .flag) (t : State) :
      t.flagsKept (es.foldl (State.releaseEntry sh) t) := by
    induction es generalizing t with
    | nil => exact .of_table rfl
    | cons e es ih =>
      have one : t.flagsKept (e.lanes.foldl (fun t l => t.releaseLane sh e l) t) :=
        foldl_rel (fun _ => .of_table rfl) (fun h k => h.trans k) (lane e (plain e List.mem_cons_self)) e.lanes t
      have entry : t.flagsKept (State.releaseEntry sh t e) := one.trans (.of_table rfl)
      exact entry.trans (ih (fun e mem => plain e (List.mem_cons_of_mem _ mem)) _)
  rw [State.releasePass_eq]
  obtain ⟨w, a, set⟩ := ((s.freed sh).foldl (State.releaseEntry sh) (s.unstaged sh)).setNipWatch_frame sh
  have pass := entries (s.freed sh) (fun e mem => plain e (List.takeWhile_sublist _ |>.mem mem)) (s.unstaged sh)
  rw [set]
  exact pass.trans (.of_table rfl)

/-! ## The report of a taken cut -/

theorem State.releases_unlatched {s : State} {sh : Shaft} (latch : s.position.latch.get sh = none) :
    s.releases sh = fun e => decide (e.arrival ≤ s.position.p) := by
  funext e
  rw [State.releases, State.held, latch]
  exact Bool.and_true _

/-- The attribution of a held mark touches lanes, records, the pool, the alerts and the port. -/
theorem State.attributeHeld_frame (s : State) (sh : Shaft) : ∃ ls t n d p, s.attributeHeld sh = { s with
    map := { s.map with lanes := ls }, table := t, freeMarks := n, digest := d, port := p } := by
  unfold State.attributeHeld
  split
  · exact ⟨_, _, _, _, _, rfl⟩
  · next m _ =>
    split
    · obtain ⟨ls, t, n, d, frame⟩ := s.attribute_frame m
      refine ⟨ls, t, n, d, ?_⟩
      show ∃ p, (s.attribute m).1.setPort _ = _
      rw [frame]
      exact ⟨_, rfl⟩
    · exact ⟨_, _, _, _, _, rfl⟩

theorem State.attributeHeld_none {s : State} {sh : Shaft} (h : ∀ m ∈ s.port.held, m.shaft ≠ sh) : s.attributeHeld sh = s := by
  unfold State.attributeHeld
  split
  · rfl
  · next m held => exact if_neg (h m held)

theorem State.attribute_falls (s : State) (m : HeldMark) : Falls s (s.attribute m).1 := by
  have lane (t : State) (l : LaneHit) : Falls t (t.flagLane m l).1 := by
    unfold State.flagLane
    split
    · exact .single (.land ..)
    · exact .single (.tally ..)
  have all (ls : List LaneHit) (acc : State × List Nat) : Falls acc.1
      (ls.foldl (fun acc l => ((acc.1.flagLane m l).1, acc.2 ++ [(acc.1.flagLane m l).2])) acc).1 := by
    induction ls generalizing acc with
    | nil => exact .refl
    | cons l ls ih => exact (lane acc.1 l).trans (ih ((acc.1.flagLane m l).1, acc.2 ++ [(acc.1.flagLane m l).2]))
  exact all m.lanes (s, [])

theorem State.attributeHeld_kept (s : State) (sh : Shaft) :
    s.spotsKept (s.attributeHeld sh) ∧ s.lanesKept (s.attributeHeld sh) := by
  unfold State.attributeHeld
  split
  · exact ⟨.refl s, .refl s⟩
  · next m _ =>
    split
    · have falls := s.attribute_falls m
      exact ⟨falls.spotsKept.trans (.of_table rfl), falls.lanesKept.trans (.of_map rfl)⟩
    · exact ⟨.refl s, .refl s⟩

theorem State.reportCut_kept (s : State) (sh : Shaft) : s.spotsKept (s.reportCut sh) ∧ s.lanesKept (s.reportCut sh) := by
  have falls := s.releasePass_falls sh
  obtain ⟨spots, lanes⟩ := (s.releasePass sh).attributeHeld_kept sh
  exact ⟨falls.spotsKept.trans spots, falls.lanesKept.trans lanes⟩

/-- The report of a taken cut does at the nip what `releasesNip` says. -/
theorem State.reportCut_releases {s : State} {sh : Shaft} (latch : s.position.latch.get sh = none) :
    (∃ w ls t n tr d p, s.reportCut sh = { s with
      position := { s.position with watches := w }
      map := { s.map with lanes := ls }
      table := t
      freeMarks := n
      travel := tr
      digest := d
      port := p }) ∧
    s.releasesNip (s.reportCut sh) sh ∧ ∀ w, w ≠ .nip sh → (s.reportCut sh).watch w = s.watch w := by
  obtain ⟨⟨w, ls, t, n, k, d, pass⟩, watch, others⟩ := s.releasePass_spec sh
  obtain ⟨ls', t', n', d', p, held⟩ := (s.releasePass sh).attributeHeld_frame sh
  have reported : s.reportCut sh = (s.releasePass sh).attributeHeld sh := rfl
  have releases := State.releases_unlatched latch
  have position : (s.reportCut sh).position = (s.releasePass sh).position := by rw [reported, held]
  have travel : (s.reportCut sh).travel = (s.releasePass sh).travel := by rw [reported, held]
  refine ⟨⟨w, ls', t', n', (s.releasePass sh).travel, d', p, by rw [reported, held, pass]⟩, ⟨?_, ?_, fun e l stage lanes reached others => ?_⟩,
    fun k other => ?_⟩
  · rw [travel, pass]
    unfold State.freed
    rw [releases]
    rfl
  · refine (State.nipWatchSet_congr (by rw [travel]) (by rw [position]) ?_).mpr watch
    rw [State.watch, position]
    rfl
  · have silent : s.reportCut sh = s.releasePass sh := by
      rw [reported]
      refine State.attributeHeld_none fun m held => others m ?_
      rw [pass] at held
      exact held
    have freed : s.freed sh = [e] := by
      unfold State.freed
      rw [stage, releases]
      simp [reached]
    obtain ⟨lands, missed⟩ := State.releasePass_one freed lanes
    have cover := (s.releasePass_falls sh).spotsKept.coveringReel l.lane sh e.arrival
    rw [silent, cover]
    refine ⟨fun h found => ?_, fun none => ?_⟩
    · obtain ⟨r, there, -⟩ := State.coveringReel_some found
      obtain ⟨table, -⟩ := lands h found
      refine ⟨s.landedReel (e.mark l) r, ?_, ?_⟩
      · rw [State.reel_of_table table]
        exact (State.land_rewritten there _ h).trans (if_pos rfl)
      · rw [s.landedReel_tallies, there]
        rfl
    · obtain ⟨-, -, map, -⟩ := missed none
      have lane : (s.releasePass sh).lane l.lane = (s.map.lanes.set l.lane { s.lane l.lane with tally := satInc (s.lane l.lane).tally })[l.lane] :=
        congrArg (fun m : KnifeMap => m.lanes[l.lane]) map
      exact congrArg LaneRec.tally (lane.trans (Vector.getElem_set_self _))
  · rw [State.watch, position]
    exact others k other

theorem State.spotsKept.flaggedId {s t : State} (h : s.spotsKept t) (m : HeldMark) (l : LaneHit) :
    t.flaggedId m l = s.flaggedId m l := by
  unfold State.flaggedId
  rw [h.coveringReel]
  cases s.coveringReel l.lane m.shaft m.arrival with
  | none => rfl
  | some g => exact congrArg (Option.getD · 0) (h.id g)

/-- The ids that the attribution of a mark answers, lane by lane (R98). -/
theorem State.attribute_ids (s : State) (m : HeldMark) : (s.attribute m).2 = m.lanes.map (s.flaggedId m) := by
  have all (ls : List LaneHit) (t : State) (spots : s.spotsKept t) (ids : List Nat) :
      (ls.foldl (fun acc l => ((acc.1.flagLane m l).1, acc.2 ++ [(acc.1.flagLane m l).2])) (t, ids)).2 =
        ids ++ ls.map (s.flaggedId m) := by
    induction ls generalizing t ids with
    | nil => exact (List.append_nil _).symm
    | cons l ls ih =>
      obtain ⟨id, kept, -⟩ := t.flagLane_spec m l
      refine (ih _ (spots.trans kept) _).trans ?_
      rw [id, spots.flaggedId, List.append_assoc]
      rfl
  exact all m.lanes s (.refl s) []

/-- The report of a taken cut completes the held mark of the shaft (R98). -/
theorem State.reportCut_attributes {s : State} {sh : Shaft} {m : HeldMark} (held : s.port.held = some m) (own : m.shaft = sh) :
    m.attributed s (s.reportCut sh) := by
  obtain ⟨⟨w, ls, t, n, k, d, pass⟩, -⟩ := s.releasePass_spec sh
  have falls := s.releasePass_falls sh
  obtain ⟨y, start⟩ : ∃ y, y = s.releasePass sh := ⟨_, rfl⟩
  have port : y.port = s.port := by rw [start, pass]
  have reported : s.reportCut sh = (y.placeMark m).finish 0x35 := by
    show (s.releasePass sh).attributeHeld sh = _
    rw [← start]
    unfold State.attributeHeld
    rw [port, held]
    exact if_pos own
  obtain ⟨spots, lanes⟩ := s.reportCut_kept sh
  have finished : s.reportCut sh = (y.attribute m).1.setPort
      ((y.attribute m).1.port.complete 0x35 (markCode (y.attribute m).2) (markAnswer (y.attribute m).2)) := reported
  have samePort : (y.attribute m).1.port = s.port := by
    obtain ⟨_, _, _, _, frame⟩ := y.attribute_frame m
    rw [frame]
    exact port
  have ids : (y.attribute m).2 = m.lanes.map ((s.reportCut sh).flaggedId m) := by
    rw [y.attribute_ids]
    refine List.map_congr_left fun l _ => ?_
    rw [spots.flaggedId, start, falls.spotsKept.flaggedId]
  have code : markCode (m.lanes.map ((s.reportCut sh).flaggedId m)) =
      if m.lanes.any fun l => decide ((s.reportCut sh).flaggedId m l ≠ 0) then .ok else .tooLate := by
    rw [markCode, List.any_map]
    rfl
  have answered : (s.reportCut sh).port = s.port.complete 0x35 (markCode (y.attribute m).2) (markAnswer (y.attribute m).2) := by
    rw [finished, samePort]
    rfl
  refine ⟨by rw [answered, ids, code]; rfl, fun distinct plain l hl => ?_⟩
  obtain ⟨-, kept, lane, -, landed⟩ := attribute_foldl m m.lanes distinct y []
  have cover (n : Lane) : (s.reportCut sh).coveringReel n m.shaft m.arrival = y.coveringReel n m.shaft m.arrival := by
    rw [finished]
    exact kept.coveringReel n m.shaft m.arrival
  have same (l : LaneHit) : (s.reportCut sh).coveringReel l.lane m.shaft m.arrival = y.coveringReel l.lane m.shaft m.arrival := cover l.lane
  refine ⟨fun h found => ?_, fun missing => ?_⟩
  · have found := (same l).symm.trans found
    obtain ⟨r, there, -⟩ := State.coveringReel_some found
    obtain ⟨u, e⟩ := landed l hl h r found there
    refine ⟨u.landedReel ⟨.flag, m.arrival, l.offset, l.width, false⟩ r, ?_, ?_⟩
    · rw [finished]
      exact e
    · rw [u.landedReel_tallies]
      have flags := State.releasePass_flags (s := s) (sh := sh) (own ▸ plain) h
      rw [← start, there] at flags
      show satInc r.tallies.flag = _
      rw [← flags]
      rfl
  · have here : (s.reportCut sh).lane l.lane = { y.lane l.lane with tally := satInc (y.lane l.lane).tally } := by
      rw [finished]
      refine (lane l.lane).trans (if_pos ⟨List.mem_map_of_mem hl, (same l).symm.trans missing⟩)
    rw [here]
    exact satInc_mono (start ▸ (falls.lanesKept l.lane).2)

/-! ## Cut pulses -/

/-- Settles O39. -/
theorem cutPulsesAreStampedOnce : Obligations.CutPulsesAreStampedOnce := by
  unfold Obligations.CutPulsesAreStampedOnce
  intro sh s
  have run : exec (.cutTaken sh) s = .next (s.settle (s.cut sh)) := rfl
  have pulse : exec (.cutPulse sh) s = .next (if s.tracking then s.setPosition (s.position.stampCut sh) else s) := rfl
  refine ⟨fun tracks free => ?_, fun tracks latched => ?_, fun blind => ?_, fun free => ?_, fun latched idle => ?_⟩
  · rw [pulse, if_pos tracks, PositionUnit.stampCut, free]
    rfl
  · obtain ⟨c, latched⟩ := Option.isSome_iff_exists.mp latched
    rw [pulse, if_pos tracks, PositionUnit.stampCut, latched]
    rfl
  · rw [pulse, if_neg (by rw [blind]; decide)]
  · rw [run, State.cut, free, State.settle_self]
  · obtain ⟨c, latched⟩ := Option.isSome_iff_exists.mp latched
    let v : State := { s with
      position := { s.position with latch := s.position.latch.set sh none }
      shafts := s.shafts.set sh { s.shaft sh with ignoredCuts := satInc (s.shaft sh).ignoredCuts } }
    have taken : s.cut sh = v.reportCut sh := by
      rw [State.cut, latched]
      exact if_pos idle
    obtain ⟨⟨w, ls, t, n, tr, d, p, frame⟩, releases, others⟩ := State.reportCut_releases (s := v) (sh := sh) (Pair.get_set_self ..)
    obtain ⟨hold, digest, settled⟩ := s.settle_frame (s.cut sh)
    rw [run, settled, taken]
    refine ⟨_, rfl, by rw [frame], others, releases, by rw [frame], fun h => ?_, fun m held own => ?_, fun free => ?_, by rw [frame]⟩
    · have spots := congrArg (Option.map fun x : Nat × Lane × Shaft × Spindle × Nat × Option Nat × ReelState × Bool =>
        x.2.2.2.2.2.2.1) ((v.reportCut_kept sh).1 h)
      rw [Option.map_map, Option.map_map] at spots
      exact spots
    · exact State.reportCut_attributes (s := v) held own
    · have silent : v.reportCut sh = v.releasePass sh := by
        refine State.attributeHeld_none fun m held => free m ?_
        obtain ⟨⟨_, _, _, _, _, _, pass⟩, -⟩ := v.releasePass_spec sh
        rw [pass] at held
        exact held
      obtain ⟨⟨_, _, _, _, _, _, pass⟩, -⟩ := v.releasePass_spec sh
      rw [silent, pass]

end Sys2Proof.Machine
end

section
/-! PROOF. A row of openings: what it leaves of the lanes and of the records, and when every one of them is met (R40 to
R42, R55; O40 to O42, O57). -/

namespace Sys2Proof.Machine

/-! ## The latest end of a lane -/

/-- What a record counts for in the search of a lane's latest end on a shaft (R42). -/
def Reel.endOn (n : Lane) (sh : Shaft) (r : Reel) : Nat :=
  if r.lane = n ∧ r.shaft = sh ∧ r.flags.previousRun = false then r.stopAt.getD 0 else 0

theorem State.latestEnd_eq (s : State) (n : Lane) (sh : Shaft) :
    s.latestEnd n sh = allHandles.foldl (fun m h => max m (((s.reel h).map (Reel.endOn n sh)).getD 0)) 0 := by
  unfold State.latestEnd
  congr 1
  funext m h
  cases s.reel h with
  | none => exact (Nat.max_eq_left (Nat.zero_le m)).symm
  | some r =>
    show _ = max m (r.endOn n sh)
    unfold Reel.endOn
    dsimp only
    split
    · rfl
    · exact (Nat.max_eq_left (Nat.zero_le m)).symm

theorem State.latestEnd_congr {s t : State} {n : Lane} {sh : Shaft}
    (h : ∀ g, ((t.reel g).map (Reel.endOn n sh)).getD 0 = ((s.reel g).map (Reel.endOn n sh)).getD 0) :
    t.latestEnd n sh = s.latestEnd n sh := by
  rw [t.latestEnd_eq, s.latestEnd_eq]
  simp only [h]

/-! ## Openings in a row -/

/-- A record that an opening for a lane writes, with an id no record holds (R39, R41, R42). -/
def State.newFor (s : State) (sh : Shaft) (x : Nat) (st : PlanStep) (flags : ReelFlags) (n : Lane) (q : Reel) : Prop :=
  (∀ g, ∀ r ∈ s.reel g, r.id ≠ q.id) ∧ q = s.openedReel q.id (max x (s.latestEnd n sh)) n sh (s.shaft sh).active st
    (s.shaft sh).step (s.shaft sh).counter flags

/-- What openings for the listed lanes come to: each lane has a new record in a FREE handle or is UNTRACKED, and no other
lane and no record in use is touched (R33, R40 to R42, R122). -/
structure State.Openings (s : State) (sh : Shaft) (x : Nat) (st : PlanStep) (flags : ReelFlags) (ns : List Lane) (t : State) :
    Prop where
  frame : ∃ ls v f k c p q, t = { s with
    map := { s.map with lanes := ls }
    table := ⟨v, f, s.table.reserved.set sh k⟩
    store := { s.store with settings := { s.settings with reelIdCounter := c } }
    shafts := s.shafts.set sh { s.shaft sh with spindle1 := p, spindle2 := q } }
  others : ∀ n, n ∉ ns → t.lane n = s.lane n
  kept : ∀ h, ∀ r ∈ s.reel h, t.reel h = some r
  fresh : ∀ h, s.reel h = none → ∀ q ∈ t.reel h, ∃ n ∈ ns, s.newFor sh x st flags n q
  lanes : ∀ n ∈ ns, (∃ h q, s.reel h = none ∧ t.reel h = some q ∧ s.newFor sh x st flags n q ∧
      t.lane n = { s.lane n with current := some h, untracked := false }) ∨
    t.lane n = { s.lane n with current := none, untracked := true }

section
variable {s t u : State} {sh : Shaft} {x : Nat} {st : PlanStep} {flags : ReelFlags} {ns ms : List Lane}

theorem State.Openings.shaft (o : s.Openings sh x st flags ns t) : ∃ p q,
    t.shaft sh = { s.shaft sh with spindle1 := p, spindle2 := q } := by
  obtain ⟨ls, v, f, k, c, p, q, rfl⟩ := o.frame
  exact ⟨p, q, Pair.get_set_self ..⟩

/-- Openings leave the latest end of every lane: a new record has no end. -/
theorem State.Openings.latestEnd (o : s.Openings sh x st flags ns t) (n : Lane) (sh' : Shaft) :
    t.latestEnd n sh' = s.latestEnd n sh' := by
  refine State.latestEnd_congr fun g => ?_
  cases there : s.reel g with
  | some r => rw [o.kept g r there]
  | none =>
    cases new : t.reel g with
    | none => rfl
    | some q =>
      obtain ⟨m, -, -, e⟩ := o.fresh g there q new
      have endless : q.stopAt = none := by rw [e]; rfl
      show q.endOn n sh' = 0
      unfold Reel.endOn
      rw [endless]
      exact ite_self 0

theorem State.Openings.newFor (o : s.Openings sh x st flags ns t) {n : Lane} {q : Reel} (h : t.newFor sh x st flags n q) :
    s.newFor sh x st flags n q := by
  obtain ⟨apart, e⟩ := h
  refine ⟨fun g r there => apart g r (o.kept g r there), e.trans ?_⟩
  rw [o.latestEnd]
  obtain ⟨p, k, shaft⟩ := o.shaft
  rw [shaft]
  obtain ⟨_, _, _, _, _, _, _, rfl⟩ := o.frame
  rfl

theorem State.Openings.refl (s : State) (sh : Shaft) (x : Nat) (st : PlanStep) (flags : ReelFlags) :
    s.Openings sh x st flags [] s where
  frame := ⟨s.map.lanes, s.table.reels, s.table.free, s.table.reserved.get sh, s.settings.reelIdCounter,
    (s.shaft sh).spindle1, (s.shaft sh).spindle2, by
      have same : s.shafts.set sh (s.shaft sh) = s.shafts := Pair.set_get s.shafts sh
      rw [Pair.set_get]
      show s = { s with shafts := s.shafts.set sh (s.shaft sh) }
      rw [same]⟩
  others := fun _ _ => rfl
  kept := fun _ _ there => there
  fresh := fun h free q there => absurd (free.symm.trans there) nofun
  lanes := nofun

theorem State.Openings.trans (o : s.Openings sh x st flags ns t) (o' : t.Openings sh x st flags ms u)
    (apart : ∀ n ∈ ns, n ∉ ms) : s.Openings sh x st flags (ns ++ ms) u where
  frame := by
    obtain ⟨_, _, _, _, _, _, _, rfl⟩ := o.frame
    obtain ⟨ls, v, f, k, c, p, q, e⟩ := o'.frame
    refine ⟨ls, v, f, k, c, p, q, e.trans ?_⟩
    simp only [Pair.set_set, State.shaft, Pair.get_set_self]
  others := fun n out => by
    rw [List.mem_append, not_or] at out
    rw [o'.others n out.2, o.others n out.1]
  kept := fun h r there => o'.kept h r (o.kept h r there)
  fresh := fun h free q there => by
    cases mid : t.reel h with
    | some r =>
      cases (o'.kept h r mid).symm.trans there
      obtain ⟨n, mem, new⟩ := o.fresh h free q mid
      exact ⟨n, List.mem_append_left _ mem, new⟩
    | none =>
      obtain ⟨n, mem, new⟩ := o'.fresh h mid q there
      exact ⟨n, List.mem_append_right _ mem, o.newFor new⟩
  lanes := fun n mem => by
    rcases List.mem_append.mp mem with mem | mem
    · rw [o'.others n (apart n mem)]
      exact (o.lanes n mem).imp_left fun ⟨h, q, free, there, rest⟩ => ⟨h, q, free, o'.kept h q there, rest⟩
    · have before : t.lane n = s.lane n := o.others n fun early => apart n early mem
      rw [← before]
      refine (o'.lanes n mem).imp_left fun ⟨h, q, free, there, new, lane⟩ => ⟨h, q, ?_, there, o.newFor new, lane⟩
      cases was : s.reel h with
      | none => rfl
      | some r => exact absurd (free.symm.trans (o.kept h r was)) nofun

theorem Pool.charged_own (pool : Pool) (sh : Shaft) (reserved : Pair Nat) :
    pool.charged sh reserved = reserved.set sh ((pool.charged sh reserved).get sh) := by
  cases pool with
  | unreserved => exact (Pair.set_get ..).symm
  | reservation => simp only [Pool.charged, Pair.get_set_self]

/-- An opening that fills a FREE record is an opening for its lane. -/
theorem State.OpensAt.openings {n : Lane} {pool : Pool} {h : Handle}
    (o : s.OpensAt t n sh (s.shaft sh).active x pool flags h st) (free : s.reel h = none) :
    s.Openings sh x st flags [n] t where
  frame := by
    obtain ⟨p, q, rfl⟩ := o
    exact ⟨_, _, _, (pool.charged sh s.table.reserved).get sh, _, p, q, by rw [← Pool.charged_own]⟩
  others := fun m out => (o.lane m).trans (if_neg fun e => out (List.mem_singleton.mpr e))
  kept := fun g r there => (o.reel g).trans ((if_neg fun e => by
    rw [e] at there
    exact absurd (free.symm.trans there) nofun).trans there)
  fresh := fun g none q there => by
    rw [o.reel g] at there
    split at there
    · cases there
      exact ⟨n, List.mem_cons_self, fun g r there => State.nextId_fresh there, rfl⟩
    · exact absurd (none.symm.trans there) nofun
  lanes := fun m mem => by
    obtain rfl := List.mem_singleton.mp mem
    refine .inl ⟨h, _, free, (o.reel h).trans (if_pos rfl), ⟨fun g r there => State.nextId_fresh there, rfl⟩, ?_⟩
    exact (o.lane m).trans (if_pos rfl)

theorem State.openForLane_openings (step : ∀ now ∈ (s.shaft sh).currentStep, now = st) (n : Lane) (pool : Pool) :
    s.Openings sh x st flags [n] (s.openForLane n sh (s.shaft sh).active x pool flags) := by
  obtain ⟨h, st', p, q, -, step', free, -, e⟩ | e := s.openForLane_cases n sh (s.shaft sh).active x pool flags
  · cases step st' step'
    exact State.OpensAt.openings (h := h) ⟨p, q, e⟩ free
  · have lane (m : Lane) : (s.openForLane n sh (s.shaft sh).active x pool flags).lane m =
        if m = n then { s.lane n with current := none, untracked := true } else s.lane m := by
      rw [e]
      exact State.setLane_lane ..
    have table : (s.openForLane n sh (s.shaft sh).active x pool flags).table = s.table := by rw [e]; rfl
    have reel := State.reel_of_table table
    refine ⟨?_, fun m out => ?_, fun g r there => (reel g).trans there, fun g free q there => ?_, fun m mem => ?_⟩
    · have same : s.shafts.set sh (s.shaft sh) = s.shafts := Pair.set_get s.shafts sh
      refine ⟨s.map.lanes.set n { s.lane n with current := none, untracked := true }, s.table.reels, s.table.free,
        s.table.reserved.get sh, s.settings.reelIdCounter, (s.shaft sh).spindle1, (s.shaft sh).spindle2, e.trans ?_⟩
      rw [Pair.set_get]
      show _ = { s with map := _, shafts := s.shafts.set sh (s.shaft sh) }
      rw [same]
      rfl
    · exact (lane m).trans (if_neg fun same => out (List.mem_singleton.mpr same))
    · rw [reel g, free] at there
      cases there
    · obtain rfl := List.mem_singleton.mp mem
      exact .inr ((lane m).trans (if_pos rfl))

/-- Openings for the listed lanes in a row, as a cut or a start makes them (R106, R122). -/
def State.openLanes (s : State) (sh : Shaft) (x : Nat) (taken : Phase) (flags : ReelFlags) (ns : List Lane) : State :=
  ns.foldl (fun u n => u.openForLane n sh (u.shaft sh).active x (u.cutPool sh taken) flags) s

theorem State.Openings.currentStep (o : s.Openings sh x st flags ns t) : (t.shaft sh).currentStep = (s.shaft sh).currentStep := by
  obtain ⟨p, q, e⟩ := o.shaft
  rw [e]
  rfl

theorem State.openLanes_openings (step : ∀ now ∈ (s.shaft sh).currentStep, now = st) (taken : Phase) (distinct : ns.Nodup) :
    s.Openings sh x st flags ns (s.openLanes sh x taken flags ns) := by
  induction ns generalizing s with
  | nil => exact .refl s sh x st flags
  | cons n ns ih =>
    obtain ⟨out, distinct⟩ := List.nodup_cons.mp distinct
    have one : s.Openings sh x st flags [n] _ := State.openForLane_openings step n (s.cutPool sh taken)
    refine one.trans (ih (one.currentStep ▸ step) distinct) fun m mem => ?_
    rw [List.mem_singleton.mp mem]
    exact out

/-! ## Openings that are met -/

/-- How many openings the pools of a cut or a start can meet (R40, R55, R122). -/
def State.supply (s : State) (sh : Shaft) (taken : Phase) : Nat :=
  s.table.free - (s.table.reserved.a + s.table.reserved.b) + if taken = .changePending then s.table.reserved.get sh else 0

/-- An opening with a supply is met, and takes one from the supply. -/
theorem State.openForLane_supplied {taken : Phase} {n : Lane} (law : RecordLaw s) (step : (s.shaft sh).currentStep = some st)
    (supply : 1 ≤ s.supply sh taken) : ∃ h, s.reel h = none ∧
      s.OpensAt (s.openForLane n sh (s.shaft sh).active x (s.cutPool sh taken) flags) n sh (s.shaft sh).active x
        (s.cutPool sh taken) flags h st ∧ 1 ≤ s.table.free := by
  obtain ⟨count, few⟩ := law
  have part : s.table.reserved.get sh ≤ s.table.reserved.a + s.table.reserved.b := by
    cases sh
    · exact Nat.le_add_right ..
    · exact Nat.le_add_left ..
  have some : 1 ≤ s.table.free := by
    unfold State.supply at supply
    split at supply <;> omega
  have met : s.poolMeets sh (s.cutPool sh taken) = true := by
    unfold State.supply at supply
    unfold State.cutPool
    split
    · next reserved => exact decide_eq_true reserved.2
    · next other =>
      refine decide_eq_true ?_
      split at supply
      · next pending => 
        have : ¬ 1 ≤ s.table.reserved.get sh := fun h => other ⟨pending, h⟩
        omega
      · omega
  obtain ⟨h, free, opens⟩ := State.openForLane_met (n := n) (sp := (s.shaft sh).active) (x := x) (flags := flags) met step
    (RecordLaw.exists_free ⟨count, few⟩ some)
  exact ⟨h, free, opens, some⟩

theorem State.OpensAt.supply {taken : Phase} {n : Lane} {h : Handle} (few : s.table.reserved.a + s.table.reserved.b ≤ s.table.free)
    (some : 1 ≤ s.supply sh taken)
    (o : s.OpensAt t n sh (s.shaft sh).active x (s.cutPool sh taken) flags h st) : t.supply sh taken + 1 = s.supply sh taken := by
  obtain ⟨p, q, rfl⟩ := o
  have none : taken = .changePending → ¬ 1 ≤ s.table.reserved.get sh → 1 ≤ s.table.free - (s.table.reserved.a + s.table.reserved.b) := by
    intro pending least
    simp only [State.supply, if_pos pending] at some
    omega
  unfold State.supply at some ⊢
  dsimp only
  by_cases reserved : taken = .changePending ∧ 1 ≤ s.table.reserved.get sh
  · have pool : s.cutPool sh taken = .reservation := if_pos reserved
    obtain ⟨pending, least⟩ := reserved
    rw [pool]
    simp only [Pool.charged, if_pos pending, Pair.get_set_self] at some ⊢
    cases sh <;> simp only [Pair.set, Pair.get] at some least ⊢ <;> omega
  · have pool : s.cutPool sh taken = .unreserved := if_neg reserved
    rw [pool]
    have least : 1 ≤ s.table.free - (s.table.reserved.a + s.table.reserved.b) := by
      by_cases pending : taken = .changePending
      · exact none pending fun least => reserved ⟨pending, least⟩
      · rwa [if_neg pending] at some
    simp only [Pool.charged]
    omega

/-- Openings for enabled lanes are all met where the supply suffices, each from the free count. -/
theorem State.openLanes_supplied {taken : Phase} (law : RecordLaw s) (step : (s.shaft sh).currentStep = some st)
    (enabled : ∀ n ∈ ns, (s.lane n).enabled = true) (distinct : ns.Nodup) (supply : ns.length ≤ s.supply sh taken) :
    (∀ n ∈ ns, ((s.openLanes sh x taken flags ns).lane n).untracked = false) ∧
      (s.openLanes sh x taken flags ns).table.free + ns.length = s.table.free := by
  induction ns generalizing s with
  | nil => exact ⟨nofun, rfl⟩
  | cons n ns ih =>
    obtain ⟨out, apart⟩ := List.nodup_cons.mp distinct
    obtain ⟨h, free, opens, least⟩ := State.openForLane_supplied (n := n) (x := x) (flags := flags) (taken := taken) law step
      ((Nat.succ_le_succ (Nat.zero_le _)).trans supply)
    obtain ⟨u, start⟩ : ∃ u, u = s.openForLane n sh (s.shaft sh).active x (s.cutPool sh taken) flags := ⟨_, rfl⟩
    have rest : s.openLanes sh x taken flags (n :: ns) = u.openLanes sh x taken flags ns := by rw [start]; rfl
    have one := opens.openings free
    have left := opens.supply law.2 ((Nat.succ_le_succ (Nat.zero_le _)).trans supply)
    have taken' : u.table.free = s.table.free - 1 := by
      obtain ⟨_, _, e⟩ := opens
      rw [start, e]
    have law' : RecordLaw u :=
      start ▸ (Deed.opening (L := True) s n sh _ x _ flags (enabled n List.mem_cons_self)).keeps_records law
    rw [← start] at one left
    have after := State.openLanes_openings (x := x) (flags := flags) (st := st)
      (fun now h => Option.some.inj (h.symm.trans (one.currentStep.trans step))) taken apart
    obtain ⟨tracked, count⟩ := ih law' (one.currentStep.trans step)
      (fun m mem => by
        rw [one.others m fun same => out (List.mem_singleton.mp same ▸ mem)]
        exact enabled m (List.mem_cons_of_mem _ mem)) apart
      (by rw [List.length_cons] at supply; omega)
    rw [rest]
    refine ⟨fun m mem => ?_, by rw [List.length_cons]; omega⟩
    rcases List.mem_cons.mp mem with rfl | mem
    · rw [after.others m out, start, opens.lane m, if_pos rfl]
    · exact tracked m mem

theorem State.openLanes_reserved {taken : Phase} (other : taken ≠ .changePending) (s : State) (ns : List Lane) :
    (s.openLanes sh x taken flags ns).table.reserved = s.table.reserved := by
  induction ns generalizing s with
  | nil => rfl
  | cons n ns ih =>
    refine (ih (s.openForLane n sh (s.shaft sh).active x (s.cutPool sh taken) flags)).trans ?_
    have pool : s.cutPool sh taken = .unreserved := if_neg fun h => other h.1
    obtain ⟨_, _, _, _, _, _, _, _, e⟩ | e := s.openForLane_cases n sh (s.shaft sh).active x (s.cutPool sh taken) flags
    · rw [e, pool]
      rfl
    · rw [e]
      rfl

end

end Sys2Proof.Machine
end

section
/-! PROOF. The closing of a shaft's set and the work that it hands to the sweep engine (R45, R46, R120, R127; O40, O57). -/

namespace Sys2Proof.Machine

/-! ## The entries of a closed set -/

theorem State.closingEntries_eq (s : State) (sh : Shaft) : s.closingEntries sh = s.woundEntries sh := by
  unfold State.closingEntries State.woundEntries
  congr 1
  funext h
  cases s.reel h with
  | none => rfl
  | some r =>
    unfold Reel.closes
    simp only [Bool.and_eq_true, Bool.or_eq_true, decide_eq_true_eq, Option.bind_some]

theorem State.mem_woundEntries {s : State} {sh : Shaft} {e : ClosingEntry} (mem : e ∈ s.woundEntries sh) :
    ∃ r, s.reel e.handle = some r ∧ r.id = e.id ∧ r.closes sh = true := by
  obtain ⟨h, -, found⟩ := List.mem_filterMap.mp mem
  obtain ⟨r, there, entry⟩ := Option.bind_eq_some_iff.mp found
  split at entry
  · next closes =>
    cases entry
    exact ⟨r, there, rfl, by simpa [Reel.closes] using closes⟩
  · cases entry

theorem State.woundEntries_distinct (s : State) (sh : Shaft) :
    (s.woundEntries sh).Pairwise fun d e => d.handle ≠ e.handle := by
  refine List.Pairwise.filterMap _ (fun g h ne d hd e he => ?_) (List.nodup_finRange 96)
  have own {h : Handle} {e : ClosingEntry} (he : ((s.reel h).bind fun r =>
      if r.shaft = sh ∧ (r.state = .winding ∨ r.state = .ended) then some (⟨h, r.id⟩ : ClosingEntry) else none) = some e) :
      e.handle = h := by
    obtain ⟨r, -, entry⟩ := Option.bind_eq_some_iff.mp he
    split at entry
    · cases entry; rfl
    · cases entry
  rw [own hd, own he]
  exact ne

/-- A list with an entry that is not stale has a first one. -/
theorem State.exists_first_live {s : State} {l : List ClosingEntry} (live : ∃ e ∈ l, ¬ s.stale e) :
    ∃ old e later, l = old ++ e :: later ∧ (∀ o ∈ old, s.stale o) ∧ ¬ s.stale e := by
  induction l with
  | nil => obtain ⟨e, mem, -⟩ := live; cases mem
  | cons a l ih =>
    by_cases stale : s.stale a
    · obtain ⟨e, mem, alive⟩ := live
      rcases List.mem_cons.mp mem with rfl | mem
      · exact absurd stale alive
      · obtain ⟨old, e, later, split, before, alive⟩ := ih ⟨e, mem, alive⟩
        refine ⟨a :: old, e, later, by rw [split]; rfl, fun o ho => ?_, alive⟩
        rcases List.mem_cons.mp ho with rfl | ho
        · exact stale
        · exact before o ho
    · exact ⟨[], a, l, rfl, nofun, stale⟩

theorem State.not_stale {s : State} {e : ClosingEntry} : ¬ s.stale e ↔ ∃ r, s.reel e.handle = some r ∧ r.id = e.id := by
  simp only [State.stale, not_forall, not_not, Option.mem_def, exists_prop]

theorem State.stale_congr {s t : State} {e : ClosingEntry}
    (same : (t.reel e.handle).map Reel.id = (s.reel e.handle).map Reel.id) : t.stale e ↔ s.stale e := by
  have ids {x y : Option Reel} (h : x.map Reel.id = y.map Reel.id) (other : ∀ r ∈ y, r.id ≠ e.id) : ∀ r ∈ x, r.id ≠ e.id := by
    intro r there
    rw [Option.mem_def.mp there, Option.map_some, eq_comm, Option.map_eq_some_iff] at h
    obtain ⟨q, there, id⟩ := h
    exact id ▸ other q there
  exact ⟨ids same.symm, ids same⟩

/-! ## The closing of a set -/

theorem State.closeReels_reel (s : State) (sh : Shaft) (x : Nat) (short : Bool) (h : Handle) :
    (s.closeReels sh x short).reel h = (s.reel h).map fun r => if r.closes sh then r.close x short else r :=
  State.mapReels_reel ..

theorem Reel.close_id (r : Reel) (x : Nat) (short : Bool) : (r.close x short).id = r.id := (r.close_same x short).1

/-- The closing of a set rewrites its records and hands them to the engine. -/
theorem State.closeSet_spec (s : State) (sh : Shaft) (x : Nat) (short : Bool) :
    (∃ v e, s.closeSet sh x short = { s with table := { s.table with reels := v }, engine := e }) ∧
    (∀ h, (s.closeSet sh x short).reel h = (s.reel h).map fun r => if r.closes sh then r.close x short else r) ∧
    s.queuesWound (s.closeSet sh x short) sh := by
  obtain ⟨u, start⟩ : ∃ u, u = s.closeReels sh x short := ⟨_, rfl⟩
  have reels (h : Handle) := s.closeReels_reel sh x short h
  obtain ⟨v, frame⟩ := s.closeReels_frame sh x short
  rw [← start] at frame reels
  have stale (e : ClosingEntry) : u.stale e ↔ s.stale e := State.stale_congr (by
    rw [reels, Option.map_map]
    congr 1
    funext r
    rw [Function.comp_apply, apply_ite Reel.id, r.close_id, ite_self])
  have set : s.closeSet sh x short = u.queueClosing (s.woundEntries sh) := by
    rw [start, ← s.closingEntries_eq]
    rfl
  have added := addClosing_eq s.engine.closing (s.woundEntries sh) (s.woundEntries_distinct sh)
  by_cases none : s.woundEntries sh = []
  · have bare : s.closeSet sh x short = u := by
      rw [set, none]
      rfl
    rw [bare]
    refine ⟨⟨v, s.engine, frame⟩, reels, ?_⟩
    unfold State.queuesWound
    rw [if_pos (.inl none), none, frame]
    simp
  · have engine : u.engine = s.engine := by rw [frame]
    have reset : u.inReset = s.inReset := by rw [frame]; rfl
    obtain ⟨w, queued⟩ : ∃ w, w = u.setEngine { u.engine with closing := addClosing u.engine.closing (s.woundEntries sh) } :=
      ⟨_, rfl⟩
    have arrives : s.closeSet sh x short = w.workArrives := by
      rw [set, queued]
      unfold State.queueClosing
      rw [if_neg (by simpa using none)]
    have list : w.engine.closing = s.engine.closing.filter (fun o => (s.woundEntries sh).all fun e =>
        decide (o.handle ≠ e.handle)) ++ s.woundEntries sh := by
      rw [queued, engine]
      exact added
    have whole : w = { s with table := { s.table with reels := v }, engine := { s.engine with closing := w.engine.closing } } := by
      rw [queued, frame]
      rfl
    have same (h : Handle) : w.reel h = u.reel h := by rw [queued]; rfl
    by_cases busy : s.engine.activity ≠ .idle ∨ s.inReset = true
    · have rests : w.workArrives = w := by
        unfold State.workArrives
        refine if_neg fun h => ?_
        rw [whole] at h
        rcases busy with busy | busy
        · exact busy h.1
        · exact absurd (busy.symm.trans h.2) nofun
      rw [arrives, rests]
      refine ⟨⟨v, _, whole⟩, fun h => (same h).trans (reels h), ?_⟩
      unfold State.queuesWound
      rw [if_pos (.inr busy), whole, list]
    · rw [not_or, not_not, Bool.not_eq_true] at busy
      have chooses : w.workArrives = w.chooseWork := by
        unfold State.workArrives
        exact if_pos (by rw [whole]; exact busy)
      have alive (e : ClosingEntry) : ¬ w.stale e ↔ ¬ s.stale e := by
        rw [← stale, State.stale, State.stale, same]
      have chosen {old later : List ClosingEntry} {e : ClosingEntry} (split : w.engine.closing = old ++ e :: later)
          (before : ∀ o ∈ old, s.stale o) (live : ¬ s.stale e) : ∃ q, w.reel e.handle = some q ∧
            w.chooseWork = w.setEngine { w.engine with activity := .closing (q.readings e.handle q.footage), closing := later } := by
        obtain ⟨q, there, id⟩ := State.not_stale.mp ((alive e).mpr live)
        exact ⟨q, there, State.chooseWork_closes split (fun o ho => not_not.mp (mt (alive o).mp (not_not.mpr (before o ho))))
          there id⟩
      obtain ⟨old, e, later, split, before, live⟩ := State.exists_first_live (s := s) (l := w.engine.closing) (by
        obtain ⟨e, mem⟩ := List.exists_mem_of_ne_nil _ none
        obtain ⟨r, there, id, -⟩ := State.mem_woundEntries mem
        exact ⟨e, by rw [list]; exact List.mem_append_right _ mem, State.not_stale.mpr ⟨r, there, id⟩⟩)
      obtain ⟨q, there, work⟩ := chosen split before live
      rw [arrives, chooses]
      have kept (h : Handle) : w.chooseWork.reel h = w.reel h := by rw [work]; rfl
      refine ⟨⟨v, _, by rw [work, whole]; rfl⟩, fun h => (kept h).trans ((same h).trans (reels h)), ?_⟩
      unfold State.queuesWound
      rw [if_neg (by simp only [none, busy, ne_eq, not_true_eq_false, Bool.false_eq_true, or_self, not_false_eq_true])]
      intro old e later split before live
      obtain ⟨q, there, work⟩ := chosen (list.trans split) before live
      refine ⟨q, (kept _).trans there, ?_⟩
      rw [work, whole]
      rfl

/-- What a closing hands to the engine, of states in which the records keep their readings. -/
theorem State.queuesWound.congr {s s' t t' : State} {sh : Shaft} (h : s'.queuesWound t' sh) (engine : s'.engine = s.engine)
    (reset : s'.inReset = s.inReset) (wound : s'.woundEntries sh = s.woundEntries sh)
    (ids : ∀ g, (s'.reel g).map Reel.id = (s.reel g).map Reel.id) (after : t.engine = t'.engine)
    (reads : ∀ g, ∀ q ∈ t'.reel g, ∃ q' ∈ t.reel g, q'.readings g q'.footage = q.readings g q.footage) : s.queuesWound t sh := by
  have stale (e : ClosingEntry) : s'.stale e ↔ s.stale e := State.stale_congr (ids e.handle)
  unfold State.queuesWound at h ⊢
  rw [engine, reset, wound] at h
  dsimp only at h ⊢
  split at h
  · next c => rw [if_pos c, after]; exact h
  · next c =>
    rw [if_neg c]
    intro old e later split before live
    obtain ⟨q, there, work⟩ := h old e later split (fun o ho => (stale o).mpr (before o ho)) (mt (stale e).mp live)
    obtain ⟨q', there', same⟩ := reads _ q there
    exact ⟨q', there', by rw [after, work, same]⟩

end Sys2Proof.Machine
end

section
/-! PROOF. The thresholds that a cut catches up and the spindle that it finds FULL (R119; O40, O41). -/

namespace Sys2Proof.Machine

/-! ## Thresholds caught up -/

/-- A cut at c catches up a threshold of the shaft (R119). -/
def ShaftRec.catches (r : ShaftRec) (c : Nat) (k : Threshold) : Bool :=
  r.thresholds.any fun th => !(th.get k).fired && decide ((th.get k).position ≤ c)

/-- A record as a cut leaves it that catches up the overrun threshold of its shaft, or not (R119). -/
def Reel.overrunIf (sh : Shaft) (caught : Bool) (r : Reel) : Reel :=
  if r.shaft = sh ∧ r.state = .winding then { r with flags := { r.flags with overrun := r.flags.overrun || caught } } else r

theorem Reel.overrunIf_false (sh : Shaft) (r : Reel) : r.overrunIf sh false = r := by
  unfold Reel.overrunIf
  simp only [Bool.or_false, ite_self]

/-- What catching up the listed thresholds does. -/
structure State.CatchesUp (s : State) (sh : Shaft) (c : Nat) (ks : List Threshold) (t : State) : Prop where
  frame : ∃ th reason v d, t = { s with
    shafts := s.shafts.set sh { s.shaft sh with thresholds := th, reason := reason }
    table := { s.table with reels := v }
    digest := d }
  reels : ∀ h, t.reel h = (s.reel h).map (Reel.overrunIf sh (decide (.overrun ∈ ks) && (s.shaft sh).catches c .overrun))
  isSet : ∀ i : Fin 20, s.digest.alerts[i].isSet = true → t.digest.alerts[i].isSet = true
  alerts : ∀ k ∈ ks, (s.shaft sh).catches c k = true → ∀ i : Fin 20, s.alertOf sh i k = true →
    t.digest.alerts[i].isSet = true
  later : ∀ k, k ∉ ks → (t.shaft sh).catches c k = (s.shaft sh).catches c k
  reason : .due ∉ ks → (t.shaft sh).reason = (s.shaft sh).reason

theorem State.CatchesUp.refl (s : State) (sh : Shaft) (c : Nat) : s.CatchesUp sh c [] s where
  frame := by
    have same : s.shafts.set sh (s.shaft sh) = s.shafts := Pair.set_get s.shafts sh
    refine ⟨(s.shaft sh).thresholds, (s.shaft sh).reason, s.table.reels, s.digest, ?_⟩
    show s = { s with shafts := s.shafts.set sh (s.shaft sh) }
    rw [same]
  reels := fun h => by
    have none : (decide (Threshold.overrun ∈ ([] : List Threshold)) && (s.shaft sh).catches c .overrun) = false := rfl
    rw [none]
    cases s.reel h with
    | none => rfl
    | some r => exact congrArg some (r.overrunIf_false sh).symm
  isSet := fun _ set => set
  alerts := nofun
  later := fun _ _ => rfl
  reason := fun _ => rfl

theorem ThresholdSet.catches_firedIf (th : ThresholdSet) {j k : Threshold} (ne : j ≠ k) (b : Bool) : (th.firedIf b k).get j = th.get j := by
  rw [th.firedIf_get, if_neg ne]

/-- A change-due event by length at a cut makes no attempt (R111, R119). -/
theorem State.changeDue_caught (s : State) (sh : Shaft) : s.changeDue sh .length false = s.dueByLength sh := by
  have reason : decide (DueReason.after .length (s.shaft sh).reason ≠ (s.shaft sh).reason) =
      decide ((s.shaft sh).reason ≠ .length) := decide_eq_decide.mpr ne_comm
  unfold State.changeDue
  simp only [reason, Bool.false_and, Bool.false_eq_true, if_false]
  rfl

/-- The alert that a threshold raises as a cut catches it up. -/
theorem State.fire_caught_isSet (s : State) (sh : Shaft) (k : Threshold) (i : Fin 20) :
    (s.fire sh true k).digest.alerts[i].isSet = (s.digest.alerts[i].isSet || s.alertOf sh i k) := by
  cases k with
  | approach => exact State.raise_isSet ..
  | window => exact (Bool.or_false _).symm
  | due =>
    have fired : s.fire sh true .due = (s.setShaft sh ((s.shaft sh).markFired .due)).dueByLength sh := State.changeDue_caught ..
    rw [fired, State.dueByLength, State.raiseIf_isSet, State.setShaft_shaft_self]
    rfl
  | overrun => exact State.raise_isSet ((s.setShaft sh ((s.shaft sh).markFired .overrun)).flagOverrun sh true) _ i

/-- What a threshold that a cut catches up leaves of the shaft and the records. -/
theorem State.fire_caught_frame {s : State} {sh : Shaft} {th : ThresholdSet} (h : (s.shaft sh).thresholds = some th)
    (k : Threshold) : ∃ v d, s.fire sh true k = { s with
      shafts := s.shafts.set sh { s.shaft sh with
        thresholds := some (th.firedIf true k), reason := if k = .due then .length else (s.shaft sh).reason }
      table := { s.table with reels := v }
      digest := d } := by
  have marked := ShaftRec.markFired_eq h k
  cases k with
  | approach =>
    unfold State.fire
    rw [marked]
    exact ⟨_, _, rfl⟩
  | window =>
    unfold State.fire
    rw [marked]
    exact ⟨_, _, rfl⟩
  | due =>
    obtain ⟨u, start⟩ : ∃ u, u = s.setShaft sh ((s.shaft sh).markFired .due) := ⟨_, rfl⟩
    have fired : s.fire sh true .due = u.dueByLength sh := start ▸ State.changeDue_caught ..
    obtain ⟨d, e⟩ := (u.setShaft sh { u.shaft sh with reason := .length }).raiseIf_frame
      (decide ((u.shaft sh).reason ≠ .length)) (.changeDue sh)
    refine ⟨s.table.reels, d, (fired.trans e).trans ?_⟩
    have own : u.shaft sh = { s.shaft sh with thresholds := some (th.firedIf true .due) } := by
      rw [start, State.setShaft_shaft_self, marked]
    have shafts : u.shafts.set sh { u.shaft sh with reason := .length } = s.shafts.set sh { u.shaft sh with reason := .length } := by
      rw [start]
      exact Pair.set_set ..
    show { u with shafts := u.shafts.set sh { u.shaft sh with reason := .length }, digest := d } = _
    rw [shafts, own, start]
    rfl
  | overrun =>
    obtain ⟨v, hv⟩ := State.flagOverrun_frame (s.setShaft sh ((s.shaft sh).markFired .overrun)) sh true
    obtain ⟨d, hd⟩ := State.raise_frame ((s.setShaft sh ((s.shaft sh).markFired .overrun)).flagOverrun sh true) (.overrun sh)
    refine ⟨v, d, hd.trans ?_⟩
    rw [hv, marked]
    rfl

theorem State.fire_caught_reel (s : State) (sh : Shaft) (k : Threshold) (g : Handle) :
    (s.fire sh true k).reel g = (s.reel g).map (Reel.overrunIf sh (decide (k = .overrun))) := by
  have still {t : State} (table : t.table = s.table) (other : decide (k = .overrun) = false) :
      t.reel g = (s.reel g).map (Reel.overrunIf sh (decide (k = .overrun))) := by
    rw [State.reel_of_table table, other]
    cases s.reel g with
    | none => rfl
    | some r => exact congrArg some (r.overrunIf_false sh).symm
  cases k with
  | approach => exact still rfl rfl
  | window => exact still rfl rfl
  | due =>
    refine still ?_ rfl
    refine (congrArg State.table (State.changeDue_caught (s.setShaft sh ((s.shaft sh).markFired .due)) sh)).trans ?_
    unfold State.dueByLength
    obtain ⟨d, e⟩ := ((s.setShaft sh ((s.shaft sh).markFired .due)).setShaft sh
      { (s.setShaft sh ((s.shaft sh).markFired .due)).shaft sh with reason := .length }).raiseIf_frame
      (decide (((s.setShaft sh ((s.shaft sh).markFired .due)).shaft sh).reason ≠ .length)) (.changeDue sh)
    rw [e]
    rfl
  | overrun =>
    refine (State.mapReels_reel (s.setShaft sh ((s.shaft sh).markFired .overrun)) _ g).trans ?_
    congr 1
    funext r
    unfold Reel.overrunIf
    rw [if_pos rfl]
    simp only [decide_true, Bool.or_true]

/-- A threshold that a cut catches up fires: its shaft's record, its alert and for the overrun the records' flags. -/
theorem State.fire_caught {s : State} {sh : Shaft} {th : ThresholdSet} (h : (s.shaft sh).thresholds = some th) {c : Nat}
    {k : Threshold} (caught : (s.shaft sh).catches c k = true) : s.CatchesUp sh c [k] (s.fire sh true k) := by
  obtain ⟨v, d, frame⟩ := State.fire_caught_frame h k
  have own : (s.fire sh true k).shaft sh = { s.shaft sh with
      thresholds := some (th.firedIf true k), reason := if k = .due then .length else (s.shaft sh).reason } := by
    rw [frame]
    exact Pair.get_set_self ..
  refine ⟨⟨_, _, v, d, frame⟩, fun g => ?_, fun i set => ?_, fun j mem _ i alert => ?_, fun j out => ?_, fun out => ?_⟩
  · rw [s.fire_caught_reel]
    congr 2
    by_cases e : k = .overrun
    · rw [e] at caught ⊢
      simp only [caught, List.mem_singleton, decide_true, Bool.and_true]
    · have none : decide (.overrun ∈ [k]) = false := decide_eq_false fun h => e (List.mem_singleton.mp h).symm
      rw [none, Bool.false_and]
      exact decide_eq_false e
  · rw [s.fire_caught_isSet, set, Bool.true_or]
  · rw [s.fire_caught_isSet, ← List.mem_singleton.mp mem, alert, Bool.or_true]
  · unfold ShaftRec.catches
    rw [own, h]
    simp only [Option.any_some, th.catches_firedIf (fun e => out (List.mem_singleton.mpr e))]
  · rw [own]
    exact if_neg fun e => out (List.mem_singleton.mpr e.symm)

theorem State.CatchesUp.skip {s : State} {sh : Shaft} {c : Nat} {k : Threshold} (spared : (s.shaft sh).catches c k = false) :
    s.CatchesUp sh c [k] s := by
  have none := State.CatchesUp.refl s sh c
  refine ⟨none.frame, fun g => ?_, none.isSet, fun j mem caught => ?_, fun _ _ => rfl, fun _ => rfl⟩
  · have quiet : (decide (.overrun ∈ [k]) && (s.shaft sh).catches c .overrun) = false := by
      by_cases e : k = .overrun
      · rw [e] at spared
        rw [spared, Bool.and_false]
      · rw [decide_eq_false fun mem => e (List.mem_singleton.mp mem).symm, Bool.false_and]
    rw [quiet]
    exact none.reels g
  · rw [List.mem_singleton.mp mem, spared] at caught
    cases caught

theorem State.CatchesUp.cons {s t u : State} {sh : Shaft} {c : Nat} {k : Threshold} {ks : List Threshold}
    (one : s.CatchesUp sh c [k] t) (rest : t.CatchesUp sh c ks u) (out : k ∉ ks) : s.CatchesUp sh c (k :: ks) u := by
  have alertOf (j : Threshold) (ne : j ≠ k) (mem : j ∈ ks) (i : Fin 20) : t.alertOf sh i j = s.alertOf sh i j := by
    cases j with
    | due =>
      have same := one.reason fun h => ne (List.mem_singleton.mp h)
      unfold State.alertOf
      rw [same]
    | _ => rfl
  refine ⟨?_, fun g => ?_, fun i set => rest.isSet i (one.isSet i set), fun j mem caught i alert => ?_, fun j absent => ?_, fun absent => ?_⟩
  · obtain ⟨_, _, _, _, e⟩ := one.frame
    obtain ⟨th, reason, v, d, e'⟩ := rest.frame
    refine ⟨th, reason, v, d, ?_⟩
    rw [e', e]
    simp only [Pair.set_set, State.shaft, Pair.get_set_self]
  · rw [rest.reels, one.reels, Option.map_map]
    congr 1
    funext r
    by_cases e : k = .overrun
    · subst e
      have none : decide (.overrun ∈ ks) = false := decide_eq_false out
      simp only [none, Bool.false_and, Function.comp_apply, Reel.overrunIf_false, List.mem_cons_self, decide_true]
    · have none : decide (.overrun ∈ [k]) = false := decide_eq_false fun h => e (List.mem_singleton.mp h).symm
      have head : decide (.overrun ∈ k :: ks) = decide (Threshold.overrun ∈ ks) :=
        decide_eq_decide.mpr (List.mem_cons.trans (or_iff_right fun h => e h.symm))
      rw [Function.comp_apply, none, head, Bool.false_and, Reel.overrunIf_false,
        one.later .overrun fun h => e (List.mem_singleton.mp h).symm]
  · rcases List.mem_cons.mp mem with rfl | mem
    · exact rest.isSet i (one.alerts j List.mem_cons_self caught i alert)
    · have ne : j ≠ k := fun e => out (e ▸ mem)
      refine rest.alerts j mem ?_ i ((alertOf j ne mem i).trans alert)
      rw [one.later j fun h => ne (List.mem_singleton.mp h), caught]
  · rw [List.mem_cons, not_or] at absent
    rw [rest.later j absent.2, one.later j fun h => absent.1 (List.mem_singleton.mp h)]
  · rw [List.mem_cons, not_or] at absent
    rw [rest.reason absent.2, one.reason fun h => absent.1 (List.mem_singleton.mp h)]

/-- A cut catches up the thresholds that stand unfired at or below it (R119). -/
theorem State.fireUpTo_catches (s : State) (sh : Shaft) (c : Nat) {ks : List Threshold} (distinct : ks.Nodup) :
    s.CatchesUp sh c ks (s.fireUpTo sh c true ks) := by
  induction ks generalizing s with
  | nil => exact .refl s sh c
  | cons k ks ih =>
    obtain ⟨out, distinct⟩ := List.nodup_cons.mp distinct
    have one : ∃ t, s.CatchesUp sh c [k] t ∧ s.fireUpTo sh c true (k :: ks) = t.fireUpTo sh c true ks := by
      unfold State.fireUpTo
      rw [List.foldl_cons]
      cases h : (s.shaft sh).thresholds with
      | none => exact ⟨s, .skip (by rw [ShaftRec.catches, h]; rfl), rfl⟩
      | some th =>
        have same : (s.shaft sh).catches c k = (!(th.get k).fired && decide ((th.get k).position ≤ c)) := by
          rw [ShaftRec.catches, h]
          rfl
        dsimp only
        rw [← same]
        cases caught : (s.shaft sh).catches c k with
        | false => exact ⟨s, .skip caught, rfl⟩
        | true => exact ⟨_, State.fire_caught h caught, rfl⟩
    obtain ⟨t, one, rest⟩ := one
    rw [rest]
    exact one.cons (ih t distinct) out

/-! ## The spindle found FULL -/

/-- A record as a cut leaves it that finds the other spindle FULL, or not (R119). -/
def Reel.unloadIf (sh : Shaft) (sp : Spindle) (full : Bool) (r : Reel) : Reel :=
  if full = true ∧ r.shaft = sh ∧ r.spindle = sp ∧ r.state = .doffing then
    { r with state := .doffed, flags := { r.flags with unloadAssumed := true } }.bump
  else r

/-- A cut that finds the other spindle FULL unloads it (R119). -/
theorem State.assumeUnload_spec (s : State) (sh : Shaft) :
    let full := decide ((s.shaft sh).spindle (s.shaft sh).active.other = .full)
    (∃ v p q d, s.assumeUnload sh = { s with
      table := { s.table with reels := v }
      shafts := s.shafts.set sh { s.shaft sh with spindle1 := p, spindle2 := q }
      digest := d }) ∧
    (∀ h, (s.assumeUnload sh).reel h = (s.reel h).map (Reel.unloadIf sh (s.shaft sh).active.other full)) ∧
    ∀ i : Fin 20, (s.assumeUnload sh).digest.alerts[i].isSet =
      (s.digest.alerts[i].isSet || (full && decide (i = Alert.index .reelDoffed))) := by
  by_cases full : (s.shaft sh).spindle (s.shaft sh).active.other = .full
  · have unloads : s.assumeUnload sh = ((s.doff sh (s.shaft sh).active.other true).refreshSpindles sh).raise .reelDoffed :=
      if_pos full
    rw [unloads, decide_eq_true full]
    obtain ⟨u, start⟩ : ∃ u, u = s.doff sh (s.shaft sh).active.other true := ⟨_, rfl⟩
    have reel (h : Handle) := s.doff_reel sh (s.shaft sh).active.other true h
    obtain ⟨v, hv⟩ := s.doff_frame sh (s.shaft sh).active.other true
    rw [← start] at reel hv ⊢
    obtain ⟨p, q, hp⟩ := u.refreshSpindles_frame sh
    obtain ⟨w, then'⟩ : ∃ w, w = u.refreshSpindles sh := ⟨_, rfl⟩
    rw [← then'] at hp ⊢
    obtain ⟨d, hd⟩ := w.raise_frame .reelDoffed
    have digest : w.digest = s.digest := by rw [hp, hv]
    refine ⟨⟨v, p, q, d, ?_⟩, fun h => ?_, fun i => ?_⟩
    · rw [hd, hp, hv]
      rfl
    · have same : (w.raise .reelDoffed).reel h = u.reel h := by
        rw [hd, hp]
        rfl
      rw [same, reel]
      congr 1
      funext r
      unfold Reel.unloadIf
      simp only [true_and, Bool.or_true]
    · rw [w.raise_isSet, digest, Bool.true_and]
  · have rests : s.assumeUnload sh = s := if_neg full
    rw [rests, decide_eq_false full]
    refine ⟨?_, fun h => ?_, fun i => (Bool.or_false _).symm⟩
    · have same : s.shafts.set sh (s.shaft sh) = s.shafts := Pair.set_get s.shafts sh
      refine ⟨s.table.reels, (s.shaft sh).spindle1, (s.shaft sh).spindle2, s.digest, ?_⟩
      show s = { s with shafts := s.shafts.set sh (s.shaft sh) }
      rw [same]
    · have none : Reel.unloadIf sh (s.shaft sh).active.other false = id := funext fun r => if_neg fun h => nomatch h.1
      rw [none, Option.map_id]
      rfl

end Sys2Proof.Machine
end

section
/-! PROOF. A cut up to the opening of its next set: thresholds caught up, the set closed, the shaft turned over and the
plan counted (R119 to R121; O40 to O42). -/

namespace Sys2Proof.Machine

/-! ## The plan counted -/

section
variable {r : ShaftRec} {st later : PlanStep}

theorem ShaftRec.countSet_runout (runout : r.phase = .runout) : r.countSet = (r, false) := if_pos runout

theorem ShaftRec.countSet_stepless (winds : r.phase ≠ .runout) (step : r.currentStep = none) :
    r.countSet = (r.toPhase .winding, false) := by
  unfold ShaftRec.countSet
  rw [if_neg winds, step]

/-- A FOREVER step and a counter above 1 move the counter down (R121). -/
theorem ShaftRec.countSet_counts (winds : r.phase ≠ .runout) (step : r.currentStep = some st)
    (goes : st.count = 0 ∨ 1 < r.counter.toNat) : r.countSet = ({ r.toPhase .winding with counter := r.counter - 1 }, false) := by
  unfold ShaftRec.countSet
  rw [if_neg winds, step]
  dsimp only
  split
  · rfl
  · next counted => rw [if_pos (goes.resolve_left counted)]

/-- At a counter of 1 the next step is loaded (R121). -/
theorem ShaftRec.countSet_loads (winds : r.phase ≠ .runout) (step : r.currentStep = some st) (counted : st.count ≠ 0)
    (last : ¬ 1 < r.counter.toNat) (next : r.plan[r.step]? = some later) :
    r.countSet = ({ r.toPhase .winding with step := r.step + 1, counter := later.count }, false) := by
  unfold ShaftRec.countSet
  rw [if_neg winds, step]
  dsimp only
  rw [if_neg counted, if_neg last, next]

/-- At a counter of 1 of the last step the shaft enters RUNOUT (R121). -/
theorem ShaftRec.countSet_ends (winds : r.phase ≠ .runout) (step : r.currentStep = some st) (counted : st.count ≠ 0)
    (last : ¬ 1 < r.counter.toNat) (none : r.plan[r.step]? = none) :
    r.countSet = ({ r.toPhase .runout with counter := 0 }, true) := by
  unfold ShaftRec.countSet
  rw [if_neg winds, step]
  dsimp only
  rw [if_neg counted, if_neg last, none]

end

/-- The counting of the closed set looks at the phase, the plan, the step and the counter alone. -/
theorem ShaftRec.countSet_congr {r q : ShaftRec} (h : q = { r with
    active := q.active, spindle1 := q.spindle1, spindle2 := q.spindle2, thresholds := q.thresholds, reason := q.reason }) :
    q.countSet.1 = { q with
      phase := r.countSet.1.phase, step := r.countSet.1.step, counter := r.countSet.1.counter, cutReq := r.countSet.1.cutReq } ∧
    q.countSet.2 = r.countSet.2 := by
  have phase : q.phase = r.phase := by rw [h]
  have plan : q.plan = r.plan := by rw [h]
  have place : q.step = r.step := by rw [h]
  have counter : q.counter = r.counter := by rw [h]
  have cutReq : q.cutReq = r.cutReq := by rw [h]
  have step : q.currentStep = r.currentStep := by unfold ShaftRec.currentStep; rw [plan, place]
  by_cases runout : r.phase = .runout
  · rw [r.countSet_runout runout, q.countSet_runout (phase.trans runout), ← phase, ← place, ← counter, ← cutReq]
    exact ⟨rfl, rfl⟩
  · have winds : q.phase ≠ .runout := phase ▸ runout
    cases now : r.currentStep with
    | none =>
      rw [r.countSet_stepless runout now, q.countSet_stepless winds (step.trans now)]
      exact ⟨by simp only [ShaftRec.toPhase, place, counter], rfl⟩
    | some st =>
      have now' := step.trans now
      by_cases goes : st.count = 0 ∨ 1 < r.counter.toNat
      · rw [ShaftRec.countSet_counts runout now goes, ShaftRec.countSet_counts winds now' (counter ▸ goes)]
        exact ⟨by simp only [ShaftRec.toPhase, place, counter], rfl⟩
      · obtain ⟨counted, last⟩ := not_or.mp goes
        cases next : r.plan[r.step]? with
        | some later =>
          rw [ShaftRec.countSet_loads runout now counted last next,
            ShaftRec.countSet_loads winds now' counted (counter ▸ last) (by rw [plan, place, next])]
          exact ⟨by simp only [ShaftRec.toPhase, place], rfl⟩
        | none =>
          rw [ShaftRec.countSet_ends runout now counted last next,
            ShaftRec.countSet_ends winds now' counted (counter ▸ last) (by rw [plan, place, next])]
          exact ⟨by simp only [ShaftRec.toPhase, place], rfl⟩

/-! ## The cut up to the counting -/

/-- A cut up to the counting of the closed set (R119 to R121). -/
def State.cutCounted (s : State) (sh : Shaft) (c : Nat) : State :=
  let s1 := (s.fireUpTo sh c true allThresholds).assumeUnload sh
  ((s1.closeSet sh c (s1.shaft sh).short).turnOver sh).countCut sh

/-- A record in use as a cut leaves it (R45, R46, R119, R120). -/
def State.cutReel (s : State) (sh : Shaft) (c : Nat) (r : Reel) : Reel :=
  let q := (r.overrunIf sh ((s.shaft sh).catches c .overrun)).unloadIf sh (s.shaft sh).active.other
    (decide ((s.shaft sh).spindle (s.shaft sh).active.other = .full))
  if q.closes sh then q.close c (s.shaft sh).short else q

theorem Reel.overrunIf_facts (r : Reel) (sh : Shaft) (b : Bool) : (r.overrunIf sh b).id = r.id ∧
    (r.overrunIf sh b).shaft = r.shaft ∧ (r.overrunIf sh b).state = r.state := by
  unfold Reel.overrunIf
  split <;> exact ⟨rfl, rfl, rfl⟩

theorem Reel.unloadIf_facts (r : Reel) (sh : Shaft) (sp : Spindle) (b : Bool) : (r.unloadIf sh sp b).id = r.id ∧
    (r.unloadIf sh sp b).shaft = r.shaft ∧ ((r.unloadIf sh sp b).state = r.state ∨
      (r.unloadIf sh sp b).state = .doffed ∧ r.state = .doffing) := by
  unfold Reel.unloadIf
  split
  · next h => exact ⟨rfl, rfl, .inr ⟨rfl, h.2.2.2⟩⟩
  · exact ⟨rfl, rfl, .inl rfl⟩

theorem Reel.unloadIf_closes (r : Reel) (sh sh' : Shaft) (sp : Spindle) (b : Bool) :
    (r.unloadIf sh sp b).closes sh' = r.closes sh' := by
  obtain ⟨-, shaft, state | ⟨state, was⟩⟩ := r.unloadIf_facts sh sp b
  · unfold Reel.closes
    rw [shaft, state]
  · unfold Reel.closes
    rw [shaft, state, was]
    rfl

theorem Reel.overrunIf_closes (r : Reel) (sh sh' : Shaft) (b : Bool) : (r.overrunIf sh b).closes sh' = r.closes sh' := by
  obtain ⟨-, shaft, state⟩ := r.overrunIf_facts sh b
  unfold Reel.closes
  rw [shaft, state]

/-- The entries of a set follow from the ids of its records and from which of them close. -/
theorem State.woundEntries_congr {s t : State} {sh : Shaft} {f : Reel → Reel} (reels : ∀ h, t.reel h = (s.reel h).map f)
    (ids : ∀ r, (f r).id = r.id) (closes : ∀ r, (f r).closes sh = r.closes sh) : t.woundEntries sh = s.woundEntries sh := by
  rw [← t.closingEntries_eq, ← s.closingEntries_eq]
  unfold State.closingEntries
  congr 1
  funext h
  rw [reels]
  cases s.reel h with
  | none => rfl
  | some r => simp only [Option.map_some, ids, closes]

theorem State.turnOver_frame (s : State) (sh : Shaft) : ∃ p q, s.turnOver sh = { s with
    shafts := s.shafts.set sh { s.shaft sh with active := (s.shaft sh).active.other, spindle1 := p, spindle2 := q } } := by
  obtain ⟨p, q, e⟩ := (s.setShaft sh { s.shaft sh with active := (s.shaft sh).active.other }).refreshSpindles_frame sh
  refine ⟨p, q, e.trans ?_⟩
  rw [State.setShaft_shaft_self]
  show { s with shafts := (s.shafts.set sh _).set sh _ } = _
  rw [Pair.set_set]

/-- What a cut does up to the counting. -/
theorem State.cutCounted_spec (s : State) (sh : Shaft) (c : Nat) :
    let r := s.shaft sh
    let u := s.cutCounted sh c
    (∃ p q th reason v e d, u = { s with
      shafts := s.shafts.set sh { r with
        phase := r.countSet.1.phase, active := r.active.other, spindle1 := p, spindle2 := q, step := r.countSet.1.step,
        counter := r.countSet.1.counter, thresholds := th, reason := reason, cutReq := r.countSet.1.cutReq }
      table := { s.table with reels := v }
      engine := e
      digest := d }) ∧
    (∀ h, u.reel h = (s.reel h).map (s.cutReel sh c)) ∧ s.queuesWound u sh ∧
    (∀ k, r.catches c k = true → ∀ i : Fin 20, s.alertOf sh i k = true → u.digest.alerts[i].isSet = true) ∧
    (r.spindle r.active.other = .full → u.digest.alerts[Alert.index .reelDoffed].isSet = true) ∧
    (r.countSet.2 = true → u.digest.alerts[Alert.index (.planEnd sh)].isSet = true) := by
  intro r u
  obtain ⟨u0, e0⟩ : ∃ u0, u0 = s.fireUpTo sh c true allThresholds := ⟨_, rfl⟩
  obtain ⟨u1, e1⟩ : ∃ u1, u1 = u0.assumeUnload sh := ⟨_, rfl⟩
  obtain ⟨u2, e2⟩ : ∃ u2, u2 = u1.closeSet sh c (u1.shaft sh).short := ⟨_, rfl⟩
  obtain ⟨u3, e3⟩ : ∃ u3, u3 = u2.turnOver sh := ⟨_, rfl⟩
  have counted : u = u3.countCut sh := by rw [e3, e2, e1, e0]; rfl
  have catches := s.fireUpTo_catches sh c (ks := allThresholds) (by decide)
  rw [← e0] at catches
  obtain ⟨th, reason, v0, d0, f0⟩ := catches.frame
  obtain ⟨⟨v1, p1, q1, d1, f1⟩, reels1, set1⟩ := u0.assumeUnload_spec sh
  rw [← e1] at f1 reels1 set1
  have r0 : u0.shaft sh = { r with thresholds := th, reason := reason } := by rw [f0]; exact Pair.get_set_self ..
  have r1 : u1.shaft sh = { r with thresholds := th, reason := reason, spindle1 := p1, spindle2 := q1 } := by
    rw [f1, State.shaft, Pair.get_set_self, r0]
  have short : (u1.shaft sh).short = r.short := by rw [r1]
  obtain ⟨⟨v2, en, f2⟩, reels2, wound⟩ := u1.closeSet_spec sh c r.short
  rw [← short, ← e2] at f2 reels2 wound
  obtain ⟨p3, q3, f3⟩ := u2.turnOver_frame sh
  rw [← e3] at f3
  have r3 : u3.shaft sh = { r with
      thresholds := th, reason := reason, active := r.active.other, spindle1 := p3, spindle2 := q3 } := by
    have before : u2.shaft sh = u1.shaft sh := by rw [f2]; rfl
    rw [f3, State.shaft, Pair.get_set_self, before, r1]
  obtain ⟨count, ends⟩ := ShaftRec.countSet_congr (r := r) (q := u3.shaft sh) (by rw [r3])
  have count' : u = (u3.setShaft sh (u3.shaft sh).countSet.1).raiseIf r.countSet.2 (.planEnd sh) := by
    rw [counted, ← ends]
    rfl
  obtain ⟨d4, f4⟩ := (u3.setShaft sh (u3.shaft sh).countSet.1).raiseIf_frame r.countSet.2 (.planEnd sh)
  have whole : u = { s with
      shafts := s.shafts.set sh { r with
        phase := r.countSet.1.phase, active := r.active.other, spindle1 := p3, spindle2 := q3, step := r.countSet.1.step,
        counter := r.countSet.1.counter, thresholds := th, reason := reason, cutReq := r.countSet.1.cutReq }
      table := { s.table with reels := v2 }
      engine := en
      digest := d4 } := by
    rw [count', f4, count, r3, f3, f2, f1, f0]
    simp only [State.setShaft, State.setShafts, Pair.set_set]
  refine ⟨⟨p3, q3, th, reason, v2, en, d4, whole⟩, ?_⟩
  have table : u.table = u2.table := by rw [whole, f2, f1, f0]
  have same := State.reel_of_table table
  have opened (h : Handle) : u1.reel h = (s.reel h).map fun q => (q.overrunIf sh (r.catches c .overrun)).unloadIf sh r.active.other
      (decide (r.spindle r.active.other = .full)) := by
    rw [reels1, catches.reels, Option.map_map, r0]
    rfl
  refine ⟨fun h => ?_, ?_, fun k caught i alert => ?_, fun full => ?_, fun done => ?_⟩
  · rw [same, reels2, opened, Option.map_map, short]
    rfl
  · have id (q : Reel) : ((q.overrunIf sh (r.catches c .overrun)).unloadIf sh r.active.other
        (decide (r.spindle r.active.other = .full))).id = q.id :=
      (Reel.unloadIf_facts ..).1.trans (Reel.overrunIf_facts ..).1
    refine wound.congr (by rw [f1, f0]) (by rw [f1, f0]; rfl)
      (State.woundEntries_congr opened id fun q => (Reel.unloadIf_closes ..).trans (Reel.overrunIf_closes ..))
      (fun g => ?_) (by rw [whole, f2]) fun g q there => ⟨q, (same g).trans there, rfl⟩
    rw [opened, Option.map_map]
    congr 1
    funext q
    exact id q
  all_goals
    have digest : u3.digest = u1.digest := by rw [f3, f2]
    have set (i : Fin 20) : u.digest.alerts[i].isSet = (u1.digest.alerts[i].isSet ||
        (r.countSet.2 && decide (i = Alert.index (.planEnd sh)))) := by
      rw [count', State.raiseIf_isSet, ← digest]
      rfl
    rw [set]
  · rw [set1, catches.alerts k (by cases k <;> decide) caught i alert]
    rfl
  · have found : (u0.shaft sh).spindle (u0.shaft sh).active.other = .full := by rw [r0]; exact full
    rw [set1, decide_eq_true found, decide_eq_true rfl]
    simp
  · rw [done, decide_eq_true rfl]
    simp

end Sys2Proof.Machine
end

section
/-! PROOF. A cut up to its report: the next set opened, the shaft settled and its thresholds armed (R108, R122, R123; O40 to
O42, O57). -/

namespace Sys2Proof.Machine

/-! ## Thresholds armed -/

theorem State.arm_position (s : State) (w : Watch) (x : Nat) : (s.arm w x).position.p = s.position.p ∧
    s.position.arrivals <+: (s.arm w x).position.arrivals := by
  refine ⟨?_, ?_⟩
  · obtain ⟨_, _, e⟩ := s.arm_frame w x
    rw [e]
  · rw [s.arrivals_arm]
    split
    · exact List.prefix_refl _
    · exact List.prefix_append _ _

/-- A watch that stands at X, of states that agree on it and on P and keep the arrivals. -/
theorem State.armedAt.congr {s t : State} {w : Watch} {x : Nat} (h : s.armedAt w x) (p : t.position.p = s.position.p)
    (watch : t.watch w = s.watch w) (arrivals : s.position.arrivals <+: t.position.arrivals) : t.armedAt w x := by
  unfold State.armedAt at h ⊢
  rw [p, watch]
  split at h
  · next ahead => rw [if_pos ahead]; exact h
  · next reached =>
    rw [if_neg reached]
    exact ⟨h.1, arrivals.subset h.2⟩

/-- Watches of a shaft's thresholds armed one after the other (R108). -/
theorem State.armThresholds_spec (s : State) (sh : Shaft) (f : Threshold → Nat) {ks : List Threshold} (distinct : ks.Nodup) :
    let u := ks.foldl (fun u k => u.arm (.threshold sh k) (f k)) s
    (∃ w a, u = { s with position := { s.position with watches := w, arrivals := a } }) ∧
    s.position.arrivals <+: u.position.arrivals ∧ (∀ k ∈ ks, u.armedAt (.threshold sh k) (f k)) ∧
    ∀ v, (∀ k ∈ ks, v ≠ .threshold sh k) → u.watch v = s.watch v := by
  induction ks generalizing s with
  | nil => exact ⟨⟨_, _, rfl⟩, List.prefix_refl _, nofun, fun _ _ => rfl⟩
  | cons k ks ih =>
    obtain ⟨out, distinct⟩ := List.nodup_cons.mp distinct
    obtain ⟨frame, arrivals, armed, others⟩ := ih (s.arm (.threshold sh k) (f k)) distinct
    obtain ⟨p, kept⟩ := s.arm_position (.threshold sh k) (f k)
    obtain ⟨w, a, one⟩ := s.arm_frame (.threshold sh k) (f k)
    obtain ⟨w', a', rest⟩ := frame
    refine ⟨⟨w', a', rest.trans (by rw [one])⟩, kept.trans arrivals, fun j mem => ?_, fun v other => ?_⟩
    · rcases List.mem_cons.mp mem with rfl | mem
      · refine (s.armedAt_arm (.threshold sh j) (f j)).congr ?_ (others _ fun m mem' e => ?_) arrivals
        · rw [List.foldl_cons, rest]
        · cases e
          exact out mem'
      · exact armed j mem
    · exact (others v fun m mem => other m (List.mem_cons_of_mem _ mem)).trans
        (s.watch_arm_ne (f k) (other k List.mem_cons_self))

/-- The thresholds of a new set computed and armed, and the tension at its base (R106, R108, R123). -/
theorem State.equip_spec (s : State) (sh : Shaft) (x : Nat) :
    let u := (s.openThresholds sh x).baseTension sh
    (∃ w a th tn, u = { s with
      position := { s.position with watches := w, arrivals := a }
      shafts := s.shafts.set sh { s.shaft sh with thresholds := th, tension := tn } }) ∧
    s.position.arrivals <+: u.position.arrivals ∧
    (∀ v, (∀ k, v ≠ .threshold sh k) → u.watch v = s.watch v) ∧
    ∀ st, (s.shaft sh).currentStep = some st →
      let th := thresholdsOf x st.target (s.settings.rho.get sh) (s.settings.job.get sh)
      u.shaft sh = { s.shaft sh with thresholds := some th, tension := st.baseTension } ∧
        ∀ k, u.armedAt (.threshold sh k) (th.get k).position := by
  cases step : (s.shaft sh).currentStep with
  | none =>
    have opened : s.openThresholds sh x = s := by unfold State.openThresholds; rw [step]
    have based : s.baseTension sh = s := by unfold State.baseTension; rw [step]
    rw [opened, based]
    refine ⟨⟨s.position.watches, s.position.arrivals, (s.shaft sh).thresholds, (s.shaft sh).tension, ?_⟩, List.prefix_refl _,
      fun _ _ => rfl, nofun⟩
    have same : s.shafts.set sh (s.shaft sh) = s.shafts := Pair.set_get s.shafts sh
    show s = { s with shafts := s.shafts.set sh (s.shaft sh) }
    rw [same]
  | some st =>
    obtain ⟨th, computed⟩ : ∃ th, th = thresholdsOf x st.target (s.settings.rho.get sh) (s.settings.job.get sh) := ⟨_, rfl⟩
    obtain ⟨v, start⟩ : ∃ v : State, v = { s with shafts := s.shafts.set sh { s.shaft sh with thresholds := some th } } := ⟨_, rfl⟩
    obtain ⟨frame, arrivals, armed, others⟩ := v.armThresholds_spec sh (fun k => (th.get k).position) (ks := allThresholds) (by decide)
    obtain ⟨u, last⟩ : ∃ u, u = allThresholds.foldl (fun u k => u.arm (.threshold sh k) (th.get k).position) v := ⟨_, rfl⟩
    rw [← last] at frame arrivals armed others
    obtain ⟨w, a, e⟩ := frame
    have opened : s.openThresholds sh x = u := by
      unfold State.openThresholds
      rw [step, last, start, computed]
      rfl
    have own : u.shaft sh = { s.shaft sh with thresholds := some th } := by
      rw [e, start]
      exact Pair.get_set_self ..
    have based : u.baseTension sh = u.setShaft sh { u.shaft sh with tension := st.baseTension } := by
      have now : (u.shaft sh).currentStep = some st := by rw [own]; exact step
      unfold State.baseTension
      rw [now]
    have whole : (s.openThresholds sh x).baseTension sh = { s with
        position := { s.position with watches := w, arrivals := a }
        shafts := s.shafts.set sh { s.shaft sh with thresholds := some th, tension := st.baseTension } } := by
      rw [opened, based, own, e, start]
      show { s with position := _, shafts := (s.shafts.set sh _).set sh _ } = _
      rw [Pair.set_set]
    have position : ((s.openThresholds sh x).baseTension sh).position = u.position := by rw [whole, e, start]
    have watch (v : Watch) : ((s.openThresholds sh x).baseTension sh).watch v = u.watch v := by rw [State.watch, position]; rfl
    refine ⟨⟨w, a, _, _, whole⟩, ?_, fun k other => ?_, fun st' now => ?_⟩
    · rw [position]
      refine List.IsPrefix.trans ?_ arrivals
      rw [start]
    · rw [watch, others k fun j _ => other j, start]
      rfl
    · cases now
      rw [← computed]
      refine ⟨?_, fun k => (armed k (by cases k <;> decide)).congr (by rw [position]) (watch _) (by rw [position])⟩
      rw [whole]
      exact Pair.get_set_self ..

/-! ## The cut up to its report -/

/-- A cut up to its report to the travel list (R119 to R123). -/
def State.cutMade (s : State) (sh : Shaft) (c : Nat) : State :=
  let s3 := (s.cutCounted sh c).openSet sh c (s.shaft sh).phase
  let s4 := s3.releaseReserved sh
  let s5 := s4.setShaft sh (s4.shaft sh).settleCut
  ((s5.openThresholds sh c).baseTension sh).clearLatch sh

theorem State.takeCut_eq (s : State) (sh : Shaft) (c : Nat) : s.takeCut sh c = (s.cutMade sh c).reportCut sh := rfl

/-- The flags of the reels that a cut opens (R122). -/
def ShaftRec.cutFlags (r : ShaftRec) : ReelFlags := { ReelFlags.none with
  extra := decide (r.countSet.1.phase = .runout), unplanned := decide (r.phase = .winding) }

/-- A record that a cut opens for a lane, by the state before the cut and the one before its report (R122). -/
def State.cutOpens (s w : State) (sh : Shaft) (c : Nat) (st : PlanStep) (n : Lane) (q : Reel) : Prop :=
  (∀ g, ∀ r ∈ s.reel g, r.id ≠ q.id) ∧ q = s.openedReel q.id (max c (w.latestEnd n sh)) n sh (s.shaft sh).active.other st
    (s.shaft sh).countSet.1.step (s.shaft sh).countSet.1.counter (s.shaft sh).cutFlags

/-- What a cut has done before its report, with the step then current. -/
structure State.CutMade (s : State) (sh : Shaft) (c : Nat) (st : PlanStep) (w : State) : Prop where
  frame : ∃ wt a ls v f sf e d k, w = { s with
    position := { s.position with latch := s.position.latch.set sh none, watches := wt, arrivals := a }
    map := { s.map with lanes := ls }
    table := ⟨v, f, s.table.reserved.set sh 0⟩
    shafts := sf
    engine := e
    digest := d
    store := { s.store with settings := { s.settings with reelIdCounter := k } } }
  own : ∃ p q th tn, w.shaft sh = { s.shaft sh with
    phase := (s.shaft sh).countSet.1.phase, active := (s.shaft sh).active.other, spindle1 := p, spindle2 := q,
    step := (s.shaft sh).countSet.1.step, counter := (s.shaft sh).countSet.1.counter, firstFree := false, thresholds := th,
    reason := .none, short := false, retry := false, retriesDue := 0, records := false, tension := tn,
    cutReq := (s.shaft sh).countSet.1.cutReq }
  other : w.shaft (other sh) = { s.shaft (other sh) with retriesDue := (w.shaft (other sh)).retriesDue }
  equipped : ∀ now, (s.shaft sh).countSet.1.currentStep = some now →
    let th := thresholdsOf c now.target (s.settings.rho.get sh) (s.settings.job.get sh)
    (w.shaft sh).thresholds = some th ∧ (w.shaft sh).tension = now.baseTension ∧
      ∀ k, w.armedAt (.threshold sh k) (th.get k).position
  arrivals : s.position.arrivals <+: w.position.arrivals
  watches : ∀ v, (∀ k, v ≠ .threshold sh k) → w.watch v = s.watch v
  queued : s.queuesWound w sh
  reels : ∀ h, ∀ r ∈ s.reel h, w.reel h = some (s.cutReel sh c r)
  fresh : ∀ h, s.reel h = none → ∀ q ∈ w.reel h, ∃ n ∈ s.enabledLanes sh, s.cutOpens w sh c st n q
  untouched : ∀ n, n ∉ s.enabledLanes sh → w.lane n = s.lane n
  lanes : ∀ n ∈ s.enabledLanes sh, (∃ h q, s.reel h = none ∧ w.reel h = some q ∧ s.cutOpens w sh c st n q ∧
      w.lane n = { s.lane n with current := some h, untracked := false }) ∨
    w.lane n = { s.lane n with current := none, untracked := true }
  alerts : ∀ k, (s.shaft sh).catches c k = true → ∀ i : Fin 20, s.alertOf sh i k = true → w.digest.alerts[i].isSet = true
  doffed : (s.shaft sh).spindle (s.shaft sh).active.other = .full → w.digest.alerts[Alert.index .reelDoffed].isSet = true
  ends : (s.shaft sh).countSet.2 = true → w.digest.alerts[Alert.index (.planEnd sh)].isSet = true
  unplanned : (s.shaft sh).phase = .winding → w.digest.alerts[Alert.index (.unplannedCut sh)].isSet = true

theorem State.enabledLanes_nodup (s : State) (sh : Shaft) : (s.enabledLanes sh).Nodup :=
  (List.nodup_finRange 24).filter _

theorem ShaftRec.countSet_eq (r : ShaftRec) : r.countSet.1 = { r with
    phase := r.countSet.1.phase, step := r.countSet.1.step, counter := r.countSet.1.counter, cutReq := r.countSet.1.cutReq } :=
  (ShaftRec.countSet_congr (r := r) (q := r) rfl).1

/-- The next set opened, by the state in which the plan has been counted (R122). -/
theorem State.openSet_spec (s : State) (sh : Shaft) (c : Nat) (taken : Phase) {st : PlanStep}
    (step : ∀ now ∈ (s.shaft sh).currentStep, now = st) :
    let flags := { ReelFlags.none with extra := decide ((s.shaft sh).phase = .runout), unplanned := decide (taken = .winding) }
    (∃ d, State.Openings { s with digest := d } sh c st flags (s.enabledLanes sh) (s.openSet sh c taken)) ∧
    (∀ i : Fin 20, (s.openSet sh c taken).digest.alerts[i].isSet =
      (s.digest.alerts[i].isSet || (decide (taken = .winding) && decide (i = Alert.index (.unplannedCut sh))))) ∧
    ∀ now, RecordLaw s → (s.shaft sh).currentStep = some now → (s.enabledLanes sh).length ≤ s.supply sh taken →
      ∀ n ∈ s.enabledLanes sh, ((s.openSet sh c taken).lane n).untracked = false := by
  intro flags
  obtain ⟨u, start⟩ : ∃ u, u = s.raiseIf (decide (taken = .winding)) (.unplannedCut sh) := ⟨_, rfl⟩
  obtain ⟨d, e⟩ := s.raiseIf_frame (decide (taken = .winding)) (.unplannedCut sh)
  rw [← start] at e
  have lanes : u.enabledLanes sh = s.enabledLanes sh := by rw [e]; rfl
  have shaft : u.shaft sh = s.shaft sh := by rw [e]; rfl
  have opened : s.openSet sh c taken = u.openLanes sh c taken flags (s.enabledLanes sh) := by
    rw [← lanes, start]
    rfl
  have distinct := s.enabledLanes_nodup sh
  have openings := State.openLanes_openings (s := u) (x := c) (flags := flags) (st := st) (by rw [shaft]; exact step) taken distinct
  rw [← opened] at openings
  refine ⟨⟨d, e ▸ openings⟩, fun i => ?_, fun now law current supply n mem => ?_⟩
  · obtain ⟨_, _, _, _, _, _, _, frame⟩ := openings.frame
    rw [frame]
    show u.digest.alerts[i].isSet = _
    rw [start, State.raiseIf_isSet]
  · have law' : RecordLaw u := by rw [e]; exact law
    have supply' : (s.enabledLanes sh).length ≤ u.supply sh taken := by rw [e]; exact supply
    have enabled : ∀ m ∈ s.enabledLanes sh, (u.lane m).enabled = true := fun m mem => by
      rw [e]
      exact (State.mem_enabledLanes.mp mem).1
    rw [opened]
    exact (State.openLanes_supplied law' (shaft ▸ current) enabled distinct supply').1 n mem

/-- The end of a cut up to its report: the reservation released, the shaft settled and its thresholds armed (R123). -/
def State.cutSettled (s : State) (sh : Shaft) (c : Nat) : State :=
  let s4 := s.releaseReserved sh
  (((s4.setShaft sh (s4.shaft sh).settleCut).openThresholds sh c).baseTension sh).clearLatch sh

theorem State.cutSettled_spec (s : State) (sh : Shaft) (c : Nat) :
    let w := s.cutSettled sh c
    (∃ wt a sf, w = { s with
      position := { s.position with latch := s.position.latch.set sh none, watches := wt, arrivals := a }
      table := { s.table with reserved := s.table.reserved.set sh 0 }
      shafts := sf }) ∧
    (∃ th tn, w.shaft sh = { (s.shaft sh).settleCut with thresholds := th, tension := tn }) ∧
    w.shaft (other sh) = { s.shaft (other sh) with retriesDue := (w.shaft (other sh)).retriesDue } ∧
    s.position.arrivals <+: w.position.arrivals ∧ (∀ v, (∀ k, v ≠ .threshold sh k) → w.watch v = s.watch v) ∧
    ∀ now, (s.shaft sh).currentStep = some now →
      let th := thresholdsOf c now.target (s.settings.rho.get sh) (s.settings.job.get sh)
      (w.shaft sh).thresholds = some th ∧ (w.shaft sh).tension = now.baseTension ∧
        ∀ k, w.armedAt (.threshold sh k) (th.get k).position := by
  intro w
  obtain ⟨n, f4⟩ := s.releaseReserved_frame sh
  obtain ⟨s4, h4⟩ : ∃ s4, s4 = s.releaseReserved sh := ⟨_, rfl⟩
  obtain ⟨s5, h5⟩ : ∃ s5, s5 = s4.setShaft sh (s4.shaft sh).settleCut := ⟨_, rfl⟩
  obtain ⟨s6, h6⟩ : ∃ s6, s6 = (s5.openThresholds sh c).baseTension sh := ⟨_, rfl⟩
  have last : w = { s6 with position := { s6.position with latch := s6.position.latch.set sh none } } := by
    rw [h6, h5, h4]
    rfl
  rw [← h4] at f4
  have own4 : s4.shaft sh = s.shaft sh := by rw [f4]; exact Pair.get_other_set ..
  have own5 : s5.shaft sh = (s.shaft sh).settleCut := by rw [h5, State.setShaft_shaft_self, own4]
  have other5 : s5.shaft (other sh) = { s.shaft (other sh) with retriesDue := n } := by
    rw [h5, State.setShaft_shaft_other, f4]
    exact Pair.get_set_self ..
  obtain ⟨⟨wt, a, th, tn, f6⟩, arrivals, watches, equipped⟩ := s5.equip_spec sh c
  rw [← h6] at f6 arrivals watches equipped
  have own6 : s6.shaft sh = { (s.shaft sh).settleCut with thresholds := th, tension := tn } := by
    rw [f6, State.shaft, Pair.get_set_self, own5]
  have other6 : s6.shaft (other sh) = { s.shaft (other sh) with retriesDue := n } := by
    rw [f6, State.shaft, Pair.get_set_other]
    exact other5
  have position5 : s5.position = s.position := by rw [h5, f4]; rfl
  have own : w.shaft sh = s6.shaft sh := by rw [last]; rfl
  have otherShaft : w.shaft (other sh) = s6.shaft (other sh) := by rw [last]; rfl
  refine ⟨⟨wt, a, s6.shafts, ?_⟩, ⟨th, tn, own.trans own6⟩, ?_, ?_, fun k ne => ?_, fun now current => ?_⟩
  · rw [last, f6, h5, f4]
    rfl
  · rw [otherShaft, other6]
  · rw [position5] at arrivals
    rw [last]
    exact arrivals
  · have before : s5.watch k = s.watch k := by rw [State.watch, position5]; rfl
    rw [← before, ← watches k ne, last]
    rfl
  · have now' : (s5.shaft sh).currentStep = some now := by rw [own5]; exact current
    have settings : s5.settings = s.settings := by rw [h5, f4]; rfl
    obtain ⟨shaft, armed⟩ := equipped now now'
    rw [settings] at shaft armed
    refine ⟨?_, ?_, fun k => (armed k).congr ?_ ?_ ?_⟩
    · rw [own, shaft]
    · rw [own, shaft]
    · rw [last]
    · rw [last]; rfl
    · rw [last]

theorem State.cutReel_id (s : State) (sh : Shaft) (c : Nat) (r : Reel) : (s.cutReel sh c r).id = r.id := by
  unfold State.cutReel
  dsimp only
  rw [apply_ite Reel.id, Reel.close_id, ite_self, (Reel.unloadIf_facts ..).1, (Reel.overrunIf_facts ..).1]

theorem State.cutMade_made (s : State) (sh : Shaft) (c : Nat) {st : PlanStep}
    (step : ∀ now ∈ (s.shaft sh).countSet.1.currentStep, now = st) : s.CutMade sh c st (s.cutMade sh c) := by
  obtain ⟨⟨p, q, th, reason, v, en, d, frame⟩, reels, wound, caught, doffed, ends⟩ := s.cutCounted_spec sh c
  obtain ⟨u, hu⟩ : ∃ u, u = s.cutCounted sh c := ⟨_, rfl⟩
  rw [← hu] at frame reels wound caught doffed ends
  have plan : (s.shaft sh).countSet.1.plan = (s.shaft sh).plan := by rw [ShaftRec.countSet_eq]
  have own : u.shaft sh = { s.shaft sh with
      phase := (s.shaft sh).countSet.1.phase, active := (s.shaft sh).active.other, spindle1 := p, spindle2 := q,
      step := (s.shaft sh).countSet.1.step, counter := (s.shaft sh).countSet.1.counter, thresholds := th, reason := reason,
      cutReq := (s.shaft sh).countSet.1.cutReq } := by
    rw [frame]
    exact Pair.get_set_self ..
  have current : (u.shaft sh).currentStep = (s.shaft sh).countSet.1.currentStep := by
    rw [own]
    unfold ShaftRec.currentStep
    rw [plan]
  obtain ⟨y, hy⟩ : ∃ y, y = u.openSet sh c (s.shaft sh).phase := ⟨_, rfl⟩
  obtain ⟨w, hw⟩ : ∃ w, w = s.cutMade sh c := ⟨_, rfl⟩
  have settled : w = y.cutSettled sh c := by rw [hw, hy, hu]; rfl
  obtain ⟨⟨d', openings⟩, set, -⟩ := u.openSet_spec sh c (s.shaft sh).phase (by rw [current]; exact step)
  obtain ⟨⟨wt, a, sf, last⟩, ⟨th', tn, shaft⟩, otherShaft, arrivals, watches, equipped⟩ := y.cutSettled_spec sh c
  rw [← hy] at openings set
  rw [← settled] at last shaft otherShaft arrivals watches equipped
  rw [← hw]
  have lanes : u.enabledLanes sh = s.enabledLanes sh := by rw [frame]; rfl
  have flags : ({ ReelFlags.none with
      extra := decide ((u.shaft sh).phase = .runout), unplanned := decide ((s.shaft sh).phase = .winding) } : ReelFlags) =
      (s.shaft sh).cutFlags := by
    rw [own]
    rfl
  rw [lanes, flags] at openings
  obtain ⟨ls, v', f, k, count, p', q', opened⟩ := openings.frame
  have position : y.position = s.position := by rw [opened, frame]
  have reel (h : Handle) : w.reel h = y.reel h := by rw [last]; rfl
  have lane (n : Lane) : w.lane n = y.lane n := by rw [last]; rfl
  have uLane (n : Lane) : State.lane { u with digest := d' } n = s.lane n := by rw [frame]; rfl
  have digest : w.digest = y.digest := by rw [last]
  have shaftY : y.shaft sh = { u.shaft sh with spindle1 := p', spindle2 := q' } := by
    obtain ⟨_, _, e⟩ := openings.shaft
    rw [opened]
    exact Pair.get_set_self ..
  have free {h : Handle} : State.reel { u with digest := d' } h = none ↔ s.reel h = none := by
    show u.reel h = none ↔ _
    rw [reels]
    exact Option.map_eq_none_iff
  have latest (n : Lane) : w.latestEnd n sh = u.latestEnd n sh :=
    (State.latestEnd_congr fun g => by rw [reel g]).trans (openings.latestEnd n sh)
  have opens {n : Lane} {r : Reel} (new : State.newFor { u with digest := d' } sh c st (s.shaft sh).cutFlags n r) :
      s.cutOpens w sh c st n r := by
    obtain ⟨apart, e⟩ := new
    refine ⟨fun g r' there => ?_, e.trans ?_⟩
    · have there' : u.reel g = some (s.cutReel sh c r') := by rw [reels, Option.mem_def.mp there]; rfl
      have other := apart g _ there'
      rwa [State.cutReel_id] at other
    · rw [latest]
      show State.openedReel { u with digest := d' } r.id (max c (u.latestEnd n sh)) n sh (u.shaft sh).active st (u.shaft sh).step
        (u.shaft sh).counter _ = _
      rw [own, frame]
      rfl
  refine
    { frame := ⟨wt, a, ls, v', f, sf, en, y.digest, count, ?_⟩
      own := ⟨p', q', th', tn, ?_⟩
      other := ?_
      equipped := ?_
      arrivals := by rw [position] at arrivals; exact arrivals
      watches := fun k ne => (watches k ne).trans (congrArg (fun x : PositionUnit => x.watches.get k) position)
      queued := ?_
      reels := fun h r there => ?_
      fresh := fun h none r there => ?_
      untouched := fun n out => (lane n).trans ((openings.others n out).trans (uLane n))
      lanes := fun n mem => ?_
      alerts := fun j catches i alert => ?_
      doffed := fun full => ?_
      ends := fun done => ?_
      unplanned := fun winds => ?_ }
  · have reserved : y.table.reserved.set sh 0 = s.table.reserved.set sh 0 := by
      rw [opened, frame]
      exact Pair.set_set ..
    rw [last, reserved, opened, frame]
  · rw [shaft, shaftY, own]
    rfl
  · have before : y.shaft (other sh) = s.shaft (other sh) := by
      rw [opened, frame]
      exact (Pair.get_set_other ..).trans (Pair.get_set_other ..)
    rw [otherShaft, before]
  · have now : (y.shaft sh).currentStep = (s.shaft sh).countSet.1.currentStep := by
      rw [shaftY]
      exact current
    have rho : y.settings.rho = s.settings.rho := by rw [opened, frame]
    have job : y.settings.job = s.settings.job := by rw [opened, frame]
    rw [now, rho, job] at equipped
    exact equipped
  · refine wound.congr rfl rfl rfl (fun _ => rfl) ?_ fun g r there => ⟨r, (reel g).trans (openings.kept g r there), rfl⟩
    rw [last, opened]
  · refine (reel h).trans (openings.kept h _ ?_)
    show u.reel h = _
    rw [reels, Option.mem_def.mp there]
    rfl
  · obtain ⟨n, mem, new⟩ := openings.fresh h (free.mpr none) r ((reel h).symm.trans there)
    exact ⟨n, mem, opens new⟩
  · rw [lane, ← uLane]
    exact (openings.lanes n mem).imp_left fun ⟨h, r, empty, there, new, set⟩ =>
      ⟨h, r, free.mp empty, (reel h).trans there, opens new, set⟩
  · rw [digest, set, caught j catches i alert]
    rfl
  · rw [digest, set, doffed full]
    rfl
  · rw [digest, set, ends done]
    rfl
  · rw [digest, set, decide_eq_true winds, decide_eq_true rfl]
    simp

end Sys2Proof.Machine
end

section
/-! PROOF. What landings leave of the records: a record struck keeps all that its opening, its end and its closing wrote,
and what it counts and lists only grows (R66 to R72; O18, O40 to O42). -/

namespace Sys2Proof.Machine

/-! ## Records struck by landings -/

/-- No tally falls. -/
def Tallies.upTo (t u : Tallies) : Prop :=
  t.defect1 ≤ u.defect1 ∧ t.defect2 ≤ u.defect2 ∧ t.defect3 ≤ u.defect3 ∧ t.defect4 ≤ u.defect4 ∧
    t.register ≤ u.register ∧ t.splice ≤ u.splice ∧ t.flag ≤ u.flag

theorem Tallies.upTo_refl (t : Tallies) : t.upTo t := by simp [Tallies.upTo]

theorem Tallies.upTo_trans {t u v : Tallies} (h : t.upTo u) (k : u.upTo v) : t.upTo v := by
  unfold Tallies.upTo at *
  omega

theorem Tallies.upTo_count (t : Tallies) (f : Finding) : t.upTo (t.count f) := by
  have grows := le_satInc
  match f with
  | .defect 0 => simp [Tallies.upTo, Tallies.count, grows]
  | .defect 1 => simp [Tallies.upTo, Tallies.count, grows]
  | .defect 2 => simp [Tallies.upTo, Tallies.count, grows]
  | .defect 3 => simp [Tallies.upTo, Tallies.count, grows]
  | .register _ => simp [Tallies.upTo, Tallies.count, grows]
  | .splice _ => simp [Tallies.upTo, Tallies.count, grows]
  | .flag => simp [Tallies.upTo, Tallies.count, grows]

theorem ReelFlags.under_trans {f g h : ReelFlags} (fg : f.under g) (gh : g.under h) : f.under h := by
  obtain ⟨a₁, a₂, a₃, a₄, a₅, a₆, a₇, a₈, a₉, a₁₀, a₁₁, a₁₂, a₁₃, a₁₄⟩ := fg
  obtain ⟨b₁, b₂, b₃, b₄, b₅, b₆, b₇, b₈, b₉, b₁₀, b₁₁, b₁₂, b₁₃, b₁₄⟩ := gh
  exact ⟨b₁ ∘ a₁, b₂ ∘ a₂, b₃ ∘ a₃, b₄ ∘ a₄, b₅ ∘ a₅, b₆ ∘ a₆, b₇ ∘ a₇, b₈ ∘ a₈, b₉ ∘ a₉, b₁₀ ∘ a₁₀, b₁₁ ∘ a₁₁, b₁₂ ∘ a₁₂,
    b₁₃ ∘ a₁₃, b₁₄ ∘ a₁₄⟩

/-- A record on which findings may have landed: what R66 to R72 let them change, and nothing of it lost. -/
structure Reel.Struck (r q : Reel) : Prop where
  same : q = { r with
    tallies := q.tallies, chain := q.chain, dropped := q.dropped, parents := q.parents, computed := q.computed,
    revision := q.revision,
    flags := { r.flags with
      limited := q.flags.limited, marksDropped := q.flags.marksDropped, parentListFull := q.flags.parentListFull,
      lateMarks := q.flags.lateMarks } }
  flags : r.flags.under q.flags
  tallies : r.tallies.upTo q.tallies
  dropped : r.dropped ≤ q.dropped
  chain : r.chain.Sublist q.chain
  parents : r.parents.Sublist q.parents
  computed : r.computed.rank ≤ q.computed.rank
  opened : ∀ e, e.footage = 0 → r.parents.head? = some e → q.parents.head? = some e

theorem Reel.Struck.eq {r q : Reel} (h : r.Struck q) : ∃ ta ch dr pa co v l md pf lm, q = { r with
    tallies := ta, chain := ch, dropped := dr, parents := pa, computed := co, revision := v,
    flags := { r.flags with limited := l, marksDropped := md, parentListFull := pf, lateMarks := lm } } :=
  ⟨_, _, _, _, _, _, _, _, _, _, h.same⟩

theorem Reel.Struck.refl (r : Reel) : r.Struck r :=
  ⟨rfl, r.flags.under_refl, r.tallies.upTo_refl, le_rfl, .refl _, .refl _, le_rfl, fun _ _ h => h⟩

theorem Reel.Struck.trans {r q p : Reel} (h : r.Struck q) (k : q.Struck p) : r.Struck p where
  same := by rw [k.same, h.same]
  flags := ReelFlags.under_trans h.flags k.flags
  tallies := Tallies.upTo_trans h.tallies k.tallies
  dropped := h.dropped.trans k.dropped
  chain := h.chain.trans k.chain
  parents := h.parents.trans k.parents
  computed := h.computed.trans k.computed
  opened := fun e zero first => k.opened e zero (h.opened e zero first)

theorem Grade.rank_le_worse (g h : Grade) : g.rank ≤ (g.worse h).rank := by cases g <;> cases h <;> decide

theorem Reel.extendParents_struck (r : Reel) (m : Mark) : r.Struck (r.extendParents m) := by
  by_cases splice : ∃ p, m.finding = .splice p
  · obtain ⟨p, e⟩ := splice
    rw [Reel.extendParents_splice e]
    have flags : r.flags.under { r.flags with
        limited := r.flags.limited || decide (maxPosition < rawFootage r.start r.rho m.arrival)
        parentListFull := r.flags.parentListFull || !decide (r.parents.length < parentLimit) } := by
      unfold ReelFlags.under
      simp +contextual
    refine ⟨rfl, flags, r.tallies.upTo_refl, le_rfl, .refl _, ?_, le_rfl, fun e zero first => ?_⟩
    · dsimp only
      split
      · rw [insertParent_eq]; exact sublist_insertBy _
      · exact .refl _
    · dsimp only
      split
      · cases list : r.parents with
        | nil => rw [list] at first; cases first
        | cons x xs =>
          rw [list] at first
          cases first
          rw [insertParent, if_pos (by rw [zero]; exact Nat.zero_le _)]
          rfl
      · exact first
  · rw [Reel.extendParents_other fun p e => splice ⟨p, e⟩]
    exact .refl r

theorem State.landedReel_struck (s : State) (m : Mark) (r : Reel) : r.Struck (s.landedReel m r) := by
  obtain ⟨v, e, -⟩ := s.landedReel_eq m r
  have parents := r.extendParents_struck m
  rw [e, Reel.landed_eq]
  refine ⟨?_, ?_, r.tallies.upTo_count _, ?_, ?_, parents.parents, Grade.rank_le_worse .., parents.opened⟩
  · have flags : (r.extendParents m).flags = { r.flags with
        limited := (r.extendParents m).flags.limited, marksDropped := (r.extendParents m).flags.marksDropped,
        parentListFull := (r.extendParents m).flags.parentListFull, lateMarks := (r.extendParents m).flags.lateMarks } :=
      congrArg Reel.flags parents.same
    dsimp only
    rw [flags]
  · obtain ⟨a₁, a₂, a₃, a₄, a₅, a₆, a₇, a₈, -, a₁₀, a₁₁, -, a₁₃, a₁₄⟩ := parents.flags
    exact ⟨a₁, a₂, a₃, a₄, a₅, a₆, a₇, a₈, fun h => Bool.or_eq_true_iff.mpr (.inl h), a₁₀, a₁₁,
      fun h => Bool.or_eq_true_iff.mpr (.inl h), a₁₃, a₁₄⟩
  · dsimp only
    split
    · exact le_rfl
    · exact le_satInc _
  · dsimp only
    split
    · rw [insertMark_eq]; exact sublist_insertBy _
    · exact .refl _

/-- Every record in use stays in use, struck or not, and no FREE record is filled. -/
def State.struck (s t : State) : Prop := ∀ h, Option.Rel Reel.Struck (s.reel h) (t.reel h)

theorem State.struck.of_table {s t : State} (h : t.table = s.table) : s.struck t := fun g => by
  rw [State.reel_of_table h]
  cases s.reel g with
  | none => exact .none
  | some r => exact .some (.refl r)

theorem State.struck.trans {s t u : State} (h : s.struck t) (k : t.struck u) : s.struck u := fun g => by
  have first := h g
  have second := k g
  cases hs : s.reel g <;> cases ht : t.reel g <;> cases hu : u.reel g <;> rw [hs, ht] at first <;> rw [ht, hu] at second <;>
    cases first <;> cases second
  · exact .none
  · next one two => exact .some (one.trans two)

theorem State.struck.land (s : State) (h : Handle) (m : Mark) : s.struck (s.land h m) := by
  cases there : s.reel h with
  | none => rw [State.land_free there]; exact .of_table rfl
  | some r =>
    intro g
    rw [State.land_rewritten there m g]
    split
    · next e => rw [e, there]; exact .some (s.landedReel_struck m r)
    · exact State.struck.of_table (s := s) rfl g

theorem Fall.struck {s t : State} (h : Fall s t) : s.struck t := by
  cases h with
  | land h m => exact .land s h m
  | _ => exact .of_table rfl

theorem Falls.struck {s t : State} (h : Falls s t) : s.struck t := by
  induction h with
  | refl => exact .of_table rfl
  | tail _ fall ih => exact ih.trans fall.struck

theorem State.struck.there {s t : State} (h : s.struck t) {g : Handle} {r : Reel} (there : s.reel g = some r) :
    ∃ q, t.reel g = some q ∧ r.Struck q := by
  have at' := h g
  rw [there] at at'
  cases found : t.reel g with
  | none => rw [found] at at'; cases at'
  | some q => rw [found] at at'; cases at' with | some one => exact ⟨q, rfl, one⟩

theorem State.struck.free {s t : State} (h : s.struck t) {g : Handle} (free : s.reel g = none) : t.reel g = none := by
  have at' := h g
  rw [free] at at'
  cases found : t.reel g with
  | none => rfl
  | some q => rw [found] at at'; cases at'

theorem Fall.accounts {s t : State} (h : Fall s t) : t.table = { s.table with reels := t.table.reels } := by
  cases h with
  | land h m =>
    cases there : s.reel h with
    | none => rw [State.land_free there]
    | some r =>
      obtain ⟨_, e⟩ := State.land_there there m
      rw [e]
  | _ => rfl

theorem Falls.accounts {s t : State} (h : Falls s t) : t.table = { s.table with reels := t.table.reels } := by
  induction h with
  | refl => rfl
  | tail _ fall ih => rw [fall.accounts, ih]

/-! ## The report of a cut -/

theorem State.attributeHeld_struck (s : State) (sh : Shaft) : s.struck (s.attributeHeld sh) := by
  unfold State.attributeHeld
  split
  · exact .of_table rfl
  · next m _ =>
    split
    · exact (s.attribute_falls m).struck.trans (.of_table rfl)
    · exact .of_table rfl

theorem State.attributeHeld_accounts (s : State) (sh : Shaft) :
    (s.attributeHeld sh).table = { s.table with reels := (s.attributeHeld sh).table.reels } := by
  unfold State.attributeHeld
  split
  · rfl
  · next m _ =>
    split
    · exact (s.attribute_falls m).accounts
    · rfl

theorem State.attributeHeld_isSet (s : State) (sh : Shaft) {i : Fin 20} (set : s.digest.alerts[i].isSet = true) :
    (s.attributeHeld sh).digest.alerts[i].isSet = true := by
  unfold State.attributeHeld
  split
  · exact set
  · next m _ =>
    split
    · exact (s.attribute_falls m).isSet set
    · exact set

/-- What the report of a cut keeps of records and alerts. -/
theorem State.reportCut_struck (s : State) (sh : Shaft) : s.struck (s.reportCut sh) ∧
    (s.reportCut sh).table = { s.table with reels := (s.reportCut sh).table.reels } ∧
    ∀ i : Fin 20, s.digest.alerts[i].isSet = true → (s.reportCut sh).digest.alerts[i].isSet = true := by
  have falls := s.releasePass_falls sh
  refine ⟨falls.struck.trans ((s.releasePass sh).attributeHeld_struck sh), ?_,
    fun _ set => State.attributeHeld_isSet _ sh (falls.isSet set)⟩
  have held := (s.releasePass sh).attributeHeld_accounts sh
  rw [falls.accounts] at held
  exact held

end Sys2Proof.Machine
end

section
/-! PROOF. What a cut leaves: the plan counted (O41) and the next set opened (O42). -/

namespace Sys2Proof.Machine

/-! ## A cut and its settling -/

/-- A cut outside IDLE, by the state before its report. -/
theorem exec_cut {s : State} {sh : Shaft} {c : Nat} (latch : s.position.latch.get sh = some c) (winds : (s.shaft sh).phase ≠ .idle) :
    exec (.cutTaken sh) s = .next (s.settle ((s.cutMade sh c).reportCut sh)) := by
  have taken : s.cut sh = (s.cutMade sh c).reportCut sh := by
    rw [State.cut, latch]
    exact if_neg winds
  exact congrArg (fun u => Host.Outcome.next (s.settle u)) taken

/-- What the report of a cut and the settling of the holds leave of the state before them. -/
structure State.Reported (s w : State) (sh : Shaft) (t : State) : Prop where
  frame : ∃ wt ls v n tr hold d p, t = { w with
    position := { w.position with watches := wt }
    map := { w.map with lanes := ls }
    table := { w.table with reels := v }
    freeMarks := n
    travel := tr
    hold := hold
    digest := d
    port := p }
  nip : w.releasesNip t sh
  watches : ∀ v, v ≠ .nip sh → t.watch v = w.watch v
  struck : w.struck t
  spots : w.spotsKept t
  lanes : w.lanesKept t
  held : ∀ m, w.port.held = some m → m.shaft = sh → m.attributed w t
  unheld : (∀ m ∈ w.port.held, m.shaft ≠ sh) → t.port = w.port
  isSet : ∀ i : Fin 20, w.digest.alerts[i].isSet = true → t.digest.alerts[i].isSet = true

theorem State.reported (s : State) {w : State} {sh : Shaft} (latch : w.position.latch.get sh = none) :
    s.Reported w sh (s.settle (w.reportCut sh)) := by
  obtain ⟨⟨wt, ls, tb, n, tr, d, p, frame⟩, releases, others⟩ := State.reportCut_releases latch
  obtain ⟨struck, accounts, isSet⟩ := w.reportCut_struck sh
  obtain ⟨spots, lanes⟩ := w.reportCut_kept sh
  obtain ⟨hold, digest, settled⟩ := s.settle_frame (w.reportCut sh)
  have set (i : Fin 20) (h : w.digest.alerts[i].isSet = true) : (s.settle (w.reportCut sh)).digest.alerts[i].isSet = true :=
    settle_isSet (isSet i h)
  have table : tb = { w.table with reels := tb.reels } := by
    have same := accounts
    rw [frame] at same
    exact same
  have attributed (m : HeldMark) (held : w.port.held = some m) (own : m.shaft = sh) := State.reportCut_attributes held own
  have unheld (free : ∀ m ∈ w.port.held, m.shaft ≠ sh) : (w.reportCut sh).port = w.port := by
    obtain ⟨⟨_, _, _, _, _, _, pass⟩, -⟩ := w.releasePass_spec sh
    have silent : w.reportCut sh = w.releasePass sh := by
      refine State.attributeHeld_none fun m held => free m ?_
      rw [pass] at held
      exact held
    rw [silent, pass]
  rw [settled] at set ⊢
  refine ⟨⟨wt, ls, tb.reels, n, tr, hold, digest, p, ?_⟩, releases, others, struck, spots, lanes, attributed, unheld, set⟩
  rw [frame, ← table]

theorem State.CutMade.unlatched {s w : State} {sh : Shaft} {c : Nat} {st : PlanStep} (made : s.CutMade sh c st w) :
    w.position.latch.get sh = none := by
  obtain ⟨_, _, _, _, _, _, _, _, _, frame⟩ := made.frame
  rw [frame]
  exact Pair.get_set_self ..

/-! ## The plan counted (O41) -/

theorem ceilDiv_spec {n d : Nat} (pos : 0 < d) : n ≤ ceilDiv n d * d ∧ ∀ k, n ≤ k * d → ceilDiv n d ≤ k := by
  unfold ceilDiv
  have whole := Nat.div_add_mod (n + (d - 1)) d
  have rest := Nat.mod_lt (n + (d - 1)) pos
  rw [Nat.mul_comm] at whole
  refine ⟨by omega, fun k reaches => ?_⟩
  rw [← Nat.lt_succ_iff, Nat.div_lt_iff_lt_mul pos, Nat.succ_mul]
  omega

theorem ShaftRec.currentStep_of_step {r : ShaftRec} {n : Nat} (h : r.step = n + 1) : r.currentStep = r.plan[n]? := by
  unfold ShaftRec.currentStep
  rw [if_neg (by omega), h]
  rfl

/-- The counting of a set leaves a current step (R121). -/
theorem ShaftRec.countSet_current {r : ShaftRec} {st : PlanStep} (step : r.currentStep = some st) :
    ∃ now, r.countSet.1.currentStep = some now := by
  by_cases runout : r.phase = .runout
  · rw [ShaftRec.countSet_runout runout]
    exact ⟨st, step⟩
  · by_cases goes : st.count = 0 ∨ 1 < r.counter.toNat
    · rw [ShaftRec.countSet_counts runout step goes]
      exact ⟨st, step⟩
    · obtain ⟨counted, last⟩ := not_or.mp goes
      cases next : r.plan[r.step]? with
      | some later =>
        rw [ShaftRec.countSet_loads runout step counted last next]
        exact ⟨later, (ShaftRec.currentStep_of_step rfl).trans next⟩
      | none =>
        rw [ShaftRec.countSet_ends runout step counted last next]
        exact ⟨st, step⟩

/-- The counting of a set leaves no CHANGE_PENDING (R121). -/
theorem ShaftRec.countSet_settles (r : ShaftRec) : r.countSet.1.phase ≠ .changePending := by
  by_cases runout : r.phase = .runout
  · rw [ShaftRec.countSet_runout runout, runout]
    decide
  · cases step : r.currentStep with
    | none => rw [ShaftRec.countSet_stepless runout step]; nofun
    | some st =>
      by_cases goes : st.count = 0 ∨ 1 < r.counter.toNat
      · rw [ShaftRec.countSet_counts runout step goes]
        nofun
      · obtain ⟨counted, last⟩ := not_or.mp goes
        cases next : r.plan[r.step]? with
        | some later => rw [ShaftRec.countSet_loads runout step counted last next]; nofun
        | none => rw [ShaftRec.countSet_ends runout step counted last next]; nofun

/-- CUTREQ is low behind the counting of a set (R103, R121). -/
theorem ShaftRec.countSet_low {r : ShaftRec} (asks : r.asks) (winds : r.phase ≠ .idle) : r.countSet.1.cutReq = false :=
  ((ShaftRec.countSet_sound winds).2 asks).trans (decide_eq_false r.countSet_settles)

/-- Settles O41. -/
theorem cutsCountThePlan : Obligations.CutsCountThePlan := by
  unfold Obligations.CutsCountThePlan
  refine ⟨fun start target rho job pos => ?_, fun sh c st s latch law winds step => ?_⟩
  · have stands (length : Nat) : ∃ d, length * 1000000 ≤ d * rho ∧ (∀ k, length * 1000000 ≤ k * rho → d ≤ k) ∧
        clampPosition (start + ceilDiv (length * 1000000) rho) = min (start + d) 4294967295 :=
      ⟨_, (ceilDiv_spec pos).1, (ceilDiv_spec pos).2, rfl⟩
    exact ⟨⟨rfl, stands _⟩, ⟨rfl, stands _⟩, ⟨rfl, stands _⟩, rfl, stands _⟩
  · intro r
    obtain ⟨now, current⟩ := ShaftRec.countSet_current step
    have low := ShaftRec.countSet_low (cutRequestLaw_iff.mp law sh) winds
    have made := s.cutMade_made sh c (st := now) fun other h => Option.some.inj (h.symm.trans current)
    obtain ⟨w, hw⟩ : ∃ w, w = s.cutMade sh c := ⟨_, rfl⟩
    rw [← hw] at made
    have done := s.reported made.unlatched
    have run := hw ▸ exec_cut latch winds
    obtain ⟨t, ht⟩ : ∃ t, t = s.settle (w.reportCut sh) := ⟨_, rfl⟩
    rw [← ht] at done run
    have own : t.shaft sh = w.shaft sh := by
      obtain ⟨_, _, _, _, _, _, _, _, frame⟩ := done.frame
      rw [frame]
      rfl
    obtain ⟨p, q, th, tn, shaft⟩ := made.own
    have counted : (w.shaft sh).phase = r.countSet.1.phase ∧ (w.shaft sh).step = r.countSet.1.step ∧
        (w.shaft sh).counter = r.countSet.1.counter := by
      rw [shaft]
      exact ⟨rfl, rfl, rfl⟩
    obtain ⟨phase, place, counter⟩ := counted
    refine ⟨t, w.shaft sh, run, own, ?_, ?_, fun runout => ?_, fun winds goes => ?_, fun winds endless last later next => ?_,
      fun winds endless last none => ?_, fun winds => ?_, fun now' h => ?_⟩
    · rw [shaft, low]
    · obtain ⟨_, _, _, _, _, _, _, _, frame⟩ := done.frame
      obtain ⟨_, _, _, _, _, _, _, _, _, frame'⟩ := made.frame
      rw [frame, frame']
    · rw [phase, place, counter, ShaftRec.countSet_runout runout]
      exact ⟨runout, rfl, rfl⟩
    · rw [phase, place, counter, ShaftRec.countSet_counts winds step goes]
      exact ⟨rfl, rfl, rfl⟩
    · rw [phase, place, counter, ShaftRec.countSet_loads winds step endless (Nat.not_lt.mpr last) next]
      exact ⟨rfl, rfl, rfl⟩
    · have ends := ShaftRec.countSet_ends winds step endless (Nat.not_lt.mpr last) none
      exact ⟨phase.trans (congrArg (fun x : ShaftRec × Bool => x.1.phase) ends),
        place.trans (congrArg (fun x : ShaftRec × Bool => x.1.step) ends),
        counter.trans (congrArg (fun x : ShaftRec × Bool => x.1.counter) ends), done.isSet _ (made.ends (by rw [ends]))⟩
    · exact done.isSet _ (made.unplanned winds)
    · have same : (w.shaft sh).currentStep = r.countSet.1.currentStep := by
        rw [shaft]
        unfold ShaftRec.currentStep
        rw [ShaftRec.countSet_eq]
      obtain ⟨thresholds, tension, armed⟩ := made.equipped now' (same ▸ h)
      refine ⟨tension, thresholds, fun k => (armed k).congr ?_ (done.watches _ nofun) ?_⟩
      · obtain ⟨_, _, _, _, _, _, _, _, frame⟩ := done.frame
        rw [frame]
      · obtain ⟨_, _, _, _, _, _, _, _, frame⟩ := done.frame
        rw [frame]

/-! ## The next set (O42) -/

theorem State.spotsKept.latestEnd {s t : State} (h : s.spotsKept t) (n : Lane) (sh : Shaft) : t.latestEnd n sh = s.latestEnd n sh := by
  refine State.latestEnd_congr fun g => ?_
  have ends (x : Option Reel) : x.map (Reel.endOn n sh) = (x.map Reel.spot).map fun y =>
      if y.2.1 = n ∧ y.2.2.1 = sh ∧ y.2.2.2.2.2.2.2 = false then y.2.2.2.2.2.1.getD 0 else 0 := by
    rw [Option.map_map]
    rfl
  rw [ends, ends, h g]

/-- The next set of a cut is opened whole where the supply suffices (R55, R122). -/
theorem State.cutMade_supplied {s : State} {sh : Shaft} {c : Nat} {now : PlanStep} (law : RecordLaw s)
    (current : (s.shaft sh).countSet.1.currentStep = some now)
    (supply : (s.enabledLanes sh).length ≤ s.supply sh (s.shaft sh).phase) :
    ∀ n ∈ s.enabledLanes sh, ((s.cutMade sh c).lane n).untracked = false := by
  obtain ⟨⟨p, q, th, reason, v, en, d, frame⟩, reels, -⟩ := s.cutCounted_spec sh c
  obtain ⟨u, hu⟩ : ∃ u, u = s.cutCounted sh c := ⟨_, rfl⟩
  rw [← hu] at frame reels
  have lanes : u.enabledLanes sh = s.enabledLanes sh := by rw [frame]; rfl
  have current' : (u.shaft sh).currentStep = some now := by
    rw [← current, frame, State.shaft, Pair.get_set_self]
    unfold ShaftRec.currentStep
    rw [ShaftRec.countSet_eq]
  have law' : RecordLaw u := recordLaw_of_reels law (by rw [frame]) (by rw [frame]) fun g => by rw [reels, Option.isNone_map]
  have supply' : u.supply sh (s.shaft sh).phase = s.supply sh (s.shaft sh).phase := by rw [frame]; rfl
  obtain ⟨-, -, supplied⟩ := u.openSet_spec sh c (s.shaft sh).phase (st := now) fun other h => Option.some.inj (h.symm.trans current')
  rw [lanes] at supplied
  obtain ⟨y, hy⟩ : ∃ y, y = u.openSet sh c (s.shaft sh).phase := ⟨_, rfl⟩
  rw [← hy] at supplied
  obtain ⟨⟨_, _, _, last⟩, -⟩ := y.cutSettled_spec sh c
  have settled : s.cutMade sh c = y.cutSettled sh c := by rw [hy, hu]; rfl
  intro n mem
  rw [settled, last]
  exact supplied now law' current' (supply'.symm ▸ supply) n mem

/-- Settles O42. -/
theorem cutsOpenTheNextSet : Obligations.CutsOpenTheNextSet := by
  unfold Obligations.CutsOpenTheNextSet
  intro sh c st s latch law winds step
  obtain ⟨now, current⟩ := ShaftRec.countSet_current step
  have made := s.cutMade_made sh c (st := now) fun other h => Option.some.inj (h.symm.trans current)
  have supplied := State.cutMade_supplied (c := c) law current
  obtain ⟨w, hw⟩ : ∃ w, w = s.cutMade sh c := ⟨_, rfl⟩
  rw [← hw] at made supplied
  have done := s.reported (made.unlatched)
  have run := hw ▸ exec_cut latch winds
  obtain ⟨t, ht⟩ : ∃ t, t = s.settle (w.reportCut sh) := ⟨_, rfl⟩
  rw [← ht] at done run
  have shafts : t.shaft sh = w.shaft sh := by
    obtain ⟨_, _, _, _, _, _, _, _, frame⟩ := done.frame
    rw [frame]
    rfl
  obtain ⟨p, q, th, tn, own⟩ := made.own
  have counted : (w.shaft sh).phase = (s.shaft sh).countSet.1.phase ∧ (w.shaft sh).step = (s.shaft sh).countSet.1.step ∧
      (w.shaft sh).counter = (s.shaft sh).countSet.1.counter := by
    rw [own]
    exact ⟨rfl, rfl, rfl⟩
  obtain ⟨phase, place, counter⟩ := counted
  refine ⟨t, now, run, ?_, fun n mem => ?_, fun enough n mem => ?_, fun n out => ?_⟩
  · rw [shafts, ← current, own]
    unfold ShaftRec.currentStep
    rw [ShaftRec.countSet_eq]
  · obtain ⟨h, q, free, there, ⟨fresh, opened⟩, lane⟩ | lane := made.lanes n mem
    · obtain ⟨r, there', struck⟩ := done.struck.there there
      have first := struck.opened ⟨s.travel.current.get sh, 0⟩ rfl (by rw [opened]; rfl)
      have latest := done.spots.latestEnd n sh
      obtain ⟨i, hi⟩ : ∃ i, i = q.id := ⟨_, rfl⟩
      rw [← hi] at opened fresh
      obtain ⟨_, _, _, pa, _, _, _, _, _, _, e⟩ := struck.eq
      subst opened
      have fields : r.lane = n := by rw [e]; rfl
      refine .inl ⟨h, r, ?_, ?_, free, there', fun g q' was => ?_, ?_⟩
      · rw [(done.lanes n).1, lane]
      · rw [(done.lanes n).1, lane]
      · rw [e]
        exact fresh g q' was
      · rw [latest, shafts, phase, place, counter]
        refine ⟨?_, fields, ?_, ?_, ?_, ?_, ?_, ?_, ?_, ?_, ?_, ?_, ?_, ?_, ?_, first, ?_, ?_, ?_⟩
        all_goals rw [e]; rfl
    · exact .inr (by rw [(done.lanes n).1, lane]; exact ⟨rfl, rfl⟩)
  · rw [(done.lanes n).1]
    exact supplied enough n mem
  · rw [(done.lanes n).1, made.untouched n out]

end Sys2Proof.Machine
end

section
/-! PROOF. What a cut leaves of the set that it closes, of the engine, the travel list and the port (O40). -/

namespace Sys2Proof.Machine

/-! ## The records that a cut closes -/

theorem Reel.overrunIf_winding {r : Reel} {sh : Shaft} (own : r.shaft = sh) (winds : r.state = .winding) (b : Bool) :
    r.overrunIf sh b = { r with flags := { r.flags with overrun := r.flags.overrun || b } } := if_pos ⟨own, winds⟩

theorem Reel.overrunIf_other {r : Reel} {sh : Shaft} (h : r.shaft ≠ sh ∨ r.state ≠ .winding) (b : Bool) :
    r.overrunIf sh b = r := if_neg fun k => h.elim (fun h => h k.1) fun h => h k.2

theorem Reel.unloadIf_other {r : Reel} {sh : Shaft} (sp : Spindle) (b : Bool) (h : r.shaft ≠ sh ∨ r.state ≠ .doffing) :
    r.unloadIf sh sp b = r := if_neg fun k => h.elim (fun h => h k.2.1) fun h => h k.2.2.2

/-- A record of another shaft, a DOFFED one, a DOFFING one and one of the closed set, as a cut leaves them. -/
theorem State.cutReel_other (s : State) {sh : Shaft} (c : Nat) {r : Reel} (other : r.shaft ≠ sh) : s.cutReel sh c r = r := by
  unfold State.cutReel
  rw [r.overrunIf_other (.inl other), r.unloadIf_other _ _ (.inl other)]
  exact if_neg fun h => other (by simpa [Reel.closes] using h : _ ∧ _).1

theorem State.cutReel_doffing (s : State) {sh : Shaft} (c : Nat) {r : Reel} (doffing : r.state = .doffing) :
    s.cutReel sh c r = r.unloadIf sh (s.shaft sh).active.other
      (decide ((s.shaft sh).spindle (s.shaft sh).active.other = .full)) := by
  have open' : r.closes sh = false := by
    unfold Reel.closes
    rw [doffing]
    exact Bool.and_false _
  unfold State.cutReel
  rw [r.overrunIf_other (.inr (by rw [doffing]; decide))]
  exact if_neg (by rw [Reel.unloadIf_closes, open']; decide)

theorem State.cutReel_wound (s : State) {sh : Shaft} (c : Nat) {r : Reel} (own : r.shaft = sh)
    (wound : r.state = .winding ∨ r.state = .ended) :
    s.cutReel sh c r = (r.overrunIf sh ((s.shaft sh).catches c .overrun)).close c (s.shaft sh).short := by
  have closes : (r.overrunIf sh ((s.shaft sh).catches c .overrun)).closes sh = true := by
    rw [Reel.overrunIf_closes]
    simp [Reel.closes, own, wound]
  have still := (r.overrunIf_facts sh ((s.shaft sh).catches c .overrun)).2.2
  unfold State.cutReel
  rw [Reel.unloadIf_other _ _ (.inr (by rw [still]; rcases wound with e | e <;> rw [e] <;> decide))]
  exact if_pos closes

theorem Reel.close_ended {r : Reel} (ended : r.state = .ended) (c : Nat) (short : Bool) : r.close c short =
    { r with state := .doffing, revision := r.revision + 1, flags := { r.flags with short := r.flags.short || short } } := by
  unfold Reel.close
  rw [if_neg (by rw [ended]; decide)]
  rfl

theorem Reel.close_winding {r : Reel} (winds : r.state = .winding) (c : Nat) (short : Bool) : r.close c short =
    { r with
      state := .doffing
      stopAt := some (max c r.start)
      footage := r.footageOf c
      revision := r.revision + 1
      flags := { r.footageFlags c with short := (r.footageFlags c).short || short } } := by
  unfold Reel.close
  rw [if_pos winds]
  rfl

theorem Reel.close_tallies (r : Reel) (c : Nat) (short : Bool) : (r.close c short).tallies = r.tallies := by
  unfold Reel.close
  dsimp only
  split <;> rfl

theorem State.cutReel_tallies (s : State) (sh : Shaft) (c : Nat) (r : Reel) : (s.cutReel sh c r).tallies = r.tallies := by
  have unload (q : Reel) (sp : Spindle) (b : Bool) : (q.unloadIf sh sp b).tallies = q.tallies := by
    unfold Reel.unloadIf
    split <;> rfl
  have overrun (q : Reel) (b : Bool) : (q.overrunIf sh b).tallies = q.tallies := by
    unfold Reel.overrunIf
    split <;> rfl
  unfold State.cutReel
  dsimp only
  rw [apply_ite Reel.tallies, Reel.close_tallies, ite_self, unload, overrun]

/-! ## What the report of a cut does, by the state before the cut -/

/-- The tallies of a handle, or none. -/
def State.talliesAt (s : State) (h : Handle) : Tallies := ((s.reel h).map Reel.tallies).getD ⟨0, 0, 0, 0, 0, 0, 0⟩

theorem State.CutMade.talliesAt {s w : State} {sh : Shaft} {c : Nat} {st : PlanStep} (made : s.CutMade sh c st w) (h : Handle) :
    w.talliesAt h = s.talliesAt h := by
  unfold State.talliesAt
  cases there : s.reel h with
  | some r => rw [made.reels h r there]; exact s.cutReel_tallies sh c r
  | none =>
    cases new : w.reel h with
    | none => rfl
    | some q =>
      obtain ⟨n, -, -, e⟩ := made.fresh h there q new
      rw [e]
      rfl

theorem State.CutMade.laneTally {s w : State} {sh : Shaft} {c : Nat} {st : PlanStep} (made : s.CutMade sh c st w) (n : Lane) :
    w.lane n = { s.lane n with current := (w.lane n).current, untracked := (w.lane n).untracked } := by
  by_cases mem : n ∈ s.enabledLanes sh
  · obtain ⟨_, _, _, _, _, e⟩ | e := made.lanes n mem
    · rw [e]
    · rw [e]
  · rw [made.untouched n mem]

theorem State.releasesNip.congr {s w t : State} {sh : Shaft} (h : w.releasesNip t sh) (travel : w.travel = s.travel)
    (p : w.position.p = s.position.p) (held : w.port.held = s.port.held) (tallies : ∀ g, w.talliesAt g = s.talliesAt g)
    (lanes : ∀ n, (w.lane n).tally = (s.lane n).tally) : s.releasesNip t sh := by
  obtain ⟨list, watch, lands⟩ := h
  rw [travel, p] at list lands
  rw [held] at lands
  refine ⟨list, watch, fun e l stage only reached free => ?_⟩
  obtain ⟨found, missed⟩ := lands e l stage only reached free
  refine ⟨fun g covers => ?_, fun none => (missed none).trans (congrArg satInc (lanes _))⟩
  obtain ⟨q, there, counted⟩ := found g covers
  exact ⟨q, there, counted.trans (congrArg (Tallies.count · e.finding) (tallies g))⟩

theorem HeldMark.attributed.congr {s w t : State} {m : HeldMark} (h : m.attributed w t) (travel : w.travel = s.travel)
    (port : w.port = s.port) (tallies : ∀ g, w.talliesAt g = s.talliesAt g)
    (lanes : ∀ n, (w.lane n).tally = (s.lane n).tally) : m.attributed s t := by
  obtain ⟨answered, flags⟩ := h
  rw [port] at answered
  rw [travel] at flags
  have flagAt (u : State) (g : Handle) : ((u.reel g).map fun r => r.tallies.flag).getD 0 = (u.talliesAt g).flag := by
    unfold State.talliesAt
    cases u.reel g <;> rfl
  refine ⟨answered, fun distinct plain l mem => ?_⟩
  obtain ⟨found, missed⟩ := flags distinct plain l mem
  refine ⟨fun g covers => ?_, fun none => lanes l.lane ▸ missed none⟩
  obtain ⟨q, there, counted⟩ := found g covers
  exact ⟨q, there, by rw [counted, flagAt, flagAt, tallies]⟩

theorem Reel.Struck.readings {r q : Reel} (h : r.Struck q) (g : Handle) : q.readings g q.footage = r.readings g r.footage := by
  obtain ⟨_, _, _, _, _, _, _, _, _, _, e⟩ := h.eq
  rw [e]
  rfl

theorem State.cutMade_exists (s : State) (sh : Shaft) (c : Nat) : ∃ st, s.CutMade sh c st (s.cutMade sh c) := by
  cases h : (s.shaft sh).countSet.1.currentStep with
  | some st => exact ⟨st, s.cutMade_made sh c fun now e => Option.some.inj (e.symm.trans h)⟩
  | none => exact ⟨⟨0, 0, 0, 0, 0, 0, 0, 0⟩, s.cutMade_made sh c fun now e => absurd (e.symm.trans h) nofun⟩

theorem Reel.footageFlags_overrun (r : Reel) (x : Nat) : (r.footageFlags x).overrun = r.flags.overrun := by
  unfold Reel.footageFlags
  split <;> rfl

/-- A record that a cut closes, as the report of the cut leaves it (R44 to R46, R119, R120). -/
theorem Reel.closed_struck {r q : Reel} {sh : Shaft} {c : Nat} {short overrun : Bool} (own : r.shaft = sh)
    (struck : ((r.overrunIf sh overrun).close c short).Struck q) :
    q.id = r.id ∧ q.state = .doffing ∧ (short = true → q.flags.short = true) ∧
    (r.state = .ended → q.stopAt = r.stopAt ∧ q.footage = r.footage) ∧
    (r.state = .winding → q.stopAt = some (max c r.start) ∧ q.flags.overrun = (r.flags.overrun || overrun) ∧
      (r.start ≤ c → q.footage = min (((c - r.start) * r.rho + 500000) / 1000000) maxPosition) ∧
      (c < r.start → q.footage = 0 ∧ q.flags.reversed = true)) := by
  have id : ((r.overrunIf sh overrun).close c short).id = r.id := (Reel.close_id ..).trans (Reel.overrunIf_facts ..).1
  have state : ((r.overrunIf sh overrun).close c short).state = .doffing := rfl
  have shorted : short = true → ((r.overrunIf sh overrun).close c short).flags.short = true := fun h => by
    rw [h]
    exact Bool.or_true _
  obtain ⟨_, _, _, _, _, _, _, _, _, _, e⟩ := struck.eq
  refine ⟨by rw [e]; exact id, by rw [e]; exact state, fun h => by rw [e]; exact shorted h, fun ended => ?_, fun winds => ?_⟩
  · rw [Reel.overrunIf_other (.inr (by rw [ended]; decide)), Reel.close_ended ended] at e
    rw [e]
    exact ⟨rfl, rfl⟩
  · rw [Reel.overrunIf_winding own winds] at e
    have e := e.trans (by rw [Reel.close_winding (r := { r with flags := { r.flags with overrun := r.flags.overrun || overrun } }) winds])
    rw [e]
    refine ⟨rfl, Reel.footageFlags_overrun .., fun le => if_pos le, fun lt => ⟨if_neg (Nat.not_le.mpr lt), ?_⟩⟩
    show (Reel.footageFlags _ c).reversed = true
    unfold Reel.footageFlags
    rw [if_neg (Nat.not_le.mpr lt)]

/-- Settles O40. -/
theorem cutsCloseTheSet : Obligations.CutsCloseTheSet := by
  unfold Obligations.CutsCloseTheSet
  intro sh c s latch winds rear caught
  obtain ⟨st, made⟩ := s.cutMade_exists sh c
  obtain ⟨w, hw⟩ : ∃ w, w = s.cutMade sh c := ⟨_, rfl⟩
  rw [← hw] at made
  have done := s.reported made.unlatched
  have run := hw ▸ exec_cut latch winds
  obtain ⟨t, ht⟩ : ∃ t, t = s.settle (w.reportCut sh) := ⟨_, rfl⟩
  rw [← ht] at done run
  obtain ⟨_, _, _, _, _, _, _, _, frame⟩ := done.frame
  obtain ⟨_, _, _, _, _, _, _, _, _, frame'⟩ := made.frame
  have travel : w.travel = s.travel := by rw [frame']
  have p : w.position.p = s.position.p := by rw [frame']
  have port : w.port = s.port := by rw [frame']
  have tally (n : Lane) : (w.lane n).tally = (s.lane n).tally := by rw [made.laneTally n]
  have alert (k : Threshold) (caught : (s.shaft sh).catches c k = true) {i : Fin 20} (own : s.alertOf sh i k = true) :
      t.digest.alerts[i].isSet = true := done.isSet i (made.alerts k caught i own)
  have record {h : Handle} {r : Reel} (there : s.reel h = some r) : ∃ q, t.reel h = some q ∧ (s.cutReel sh c r).Struck q :=
    done.struck.there (made.reels h r there)
  refine ⟨t, run, ?_, ?_, ?_, fun n => ?_, fun n out => ?_, ?_, ?_, fun v nip threshold => ?_, fun h r there own wound => ?_,
    fun h => alert .approach h (decide_eq_true rfl), fun h reason => alert .due h ?_, fun h => alert .overrun h (decide_eq_true rfl),
    fun full => done.isSet _ (made.doffed full), fun h r there own doffing => ?_, fun h r there other => ?_, fun m held own => ?_,
    fun free => ?_⟩
  · rw [frame, frame']
  · have same : t.position.arrivals = w.position.arrivals := by rw [frame]
    rw [same]
    exact made.arrivals
  · have same : t.shaft (other sh) = w.shaft (other sh) := by rw [frame]; rfl
    rw [same]
    exact made.other
  · rw [(done.lanes n).1, made.laneTally n]
  · rw [(done.lanes n).1, made.untouched n out]
  · exact made.queued.congr rfl rfl rfl (fun _ => rfl) (by rw [frame]) fun g q there => by
      obtain ⟨q', there', struck⟩ := done.struck.there there
      exact ⟨q', there', struck.readings g⟩
  · exact done.nip.congr travel p (by rw [port]) made.talliesAt tally
  · exact (done.watches v nip).trans (made.watches v threshold)
  · obtain ⟨q, there', struck⟩ := record there
    rw [s.cutReel_wound c own wound] at struck
    obtain ⟨id, state, short, ended, winding⟩ := Reel.closed_struck (overrun := (s.shaft sh).catches c .overrun) own struck
    exact ⟨q, there', id, state, short, ended, winding⟩
  · unfold State.alertOf
    rw [decide_eq_true reason, decide_eq_true rfl]
    rfl
  · obtain ⟨q, there', struck⟩ := record there
    rw [s.cutReel_doffing c doffing] at struck
    unfold Reel.unloadIf at struck
    simp only [decide_eq_true_eq, own, doffing, true_and, and_true] at struck
    obtain ⟨_, _, _, _, _, _, _, _, _, _, e⟩ := struck.eq
    refine ⟨q, there', ?_, ?_⟩
    · rw [e]
      split <;> rfl
    · split
      · next h => rw [e, if_pos h]; exact ⟨rfl, rfl⟩
      · next h => rw [e, if_neg h]; exact doffing
  · obtain ⟨q, there', struck⟩ := record there
    rw [s.cutReel_other c other] at struck
    obtain ⟨_, _, _, _, _, _, _, _, _, _, e⟩ := struck.eq
    exact ⟨q, there', by rw [e], by rw [e], by rw [e]⟩
  · exact (done.held m (port ▸ held) own).congr travel port made.talliesAt tally
  · exact (done.unheld (port ▸ free)).trans port

end Sys2Proof.Machine
end

section
/-! PROOF. Shafts started and stopped (O57). -/

namespace Sys2Proof.Machine

/-! ## A start -/

/-- The lanes of a start are opened from the unreserved records (R106). -/
theorem State.start_eq (s : State) (sh : Shaft) (st : PlanStep) : s.start sh st =
    let s1 := s.setShaft sh ((s.shaft sh).begin st)
    ((s1.openLanes sh s.position.p .idle .none (s1.enabledLanes sh)).openThresholds sh s.position.p).baseTension sh := by
  have pool (u : State) : u.cutPool sh .idle = .unreserved := if_neg fun h => nomatch h.1
  unfold State.start State.openLanes
  simp only [pool]

/-- What a start does where the unreserved records suffice (R106, R108). -/
theorem State.start_spec {s : State} {sh : Shaft} {st : PlanStep} {later : List PlanStep} (plan : (s.shaft sh).plan = st :: later)
    (law : RecordLaw s) (enough : (s.enabledLanes sh).length ≤ s.unreserved) :
    let t := s.start sh st
    let th := thresholdsOf s.position.p st.target (s.settings.rho.get sh) (s.settings.job.get sh)
    (∃ w a ls v f sf k, t = { s with
      position := { s.position with watches := w, arrivals := a }
      map := { s.map with lanes := ls }
      table := { s.table with reels := v, free := f }
      shafts := sf
      store := { s.store with settings := { s.settings with reelIdCounter := k } } }) ∧
    t.table.free + (s.enabledLanes sh).length = s.table.free ∧ s.position.arrivals <+: t.position.arrivals ∧
    (∃ p q, t.shaft sh = { (s.shaft sh).begin st with
      spindle1 := p, spindle2 := q, thresholds := some th, tension := st.baseTension }) ∧
    (∀ k, t.armedAt (.threshold sh k) (th.get k).position) ∧ (∀ w, (∀ k, w ≠ .threshold sh k) → t.watch w = s.watch w) ∧
    t.shaft (other sh) = s.shaft (other sh) ∧ (∀ n, n ∉ s.enabledLanes sh → t.lane n = s.lane n) ∧
    (∀ n ∈ s.enabledLanes sh, ∃ h q, s.reel h = none ∧ t.reel h = some q ∧
      t.lane n = { s.lane n with current := some h, untracked := false } ∧ (∀ g, ∀ u ∈ s.reel g, u.id ≠ q.id) ∧
      q = s.openedReel q.id (max s.position.p (s.latestEnd n sh)) n sh (t.shaft sh).active st 1 st.count .none) ∧
    ∀ h, (s.reel h).isSome → t.reel h = s.reel h := by
  intro t th
  obtain ⟨s1, h1⟩ : ∃ s1, s1 = s.setShaft sh ((s.shaft sh).begin st) := ⟨_, rfl⟩
  have own1 : s1.shaft sh = (s.shaft sh).begin st := by rw [h1, State.setShaft_shaft_self]
  have step : (s1.shaft sh).currentStep = some st := by
    rw [own1]
    refine (ShaftRec.currentStep_of_step (n := 0) rfl).trans ?_
    show (s.shaft sh).plan[0]? = some st
    rw [plan]
    rfl
  have lanes : s1.enabledLanes sh = s.enabledLanes sh := by rw [h1]; rfl
  have distinct := s.enabledLanes_nodup sh
  have openings := State.openLanes_openings (s := s1) (x := s.position.p) (flags := .none) (st := st)
    (fun now h => Option.some.inj (h.symm.trans step)) .idle distinct
  have law1 : RecordLaw s1 := by rw [h1]; exact law
  obtain ⟨tracked, count⟩ := State.openLanes_supplied (s := s1) (sh := sh) (x := s.position.p) (flags := .none) (taken := .idle) law1 step
    (fun n mem => by rw [h1]; exact (State.mem_enabledLanes.mp mem).1) distinct
    (show (s.enabledLanes sh).length ≤ s1.supply sh .idle from by rw [h1]; exact enough)
  have reserved := State.openLanes_reserved (sh := sh) (x := s.position.p) (flags := .none) (taken := .idle) (by decide) s1 (s.enabledLanes sh)
  obtain ⟨y, hy⟩ : ∃ y, y = s1.openLanes sh s.position.p .idle .none (s.enabledLanes sh) := ⟨_, rfl⟩
  have equip : t = (y.openThresholds sh s.position.p).baseTension sh := by
    show s.start sh st = _
    rw [s.start_eq, hy, ← lanes, h1]
  rw [← hy] at openings tracked count reserved
  obtain ⟨⟨w, a, th', tn, last⟩, arrivals, watches, equipped⟩ := y.equip_spec sh s.position.p
  rw [← equip] at last arrivals watches equipped
  obtain ⟨ls, v, f, k, c, p, q, opened⟩ := openings.frame
  have ownY : y.shaft sh = { (s.shaft sh).begin st with spindle1 := p, spindle2 := q } := by
    rw [opened, State.shaft, Pair.get_set_self, own1]
  obtain ⟨own, armed⟩ := equipped st (openings.currentStep.trans step)
  have settings : y.settings.rho = s.settings.rho ∧ y.settings.job = s.settings.job := by
    rw [opened, h1]
    exact ⟨rfl, rfl⟩
  rw [settings.1, settings.2] at own armed
  have position : y.position = s.position := by rw [opened, h1]; rfl
  have reserved' : s.table.reserved.set sh k = s.table.reserved := by
    rw [opened, h1] at reserved
    exact reserved
  have reel (g : Handle) : t.reel g = y.reel g := by rw [last]; rfl
  have lane (n : Lane) : t.lane n = y.lane n := by rw [last]; rfl
  have lane1 (n : Lane) : s1.lane n = s.lane n := by rw [h1]; rfl
  have reel1 (g : Handle) : s1.reel g = s.reel g := by rw [h1]; rfl
  refine ⟨⟨w, a, ls, v, f, t.shafts, c, ?_⟩, ?_, position ▸ arrivals, ⟨p, q, ?_⟩, armed, fun x other => ?_, ?_,
    fun n out => ?_, fun n mem => ?_, fun h there => ?_⟩
  · rw [last, opened, h1]
    show ({ s with position := _, map := _, table := ⟨v, f, s.table.reserved.set sh k⟩, shafts := _, store := _ } : State) = _
    rw [reserved']
    rfl
  · have free : t.table.free = y.table.free := by rw [last]
    rw [free, count, h1]
    rfl
  · rw [own, ownY]
  · refine (watches x other).trans ?_
    rw [State.watch, position]
    rfl
  · rw [last, opened, h1]
    exact (Pair.get_set_other ..).trans ((Pair.get_set_other ..).trans (Pair.get_set_other ..))
  · rw [lane, openings.others n out, lane1]
  · obtain ⟨h, r, free, there, ⟨fresh, new⟩, set⟩ | untracked := openings.lanes n mem
    · refine ⟨h, r, (reel1 h).symm.trans free, (reel h).trans there, by rw [lane, set, lane1], fun g u was => ?_, new.trans ?_⟩
      · exact fresh g u ((reel1 g).trans was)
      · have active : (t.shaft sh).active = (s1.shaft sh).active := by rw [own, ownY, own1]
        have latest : s1.latestEnd n sh = s.latestEnd n sh := State.latestEnd_congr fun g => by rw [reel1]
        rw [active, latest, own1, h1]
        rfl
    · have set := tracked n mem
      rw [untracked] at set
      cases set
  · obtain ⟨r, e⟩ := Option.isSome_iff_exists.mp there
    rw [reel, e]
    exact openings.kept h r ((reel1 h).trans e)

/-! ## A stop -/

theorem State.disarmThresholds_spec (s : State) (sh : Shaft) :
    (∃ w, s.disarmThresholds sh = { s with position := { s.position with watches := w } }) ∧
    (∀ k, (s.disarmThresholds sh).watch (.threshold sh k) = none) ∧
    ∀ v, (∀ k, v ≠ .threshold sh k) → (s.disarmThresholds sh).watch v = s.watch v := by
  have row {ks : List Threshold} (s : State) : let u := ks.foldl (fun u k => u.disarm (.threshold sh k)) s
      (∃ w, u = { s with position := { s.position with watches := w } }) ∧
      (∀ v, (v ∈ ks.map (Watch.threshold sh) → u.watch v = none) ∧
        (v ∉ ks.map (Watch.threshold sh) → u.watch v = s.watch v)) := by
    induction ks generalizing s with
    | nil => exact ⟨⟨_, rfl⟩, fun v => ⟨nofun, fun _ => rfl⟩⟩
    | cons k ks ih =>
      obtain ⟨⟨w, frame⟩, rest⟩ := ih (s.disarm (.threshold sh k))
      refine ⟨⟨w, frame.trans rfl⟩, fun v => ⟨fun mem => ?_, fun out => ?_⟩⟩
      · by_cases later : v ∈ ks.map (Watch.threshold sh)
        · exact (rest v).1 later
        · obtain rfl := (List.mem_cons.mp mem).resolve_right later
          exact ((rest _).2 later).trans (s.watch_disarm _)
      · rw [List.map_cons, List.mem_cons, not_or] at out
        exact ((rest v).2 out.2).trans (s.watch_disarm_ne out.1)
  obtain ⟨frame, watches⟩ := row (ks := allThresholds) s
  refine ⟨frame, fun k => (watches _).1 (List.mem_map_of_mem (by cases k <;> decide)), fun v other => (watches v).2 fun mem => ?_⟩
  obtain ⟨k, -, e⟩ := List.mem_map.mp mem
  exact other k e.symm

/-- What a stop does (R107). -/
theorem State.halt_spec (s : State) (sh : Shaft) :
    let t := s.halt sh
    (∃ w ls v sf e, t = { s with
      position := { s.position with watches := w }
      map := { s.map with lanes := ls }
      table := { s.table with reels := v, reserved := s.table.reserved.set sh 0 }
      shafts := sf
      engine := e }) ∧
    (∃ p q, t.shaft sh = { (s.shaft sh).halt with spindle1 := p, spindle2 := q }) ∧
    t.shaft (other sh) = { s.shaft (other sh) with retriesDue := (t.shaft (other sh)).retriesDue } ∧
    (∀ k, t.watch (.threshold sh k) = none) ∧ (∀ v, (∀ k, v ≠ .threshold sh k) → t.watch v = s.watch v) ∧
    s.queuesWound t sh ∧
    (∀ n, t.lane n = if (s.lane n).shaft = sh then { s.lane n with current := none, untracked := false } else s.lane n) ∧
    ∀ h, t.reel h = (s.reel h).map fun q => if q.closes sh then q.close s.position.p false else q := by
  intro t
  obtain ⟨⟨v, e, f0⟩, reels, wound⟩ := s.closeSet_spec sh s.position.p false
  obtain ⟨s0, h0⟩ : ∃ s0, s0 = s.closeSet sh s.position.p false := ⟨_, rfl⟩
  rw [← h0] at f0 reels wound
  obtain ⟨n, f1⟩ := s0.releaseReserved_frame sh
  have own1 := s0.releaseReserved_own sh
  obtain ⟨s1, h1⟩ : ∃ s1, s1 = s0.releaseReserved sh := ⟨_, rfl⟩
  rw [← h1] at f1 own1
  obtain ⟨p, q, f2⟩ := (s1.setShaft sh (s1.shaft sh).halt).refreshSpindles_frame sh
  obtain ⟨s2, h2⟩ : ∃ s2, s2 = (s1.setShaft sh (s1.shaft sh).halt).refreshSpindles sh := ⟨_, rfl⟩
  rw [← h2, State.setShaft_shaft_self] at f2
  obtain ⟨⟨w, f3⟩, disarmed, others⟩ := s2.disarmThresholds_spec sh
  obtain ⟨s3, h3⟩ : ∃ s3, s3 = s2.disarmThresholds sh := ⟨_, rfl⟩
  rw [← h3] at f3 disarmed others
  have last : t = s3.mapLanes fun l => if l.shaft = sh then { l with current := none, untracked := false } else l := by
    rw [h3, h2, h1, h0]
    rfl
  have own0 : s0.shaft sh = s.shaft sh := by rw [f0]; rfl
  have map3 : s3.map = s.map := by rw [f3, f2, f1, f0]; rfl
  obtain ⟨ls, f4⟩ : ∃ ls, t = { s3 with map := { s3.map with lanes := ls } } := ⟨_, last⟩
  have shaft (sh' : Shaft) : t.shaft sh' = s3.shaft sh' := by rw [f4]; rfl
  have ownT : t.shaft sh = { (s.shaft sh).halt with spindle1 := p, spindle2 := q } := by
    rw [shaft, f3]
    show s2.shaft sh = _
    rw [f2, State.shaft, Pair.get_set_self, own1, own0]
  have otherT : t.shaft (other sh) = { s.shaft (other sh) with retriesDue := n } := by
    rw [shaft, f3]
    show s2.shaft (other sh) = _
    rw [f2, State.shaft, Pair.get_set_other]
    refine (State.setShaft_shaft_other ..).trans ?_
    rw [f1, State.shaft, Pair.get_set_self, f0]
    rfl
  have watch (v : Watch) : t.watch v = s3.watch v := by rw [f4]; rfl
  have reel (g : Handle) : t.reel g = s0.reel g := by rw [f4, f3, f2, f1]; rfl
  have engine : t.engine = s0.engine := by rw [f4, f3, f2, f1]; rfl
  refine ⟨⟨w, ls, v, t.shafts, e, ?_⟩, ⟨p, q, ownT⟩, by rw [otherT], fun k => (watch _).trans (disarmed k), fun x other => ?_, ?_,
    fun m => ?_, fun h => (reel h).trans (reels h)⟩
  · rw [f4, f3, f2, f1, f0]
    rfl
  · refine (watch x).trans ((others x other).trans ?_)
    rw [f2, f1, f0]
    rfl
  · exact wound.congr rfl rfl rfl (fun _ => rfl) engine fun g r there => ⟨r, (reel g).trans there, rfl⟩
  · have lane : s3.lane m = s.lane m := congrArg (fun k : KnifeMap => k.lanes[m]) map3
    rw [last, State.mapLanes_lane, lane]

/-! ## The requests -/

section
variable {s : State} {sh : Shaft}

/-- The shaft rests: IDLE, with no cut stamped (R106). -/
def State.restsAt (s : State) (sh : Shaft) : Prop := (s.shaft sh).phase = .idle ∧ s.position.latch.get sh = none

theorem State.restsAt_iff : ¬ ((s.shaft sh).phase ≠ .idle ∨ (s.position.latch.get sh).isSome = true) ↔ s.restsAt sh := by
  rw [not_or, not_not, Bool.not_eq_true, Option.isSome_eq_false_iff, Option.isNone_iff_eq_none]
  rfl

theorem State.startShaft_state (h : (s.shaft sh).plan = [] ∨ ¬ s.restsAt sh) : s.startShaft sh = Reply.code s .state := by
  unfold State.startShaft
  dsimp only
  split
  · rfl
  · next st later plan =>
    refine if_pos (not_not.mp (mt State.restsAt_iff.mp (h.resolve_left ?_)))
    rw [plan]
    nofun

section
variable {st : PlanStep} {later : List PlanStep} (plan : (s.shaft sh).plan = st :: later) (rests : s.restsAt sh)
include plan rests

theorem State.startShaft_rests : s.startShaft sh =
    if (s.shaft sh).spindle1 ≠ .empty ∧ (s.shaft sh).spindle2 ≠ .empty then Reply.code s .notUnloaded
    else if s.unreserved < (s.enabledLanes sh).length then Reply.code s .noRecords
    else Reply.code (s.start sh st) .ok := by
  unfold State.startShaft
  dsimp only
  rw [plan]
  exact if_neg (State.restsAt_iff.mpr rests)

theorem State.startShaft_full (one : (s.shaft sh).spindle1 ≠ .empty) (two : (s.shaft sh).spindle2 ≠ .empty) :
    s.startShaft sh = Reply.code s .notUnloaded := (State.startShaft_rests plan rests).trans (if_pos ⟨one, two⟩)

theorem State.startShaft_short (empty : (s.shaft sh).spindle1 = .empty ∨ (s.shaft sh).spindle2 = .empty)
    (few : s.unreserved < (s.enabledLanes sh).length) : s.startShaft sh = Reply.code s .noRecords :=
  (State.startShaft_rests plan rests).trans ((if_neg fun h => empty.elim h.1 h.2).trans (if_pos few))

theorem State.startShaft_starts (empty : (s.shaft sh).spindle1 = .empty ∨ (s.shaft sh).spindle2 = .empty)
    (enough : (s.enabledLanes sh).length ≤ s.unreserved) : s.startShaft sh = Reply.code (s.start sh st) .ok :=
  (State.startShaft_rests plan rests).trans ((if_neg fun h => empty.elim h.1 h.2).trans (if_neg (Nat.not_lt.mpr enough)))

end

theorem State.stopShaft_state (h : ¬ ((s.shaft sh).phase ≠ .idle ∧ s.position.latch.get sh = none)) :
    s.stopShaft sh = Reply.code s .state := by
  refine if_pos ?_
  by_contra none
  rw [not_or, Bool.not_eq_true, Option.isSome_eq_false_iff, Option.isNone_iff_eq_none] at none
  exact h none

theorem State.stopShaft_moving (winds : (s.shaft sh).phase ≠ .idle) (latch : s.position.latch.get sh = none)
    (runs : s.position.line = .running) : s.stopShaft sh = Reply.code s .lineMoving :=
  (if_neg fun h => h.elim winds fun h => by rw [latch] at h; cases h).trans (if_pos runs)

theorem State.stopShaft_halts (winds : (s.shaft sh).phase ≠ .idle) (latch : s.position.latch.get sh = none)
    (stands : s.position.line = .stopped) : s.stopShaft sh = Reply.code (s.halt sh) .ok :=
  (if_neg fun h => h.elim winds fun h => by rw [latch] at h; cases h).trans (if_neg (by rw [stands]; decide))

end

/-- The records of a stopped set, in the words of O57. -/
theorem Reel.close_stopped {q : Reel} {sh : Shaft} (x : Nat) : (if q.closes sh then q.close x false else q) =
    if q.shaft = sh ∧ (q.state = .winding ∨ q.state = .ended) then
      let length := ((x - q.start) * q.rho + 500000) / 1000000
      let closed := { q with state := .doffing, revision := q.revision + 1 }
      if q.state = .ended then closed
      else if q.start ≤ x then { closed with
        stopAt := some x
        footage := min length maxPosition
        flags := { q.flags with limited := q.flags.limited || decide (maxPosition < length) } }
      else { closed with stopAt := some q.start, footage := 0, flags := { q.flags with reversed := true } }
    else q := by
  have closes : q.closes sh = true ↔ q.shaft = sh ∧ (q.state = .winding ∨ q.state = .ended) := by simp [Reel.closes]
  by_cases wound : q.shaft = sh ∧ (q.state = .winding ∨ q.state = .ended)
  · rw [if_pos (closes.mpr wound), if_pos wound]
    dsimp only
    by_cases ended : q.state = .ended
    · rw [if_pos ended, Reel.close_ended ended, Bool.or_false]
    · have winds := wound.2.resolve_right ended
      rw [if_neg ended, Reel.close_winding winds]
      by_cases reached : q.start ≤ x
      · rw [if_pos reached, Reel.footageOf, if_pos reached, Reel.footageFlags, if_pos reached, max_eq_left reached]
        dsimp only
        rw [Bool.or_false]
        rfl
      · rw [if_neg reached, Reel.footageOf, if_neg reached, Reel.footageFlags, if_neg reached,
          max_eq_right (Nat.le_of_lt (Nat.not_le.mp reached))]
        dsimp only
        rw [Bool.or_false]
  · rw [if_neg (mt closes.mp wound), if_neg wound]

/-- Settles O57. -/
theorem shaftsStartAndStop : Obligations.ShaftsStartAndStop := by
  unfold Obligations.ShaftsStartAndStop
  intro sh s takes r b spare answers rests
  have begins (p : Port) (act : Shaft → Reply) : (s.setPort p).onShaft b.toNat act = act sh := onShaft_byte ..
  refine ⟨fun h => ?_, fun plan rest one two => ?_, fun plan rest empty few => ?_, fun st later plan rest empty enough law => ?_,
    fun h => ?_, fun winds latch runs => ?_, fun winds latch stands => ?_⟩
  · exact settled_answer (q := ⟨0x30, [b]⟩) rfl takes ((begins ..).trans (State.startShaft_state h))
  · obtain ⟨st, later, plan⟩ := List.exists_cons_of_ne_nil plan
    exact settled_answer (q := ⟨0x30, [b]⟩) rfl takes ((begins ..).trans (State.startShaft_full plan rest one two))
  · obtain ⟨st, later, plan⟩ := List.exists_cons_of_ne_nil plan
    exact settled_answer (q := ⟨0x30, [b]⟩) rfl takes ((begins ..).trans (State.startShaft_short plan rest empty few))
  · let u := s.setPort (s.port.take ⟨0x30, [b]⟩)
    obtain ⟨frame, count, arrivals, own, armed, watches, otherShaft, untouched, opened, kept⟩ :=
      State.start_spec (s := u) (sh := sh) plan law enough
    obtain ⟨v, hv⟩ : ∃ v, v = u.start sh st := ⟨_, rfl⟩
    rw [← hv] at frame count arrivals own armed watches otherShaft untouched opened kept
    obtain ⟨w, a, ls, tb, f, sf, k, e⟩ := frame
    have port : v.port = s.port.take ⟨0x30, [b]⟩ := congrArg State.port e
    have act : u.startShaft sh = Reply.code v .ok := hv ▸ State.startShaft_starts plan rest empty enough
    have run : exec (.startShaft b) s = .next (s.settle (v.setPort (s.port.answered 0x30 .ok []))) :=
      congrArg Host.Outcome.next (settled_exec (q := ⟨0x30, [b]⟩) rfl takes ((begins ..).trans act) port)
    obtain ⟨p, p', shaft⟩ := own
    obtain ⟨hold, digest, settled⟩ := s.settle_frame (v.setPort (s.port.answered 0x30 .ok []))
    refine ⟨_, run, ?_⟩
    rw [settled]
    refine ⟨?_, count, arrivals, ?_, armed, watches, otherShaft, untouched, opened, kept⟩
    · rw [e]
      rfl
    · change v.shaft sh = { r with
        phase := .winding
        active := if r.spindle1 = .empty then .one else .two
        spindle1 := (v.shaft sh).spindle1
        spindle2 := (v.shaft sh).spindle2
        step := 1
        counter := st.count
        firstFree := true
        thresholds := some (thresholdsOf s.position.p st.target (s.settings.rho.get sh) (s.settings.job.get sh))
        reason := .none
        short := false
        retry := false
        retriesDue := 0
        records := false
        tension := st.baseTension
        cutReq := false }
      rw [shaft]
      rfl
  · exact settled_answer (q := ⟨0x31, [b]⟩) rfl takes ((begins ..).trans (State.stopShaft_state h))
  · exact settled_answer (q := ⟨0x31, [b]⟩) rfl takes ((begins ..).trans (State.stopShaft_moving winds latch runs))
  · let u := s.setPort (s.port.take ⟨0x31, [b]⟩)
    obtain ⟨frame, own, otherShaft, disarmed, watches, queued, lanes, reels⟩ := u.halt_spec sh
    obtain ⟨v, hv⟩ : ∃ v, v = u.halt sh := ⟨_, rfl⟩
    rw [← hv] at frame own otherShaft disarmed watches queued lanes reels
    obtain ⟨w, ls, tb, sf, en, e⟩ := frame
    have port : v.port = s.port.take ⟨0x31, [b]⟩ := congrArg State.port e
    have act : u.stopShaft sh = Reply.code v .ok := hv ▸ State.stopShaft_halts winds latch stands
    have run : exec (.stopShaft b) s = .next (s.settle (v.setPort (s.port.answered 0x31 .ok []))) :=
      congrArg Host.Outcome.next (settled_exec (q := ⟨0x31, [b]⟩) rfl takes ((begins ..).trans act) port)
    obtain ⟨p, p', shaft⟩ := own
    obtain ⟨hold, digest, settled⟩ := s.settle_frame (v.setPort (s.port.answered 0x31 .ok []))
    refine ⟨_, run, ?_⟩
    rw [settled]
    refine ⟨?_, otherShaft, ?_, disarmed, watches, queued, lanes, fun h => (reels h).trans ?_⟩
    · rw [e]
      rfl
    · change v.shaft sh = { r with
        phase := .idle
        spindle1 := (v.shaft sh).spindle1
        spindle2 := (v.shaft sh).spindle2
        step := 0
        counter := 0
        firstFree := false
        thresholds := none
        reason := .none
        short := false
        retry := false
        retriesDue := 0
        records := false
        tension := 0
        cutReq := false }
      rw [shaft]
      rfl
    · exact congrArg (Option.map · (s.reel h)) (funext fun q => q.close_stopped s.position.p)

end Sys2Proof.Machine
end

section
/-! PROOF. What commands do to P, the watches and the travel list: turns of the web, and the principle by which a law of these
alone is kept by every step. -/

namespace Sys2Proof.Machine

variable {L : Prop}

/-! ## Turns -/

/-- P, the watches, the arrivals, the latches and the stages with their free slots stand as they stood. -/
structure State.SameWeb (s t : State) : Prop where
  p : t.position.p = s.position.p
  watches : t.position.watches = s.position.watches
  arrivals : t.position.arrivals = s.position.arrivals
  latch : t.position.latch = s.position.latch
  free : t.travel.free = s.travel.free
  approach : t.travel.approach = s.travel.approach
  nip : t.travel.nip = s.travel.nip

theorem State.SameWeb.of_blocks {s t : State} (position : t.position = s.position) (travel : t.travel = s.travel) :
    s.SameWeb t := by
  constructor
  iterate 4 rw [position]
  iterate 3 rw [travel]

/-- One turn of the web, by the block that makes it. -/
inductive Turn : State → State → Prop
  | still {s t} (h : s.SameWeb t) : Turn s t
  | decode (s) (pair : Bool × Bool) : Turn s (s.decodePair pair)
  | stamp (s) (sh : Shaft) (absent : s.position.latch.get sh = none) :
      Turn s (s.setPosition { s.position with latch := s.position.latch.set sh (some s.position.p) })
  | taken {s t} (w : Watch) (a : Arrival) (own : w.free) (h : s.takeArrival w = some (a, t)) : Turn s t
  | arm (s) (w : Watch) (x : Nat) (own : w.free) : Turn s (s.arm w x)
  | disarm (s) (w : Watch) (own : w.free) : Turn s (s.disarm w)
  | newRun (s) (rest : s.atRest = true) : Turn s (s.setPosition s.position.newRun)
  | accept (s) (e : ApproachEntry) (free : 2 ≤ s.travel.free) : Turn s (s.acceptEntry e)
  | knife {s t} (a : Arrival) (h : s.takeArrival .knife = some (a, t)) : Turn s t.knifePass
  | nip {s t} (sh : Shaft) (a : Arrival) (h : s.takeArrival (.nip sh) = some (a, t)) : Turn s (t.releasePass sh)
  | cutReported (s) (sh : Shaft) : Turn s ((s.clearLatch sh).releasePass sh)

/-- Turns in a row. -/
abbrev Turns := Relation.ReflTransGen Turn

theorem Turn.of_blocks {s t : State} (position : t.position = s.position) (travel : t.travel = s.travel) : Turn s t :=
  .still (.of_blocks position travel)

theorem Act.turn {s t : State} (h : Act L s t) : Turn s t := by
  cases h with
  | quiet h => obtain ⟨⟨_, _, _, _, _, _, rfl⟩, _⟩ := h; exact .of_blocks rfl rfl
  | nEnc n lo hi => exact .still ⟨rfl, rfl, rfl, rfl, rfl, rfl, rfl⟩
  | sense d l e x b => exact .still ⟨rfl, rfl, rfl, rfl, rfl, rfl, rfl⟩
  | parent x k l => exact .still ⟨rfl, rfl, rfl, rfl, rfl, rfl, rfl⟩
  | decode pair => exact .decode s pair
  | stamp sh absent => exact .stamp s sh absent
  | taken w a own h => exact .taken w a own h
  | arm w x own => exact .arm s w x own
  | disarm w own => exact .disarm s w own
  | newRun rest => exact .newRun s rest
  | accept e free => exact .accept s e free
  | knife a h => exact .knife a h
  | nip sh a h => exact .nip sh a h
  | cutReported sh => exact .cutReported s sh
  | refer n on =>
    rw [s.setReference_map]
    generalize (s.setReference n).map = m
    exact .of_blocks rfl rfl
  | land h m => obtain ⟨_, _, _, e⟩ := s.land_frame h m; rw [e]; exact .of_blocks rfl rfl
  | unload sh sp assumed =>
    obtain ⟨_, e⟩ := s.doff_frame sh sp assumed
    obtain ⟨_, _, e'⟩ := (s.doff sh sp assumed).refreshSpindles_frame sh
    exact .of_blocks (by rw [e', e]) (by rw [e', e])
  | _ => exact .of_blocks rfl rfl

theorem State.endCurrent_web (s : State) (n : Lane) :
    (s.endCurrent n).position = s.position ∧ (s.endCurrent n).travel = s.travel := by
  unfold State.endCurrent
  split <;> exact ⟨rfl, rfl⟩

theorem Piece.turn {s t : State} (h : Piece L s t) : Turn s t := by
  cases h with
  | act h => exact h.turn
  | shaft sh r h => exact .of_blocks rfl rfl
  | close sh x short => obtain ⟨_, e⟩ := s.closeReels_frame sh x short; rw [e]; exact .of_blocks rfl rfl
  | opening n sh sp x pool flags on =>
    obtain ⟨h, st, p, q, _, _, _, _, e⟩ | e := s.openForLane_cases n sh sp x pool flags <;> rw [e] <;>
      exact .of_blocks rfl rfl
  | disable n => exact .of_blocks (s.endCurrent_web n).1 (s.endCurrent_web n).2
  | part sh => exact .of_blocks (State.mapLanes_position ..) (State.mapLanes_travel ..)

theorem Acts.turns {s t : State} (h : Acts L s t) : Turns s t := h.lift id fun _ _ => Act.turn
theorem Pieces.turns {s t : State} (h : Pieces L s t) : Turns s t := h.lift id fun _ _ => Piece.turn

theorem Turns.quiet {s t : State} (h : s.quietly t) : Turns s t := .single (Act.quiet h.loud).turn

theorem Effect.turns {s t : State} (h : Effect L s t) : Turns s t := by
  have around {u v w : State} (before : s.hushed L u) (h : Turns u v) (after : v.hushed L w) : Turns s w :=
    ((Turns.quiet before.1).trans h).trans (Turns.quiet after.1)
  cases h with
  | acts h => exact h.turns
  | cut sh c before _ winds after => exact around before (State.takeCut_pieces (L := L) winds c).turns after
  | start sh st later before plan _ _ after => exact around before (State.start_pieces (L := L) plan).turns after
  | halt sh before _ after => exact around before (State.halt_pieces (L := L) _ sh).turns after
  | enable n before off web apart after => exact around before (State.enableLane_pieces (L := L) off web apart).turns after
  | disable n before _ after => exact around before (.single (Piece.disable (L := L) _ n).turn) after
  | retire g r before _ _ after => exact around before (.single (.of_blocks (t := State.freeReel _ g r) rfl rfl)) after

/-- The completion of a load sets the sweep watch alone. -/
theorem State.completeLoad_turns (s : State) (image : Option Settings) : Turns s (s.completeLoad image) := by
  have last (t : State) : t.quietly (s.announce t.applyTravelMarks.applyMarkMarks) :=
    State.quietly_trans t.applyTravelMarks_quietly (State.quietly_trans (State.applyMarkMarks_quietly _)
      (State.announce_quietly ..))
  obtain ⟨d, raised⟩ := (s.putLoaded image).raiseIf_frame image.isNone .settingsDefaulted
  unfold State.completeLoad
  simp only [raised]
  have first : Turn s (State.firstReference { s.putLoaded image with digest := d } s.settings.nEnc) :=
    .still ⟨rfl, rfl, rfl, rfl, rfl, rfl, rfl⟩
  generalize State.firstReference { s.putLoaded image with digest := d } s.settings.nEnc = u at *
  exact ((Relation.ReflTransGen.single first).tail (State.armSweep_act (L := True) u _).turn).trans (Turns.quiet (last _))

/-- A law of the web that every turn keeps and the power-on values meet is kept by every step. -/
theorem stepKeeps_of_turns {law : State → Prop} (turn : ∀ {s t}, Turn s t → law s → law t)
    (start : ∀ {s : State}, s.position = .initial → s.travel = .initial → law s) : StepKeeps law := by
  have row {s t : State} (h : Turns s t) (holds : law s) : law t := by
    induction h with
    | refl => exact holds
    | tail _ h ih => exact turn h ih
  refine stepKeeps_of_course (fun s _ _ holds => turn (s := s) (.of_blocks rfl rfl) holds) fun {s t} course holds => ?_
  cases course with
  | effect h => exact row h.turns holds
  | powerUp => exact start rfl rfl
  | begins => exact turn (s := s) (.of_blocks rfl rfl) holds
  | load ack loads => exact row (s.completeLoad_turns _) holds

/-! ## The slots and the order of the stages (O6) -/

/-- What `SlotLaw` and `StageLaw` say of the stages and the free slots. -/
structure State.StagesSound (s : State) : Prop where
  slots : SlotLaw s
  stages : StageLaw s

theorem State.StagesSound.congr {s t : State} (law : s.StagesSound) (free : t.travel.free = s.travel.free)
    (approach : t.travel.approach = s.travel.approach) (nip : t.travel.nip = s.travel.nip) : t.StagesSound := by
  obtain ⟨slots, stages⟩ := law
  refine ⟨?_, ?_⟩
  · unfold SlotLaw at *
    rw [free, approach, nip]
    exact slots
  · unfold StageLaw at *
    rw [approach, nip]
    exact stages

theorem stagesSound_iff {s : State} : s.StagesSound ↔
    (2 * s.travel.approach.length + (s.travel.nip.get .a).length + (s.travel.nip.get .b).length + s.travel.free = 256) ∧
      s.travel.approach.Pairwise (fun d e => d.knife ≤ e.knife) ∧
      ∀ sh, (s.travel.nip.get sh).Pairwise fun d e => d.arrival ≤ e.arrival :=
  ⟨fun ⟨slots, stage, a, b⟩ => ⟨slots, stage, fun sh => by cases sh <;> assumption⟩,
    fun ⟨slots, stage, nips⟩ => ⟨slots, stage, nips .a, nips .b⟩⟩

theorem State.setNipWatch_travel (s : State) (sh : Shaft) : (s.setNipWatch sh).travel = s.travel := by
  obtain ⟨_, _, e⟩ := s.setNipWatch_frame sh
  rw [e]

theorem State.setKnifeWatch_travel (s : State) : s.setKnifeWatch.travel = s.travel := by
  obtain ⟨_, _, e⟩ := s.setKnifeWatch_frame
  rw [e]

theorem length_takeWhile_add_dropWhile {α : Type} (p : α → Bool) (l : List α) :
    (l.takeWhile p).length + (l.dropWhile p).length = l.length := by
  rw [← List.length_append, List.takeWhile_append_dropWhile]

/-- A release pass returns the slot of each entry it takes (R91, R92). -/
theorem State.StagesSound.releasePass {s : State} (law : s.StagesSound) (sh : Shaft) : (s.releasePass sh).StagesSound := by
  obtain ⟨⟨_, _, _, _, _, _, pass⟩, _⟩ := s.releasePass_spec sh
  rw [stagesSound_iff] at law ⊢
  obtain ⟨slots, stage, nips⟩ := law
  have count := length_takeWhile_add_dropWhile (s.releases sh) (s.travel.nip.get sh)
  have sorted (sh' : Shaft) : (((s.travel.nip.set sh ((s.travel.nip.get sh).dropWhile (s.releases sh))).get sh').Pairwise
      fun d e => d.arrival ≤ e.arrival) := by
    by_cases own : sh' = sh
    · subst own
      rw [Pair.get_set_self]
      exact (nips sh').sublist (List.dropWhile_sublist _)
    · rw [Pair.get_set, if_neg own]
      exact nips sh'
  rw [pass]
  refine ⟨?_, stage, sorted⟩
  cases sh <;> simp only [Pair.get, Pair.set, State.freed] at * <;> omega

theorem insertNip_sorted {e : NipEntry} {l : List NipEntry} (sorted : l.Pairwise fun d e => d.arrival ≤ e.arrival) :
    (insertNip e l).Pairwise fun d e => d.arrival ≤ e.arrival := by
  rw [insertNip_eq]
  exact insertBy_sorted sorted

theorem insertNips_sorted {l : List NipEntry} (es : List NipEntry)
    (sorted : l.Pairwise fun d e => d.arrival ≤ e.arrival) :
    (insertNips l es).Pairwise fun d e => d.arrival ≤ e.arrival := by
  induction es generalizing l with
  | nil => exact sorted
  | cons e es ih => exact ih (insertNip_sorted sorted)

/-- A knife pass gives each approach entry's two slots to its nip entries, or free again (R88 to R90). -/
theorem State.StagesSound.knifePass {s : State} (law : s.StagesSound) : s.knifePass.StagesSound := by
  obtain ⟨f, resolved, count⟩ := s.resolved_eq
  have sound : s.resolved.StagesSound := by
    obtain ⟨slots, stage, a, b⟩ := law
    have taken : s.takes.length + (s.travel.approach.dropWhile s.passes).length = s.travel.approach.length :=
      length_takeWhile_add_dropWhile ..
    unfold SlotLaw at slots
    rw [resolved]
    refine ⟨?_, stage.sublist (List.dropWhile_sublist _), insertNips_sorted _ a, insertNips_sorted _ b⟩
    show 2 * (s.travel.approach.dropWhile s.passes).length + (insertNips _ _).length + (insertNips _ _).length + f = 256
    rw [insertNips_length, insertNips_length]
    omega
  have gain {u : State} (sound : u.StagesSound) (sh : Shaft) (es : List NipEntry) : (u.gain sh es).StagesSound := by
    unfold State.gain
    split
    · exact sound
    · exact sound.releasePass sh
  rw [s.knifePass_eq]
  have travel := State.setKnifeWatch_travel ((s.resolved.gain .a (s.added .a)).gain .b (s.added .b))
  exact (gain (gain sound _ _) _ _).congr (by rw [travel]) (by rw [travel]) (by rw [travel])

/-- An accepted entry takes two slots (R85, R86). -/
theorem State.StagesSound.acceptEntry {s : State} (law : s.StagesSound) (e : ApproachEntry) (free : 2 ≤ s.travel.free) :
    (s.acceptEntry e).StagesSound := by
  have entered : (s.setTravel { s.travel with
      free := s.travel.free - 2, approach := insertApproach e s.travel.approach }).StagesSound := by
    obtain ⟨slots, stage, nips⟩ := law
    have longer : (insertApproach e s.travel.approach).length = s.travel.approach.length + 1 := by
      rw [insertApproach_eq]
      exact (insertBy_perm _).length_eq
    unfold SlotLaw at slots
    refine ⟨?_, ?_, nips⟩
    · show 2 * (insertApproach e s.travel.approach).length + s.travel.nip.a.length + s.travel.nip.b.length +
        (s.travel.free - 2) = 256
      omega
    · show (insertApproach e s.travel.approach).Pairwise _
      rw [insertApproach_eq]
      exact insertBy_sorted stage
  unfold State.acceptEntry
  simp only []
  split
  · exact entered.knifePass
  · have travel := State.setKnifeWatch_travel (s.setTravel { s.travel with
      free := s.travel.free - 2, approach := insertApproach e s.travel.approach })
    exact entered.congr (by rw [travel]) (by rw [travel]) (by rw [travel])

theorem State.takeArrival_travel {s t : State} {w : Watch} {a : Arrival} (h : s.takeArrival w = some (a, t)) :
    t.travel = s.travel := by
  obtain ⟨l, e⟩ := State.takeArrival_frame h
  rw [e]

theorem Turn.keeps_stages {s t : State} (h : Turn s t) (law : s.StagesSound) : t.StagesSound := by
  have same {u v : State} (law : u.StagesSound) (travel : v.travel = u.travel) : v.StagesSound :=
    law.congr (by rw [travel]) (by rw [travel]) (by rw [travel])
  cases h with
  | still h => exact law.congr h.free h.approach h.nip
  | decode pair => obtain ⟨_, _, e⟩ := s.decodePair_frame pair; exact same law (by rw [e])
  | stamp sh absent => exact same law rfl
  | taken w a own h => exact same law (State.takeArrival_travel h)
  | arm w x own => obtain ⟨_, _, e⟩ := s.arm_frame w x; exact same law (by rw [e])
  | disarm w own => exact same law rfl
  | newRun rest => exact same law rfl
  | accept e free => exact law.acceptEntry e free
  | knife a h => exact (same law (State.takeArrival_travel h)).knifePass
  | nip sh a h => exact (same law (State.takeArrival_travel h)).releasePass sh
  | cutReported sh => exact (same law rfl : (s.clearLatch sh).StagesSound).releasePass sh

/-- Settles O6: entries take and return their slots in the passes alone, and each is inserted at its place. -/
theorem travelListStaysSound : Obligations.TravelListStaysSound := by
  unfold Obligations.TravelListStaysSound
  have key : StepKeeps State.StagesSound := by
    refine stepKeeps_of_turns Turn.keeps_stages fun {s} _ travel => ?_
    rw [stagesSound_iff, travel]
    exact ⟨by decide, .nil, fun sh => by cases sh <;> exact .nil⟩
  intro s t law h
  obtain ⟨slots, stages⟩ := key s t ⟨law.1, law.2⟩ h
  exact ⟨slots, stages⟩

end Sys2Proof.Machine
end

section
/-! PROOF. The watches of the travel list and the armed watches beyond P, turn by turn of the web (O12). -/

namespace Sys2Proof.Machine

/-! ## Watches beyond P -/

theorem WatchLaw.congr {s t : State} (law : WatchLaw s) (p : t.position.p = s.position.p)
    (watches : t.position.watches = s.position.watches) : WatchLaw t := by
  unfold WatchLaw State.watch at *
  rw [p, watches]
  exact law

theorem WatchLaw.arm {s : State} (law : WatchLaw s) (w : Watch) (x : Nat) : WatchLaw (s.arm w x) := by
  intro v y armed
  obtain ⟨_, _, frame⟩ := s.arm_frame w x
  have p : (s.arm w x).position.p = s.position.p := by rw [frame]
  rw [p]
  by_cases own : v = w
  · rw [own, State.watch_arm] at armed
    split at armed
    · next ahead => cases armed; exact ahead
    · cases armed
  · rw [s.watch_arm_ne x own] at armed
    exact law v y armed

theorem WatchLaw.disarm {s : State} (law : WatchLaw s) (w : Watch) : WatchLaw (s.disarm w) := by
  intro v y armed
  by_cases own : v = w
  · rw [own, State.watch_disarm] at armed
    cases armed
  · rw [s.watch_disarm_ne own] at armed
    exact law v y armed

theorem WatchLaw.setKnifeWatch {s : State} (law : WatchLaw s) : WatchLaw s.setKnifeWatch := by
  unfold State.setKnifeWatch
  split
  · exact law.disarm _
  · exact law.arm _ _

theorem WatchLaw.setNipWatch {s : State} (law : WatchLaw s) (sh : Shaft) : WatchLaw (s.setNipWatch sh) := by
  unfold State.setNipWatch
  split
  · exact law.disarm _
  · split
    · exact law.disarm _
    · exact law.arm _ _

theorem WatchLaw.releasePass {s : State} (law : WatchLaw s) (sh : Shaft) : WatchLaw (s.releasePass sh) := by
  obtain ⟨_, _, _, _, _, _, frame⟩ := State.releaseEntries_frame sh (s.freed sh) (s.unstaged sh)
  rw [s.releasePass_eq]
  exact (law.congr (by rw [frame]; rfl) (by rw [frame]; rfl)).setNipWatch sh

theorem WatchLaw.knifePass {s : State} (law : WatchLaw s) : WatchLaw s.knifePass := by
  have gain {u : State} (law : WatchLaw u) (sh : Shaft) (es : List NipEntry) : WatchLaw (u.gain sh es) := by
    unfold State.gain
    split
    · exact law
    · exact law.releasePass sh
  obtain ⟨_, resolved, _⟩ := s.resolved_eq
  rw [s.knifePass_eq]
  exact (gain (gain (law.congr (by rw [resolved]) (by rw [resolved])) _ _) _ _).setKnifeWatch

theorem WatchLaw.acceptEntry {s : State} (law : WatchLaw s) (e : ApproachEntry) : WatchLaw (s.acceptEntry e) := by
  have entered : WatchLaw (s.setTravel { s.travel with
    free := s.travel.free - 2, approach := insertApproach e s.travel.approach }) := law
  unfold State.acceptEntry
  simp only []
  split
  · exact entered.knifePass
  · exact entered.setKnifeWatch

/-! ## Counts -/

/-- What a count does to the watches: P moves, and the watches it reaches are disarmed with their arrivals handed over
(R3, R4, R14). -/
structure State.Counted (s t : State) : Prop where
  travel : t.travel = s.travel
  latch : t.position.latch = s.position.latch
  arrivals : s.position.arrivals ⊆ t.position.arrivals
  watches : ∀ w, t.watch w = s.watch w ∨ t.watch w = none ∧ ∃ a ∈ t.position.arrivals, a.watch = w
  ahead : WatchLaw s → WatchLaw t

/-- Watches left as they are, with P not beyond its former place. -/
theorem State.Counted.still {s t : State} (travel : t.travel = s.travel) (latch : t.position.latch = s.position.latch)
    (arrivals : t.position.arrivals = s.position.arrivals) (watches : t.position.watches = s.position.watches)
    (back : t.position.p ≤ s.position.p) : s.Counted t := by
  have same (w : Watch) : t.watch w = s.watch w := congrArg (fun u : WatchTable => u.get w) watches
  exact ⟨travel, latch, arrivals ▸ List.Subset.refl _, fun w => .inl (same w),
    fun law w x armed => Nat.lt_of_le_of_lt back (law w x ((same w).symm.trans armed))⟩

/-- A watch behind the reports is as it was, or disarmed with its arrival handed over (R14). -/
theorem State.reportAll_watch (s : State) (w : Watch) : s.reportAll.watch w = s.watch w ∨
    s.reportAll.watch w = none ∧ ∃ a ∈ s.reportAll.position.arrivals, a.watch = w := by
  obtain ⟨arrivals, watches⟩ := s.reportAll_spec
  rw [watches, arrivals]
  cases armed : s.watch w with
  | none => exact .inl rfl
  | some x =>
    by_cases ahead : s.position.p < x
    · exact .inl (by simp [ahead])
    · refine .inr ⟨by simpa using ahead, ⟨w, x, s.position.p⟩, List.mem_append_right _ ?_, rfl⟩
      exact List.mem_filterMap.mpr ⟨w, mem_allWatches w, by simp [armed, handedOver, Nat.le_of_not_lt ahead]⟩

theorem State.reportAll_ahead (s : State) : WatchLaw s.reportAll := by
  intro w x armed
  obtain ⟨_, _, frame⟩ := s.reportAll_frame
  rw [s.reportAll_spec.2 w] at armed
  obtain ⟨_, ahead⟩ := Option.filter_eq_some_iff.mp armed
  rw [frame]
  exact of_decide_eq_true ahead

/-- Watches reported behind a count. -/
theorem State.Counted.reported {s u : State} (travel : u.travel = s.travel) (latch : u.position.latch = s.position.latch)
    (arrivals : u.position.arrivals = s.position.arrivals) (watches : u.position.watches = s.position.watches) :
    s.Counted u.reportAll := by
  obtain ⟨_, _, frame⟩ := u.reportAll_frame
  refine ⟨by rw [frame]; exact travel, by rw [frame]; exact latch, ?_, fun w => ?_, fun _ => u.reportAll_ahead⟩
  · rw [u.reportAll_spec.1, arrivals]
    exact List.subset_append_left _ _
  · rw [show s.watch w = u.watch w from congrArg (fun v : WatchTable => v.get w) watches.symm]
    exact u.reportAll_watch w

theorem State.forwardCount_counted (s : State) : s.Counted s.forwardCount := by
  let c := countUp s.settings.nEnc s.position.p s.position.r
  let v := (s.setPosition { s.position with p := c.1, r := c.2.1 }).moved .forward
  obtain ⟨u, travel, position, count⟩ : ∃ u : State, u.travel = s.travel ∧ (∃ f, u.position = { v.position with fault := f }) ∧
      s.forwardCount = if s.position.p < c.1 then u.reportAll else u := by
    refine ⟨_, ?_, ?_, rfl⟩
    · show (if c.2.2 then v.positionLimit else v).travel = _
      obtain ⟨_, _, limit⟩ := v.positionLimit_frame
      split
      · rw [limit]; rfl
      · rfl
    · show ∃ f, (if c.2.2 then v.positionLimit else v).position = _
      split
      · exact ⟨true, v.positionLimit_web⟩
      · exact ⟨v.position.fault, rfl⟩
  obtain ⟨f, position⟩ := position
  rw [count]
  split
  · exact .reported travel (by rw [position]; rfl) (by rw [position]; rfl) (by rw [position]; rfl)
  · next still =>
    exact .still travel (by rw [position]; rfl) (by rw [position]; rfl) (by rw [position]; rfl)
      (by rw [position]; exact Nat.le_of_not_lt still)

theorem countDown_le (n p r : Nat) : (countDown n p r).1 ≤ p := by
  unfold countDown
  simp only []
  split
  · exact Nat.le_refl p
  · split
    · exact Nat.sub_le ..
    · exact Nat.zero_le p

theorem State.decodePair_counted (s : State) (pair : Bool × Bool) : s.Counted (s.decodePair pair) := by
  let u := s.setPosition { s.position with reference := pair }
  unfold State.decodePair
  simp only []
  split
  · obtain ⟨travel, latch, arrivals, watches, ahead⟩ := u.forwardCount_counted
    exact ⟨travel, latch, arrivals, watches, ahead⟩
  · split
    · exact .still rfl rfl rfl rfl (countDown_le ..)
    · exact .still rfl rfl rfl rfl (Nat.le_refl _)

theorem WatchTable.initial_get (w : Watch) : WatchTable.initial.get w = none := by
  rcases w with _ | sh | ⟨sh, k⟩ | _
  · rfl
  · cases sh <;> rfl
  · cases sh <;> cases k <;> rfl
  · rfl

theorem Turn.keeps_watches {s t : State} (h : Turn s t) (law : WatchLaw s) : WatchLaw t := by
  have taken {t : State} {w : Watch} {a : Arrival} (h : s.takeArrival w = some (a, t)) : WatchLaw t := by
    obtain ⟨_, e⟩ := State.takeArrival_frame h
    exact law.congr (by rw [e]) (by rw [e])
  cases h with
  | still h => exact law.congr h.p h.watches
  | decode pair => exact (s.decodePair_counted pair).ahead law
  | stamp sh absent => exact law.congr rfl rfl
  | taken w a own h => exact taken h
  | arm w x own => exact law.arm w x
  | disarm w own => exact law.disarm w
  | newRun rest =>
    intro w x armed
    cases (WatchTable.initial_get w).symm.trans armed
  | accept e free => exact law.acceptEntry e
  | knife a h => exact (taken h).knifePass
  | nip sh a h => exact (taken h).releasePass sh
  | cutReported sh => exact (law.congr rfl rfl : WatchLaw (s.clearLatch sh)).releasePass sh

/-! ## The watches of the stages -/

/-- A watch stands where it should: at the first position of its stage, or disarmed with that position held or its arrival
waiting (R12, R82). -/
def State.stands (s : State) (w : Watch) (held : Nat → Bool) : Option Nat → Prop
  | none => s.watch w = none
  | some x => s.watch w = some x ∨ s.watch w = none ∧ (held x = true ∨ ∃ a ∈ s.position.arrivals, a.watch = w)

/-- The knife watch stands at the first entry of the approach stage. -/
def State.knifeStands (s : State) : Prop :=
  s.stands .knife (fun _ => false) (s.travel.approach.head?.map ApproachEntry.knife)

/-- A nip watch stands at the first entry of its stage. -/
def State.nipStands (s : State) (sh : Shaft) : Prop :=
  s.stands (.nip sh) (s.held sh) ((s.travel.nip.get sh).head?.map NipEntry.arrival)

theorem stageWatchLaw_iff {s : State} : StageWatchLaw s ↔ s.knifeStands ∧ ∀ sh, s.nipStands sh := by
  refine and_congr ?_ (forall_congr' fun sh => ?_)
  · unfold State.knifeStands
    cases s.travel.approach with
    | nil => rfl
    | cons e l => simp [State.stands]
  · unfold State.nipStands
    cases s.travel.nip.get sh with
    | nil => rfl
    | cons e l => rfl

/-- A watch that stands still stands where it is kept or disarmed with its arrival handed over. -/
theorem State.stands.mono {s t : State} {w : Watch} {held held' : Nat → Bool} {first : Option Nat}
    (h : s.stands w held first) (watch : t.watch w = s.watch w ∨ t.watch w = none ∧ ∃ a ∈ t.position.arrivals, a.watch = w)
    (keeps : ∀ x, held x = true → held' x = true)
    (waits : (∃ a ∈ s.position.arrivals, a.watch = w) → ∃ a ∈ t.position.arrivals, a.watch = w) :
    t.stands w held' first := by
  cases first with
  | none =>
    obtain same | ⟨off, _⟩ := watch
    · exact same.trans h
    · exact off
  | some x =>
    obtain same | ⟨off, waiting⟩ := watch
    · obtain on | ⟨off, held | waiting⟩ := h
      · exact .inl (same.trans on)
      · exact .inr ⟨same.trans off, .inl (keeps x held)⟩
      · exact .inr ⟨same.trans off, .inr (waits waiting)⟩
    · exact .inr ⟨off, .inr waiting⟩

theorem State.stands_of_armedAt {s : State} {w : Watch} {x : Nat} (held : Nat → Bool) (h : s.armedAt w x) :
    s.stands w held (some x) := by
  unfold State.armedAt at h
  split at h
  · exact .inl h
  · exact .inr ⟨h.1, .inr ⟨_, h.2, rfl⟩⟩

theorem State.knifeStands_of_set {s : State} (h : s.knifeWatchSet) : s.knifeStands := by
  unfold State.knifeWatchSet at h
  unfold State.knifeStands
  cases stage : s.travel.approach with
  | nil => rw [stage] at h; exact h
  | cons e l => rw [stage] at h; exact State.stands_of_armedAt _ h

theorem State.nipStands_of_set {s : State} {sh : Shaft} (h : s.nipWatchSet sh) : s.nipStands sh := by
  unfold State.nipWatchSet at h
  unfold State.nipStands
  cases stage : s.travel.nip.get sh with
  | nil => rw [stage] at h; exact h
  | cons e l =>
    rw [stage] at h
    simp only [] at h
    split at h
    · next held => exact .inr ⟨h, .inl held⟩
    · exact State.stands_of_armedAt _ h

/-- Watches and stages of the travel list untouched, with no arrival of the watch lost. -/
structure State.StageKept (s t : State) (w : Watch) : Prop where
  watch : t.watch w = s.watch w ∨ t.watch w = none ∧ ∃ a ∈ t.position.arrivals, a.watch = w
  waits : (∃ a ∈ s.position.arrivals, a.watch = w) → ∃ a ∈ t.position.arrivals, a.watch = w

theorem State.knifeStands.kept {s t : State} (h : s.knifeStands) (kept : s.StageKept t .knife)
    (approach : t.travel.approach = s.travel.approach) : t.knifeStands := by
  unfold State.knifeStands at *
  rw [approach]
  exact h.mono kept.watch (fun _ => id) kept.waits

theorem State.nipStands.kept {s t : State} {sh : Shaft} (h : s.nipStands sh) (kept : s.StageKept t (.nip sh))
    (nip : t.travel.nip.get sh = s.travel.nip.get sh) (held : ∀ x, s.held sh x = true → t.held sh x = true) :
    t.nipStands sh := by
  unfold State.nipStands at *
  rw [nip]
  exact h.mono kept.watch held kept.waits

theorem State.held_congr {s t : State} {sh : Shaft} (latch : t.position.latch.get sh = s.position.latch.get sh) (x : Nat) :
    t.held sh x = s.held sh x := by
  unfold State.held
  rw [latch]

/-- The stages, the latches, and the watches of the stages untouched. -/
theorem stageWatchLaw_kept {s t : State} (law : s.knifeStands ∧ ∀ sh, s.nipStands sh)
    (approach : t.travel.approach = s.travel.approach) (nip : t.travel.nip = s.travel.nip)
    (latch : t.position.latch = s.position.latch) (kept : ∀ w, ¬ w.free → s.StageKept t w) :
    t.knifeStands ∧ ∀ sh, t.nipStands sh :=
  ⟨law.1.kept (kept .knife id) approach, fun sh => (law.2 sh).kept (kept (.nip sh) id) (by rw [nip]) fun x h =>
    (State.held_congr (by rw [latch]) x).trans h⟩

theorem State.StageKept.same {s t : State} (watches : t.position.watches = s.position.watches)
    (arrivals : t.position.arrivals = s.position.arrivals) (w : Watch) : s.StageKept t w :=
  ⟨.inl (congrArg (fun u : WatchTable => u.get w) watches), fun h => by rw [arrivals]; exact h⟩

/-! ## Passes -/

/-- A pass on a shaft leaves the watches of the other stages. -/
theorem State.releasePass_kept (s : State) {sh : Shaft} {w : Watch} (other : w ≠ .nip sh) :
    s.StageKept (s.releasePass sh) w := by
  obtain ⟨⟨_, _, _, _, _, _, pass⟩, _, rest⟩ := s.releasePass_spec sh
  exact ⟨.inl (rest w other), fun h => by rw [pass]; exact h⟩

theorem State.releasePass_knifeStands {s : State} (h : s.knifeStands) (sh : Shaft) : (s.releasePass sh).knifeStands := by
  obtain ⟨⟨_, _, _, _, _, _, pass⟩, _⟩ := s.releasePass_spec sh
  exact h.kept (s.releasePass_kept nofun) (by rw [pass])

/-- A pass on a shaft sets its nip watch, and leaves that of the other shaft to its stage. -/
theorem State.releasePass_nipStands {s : State} {sh sh' : Shaft} (h : sh' ≠ sh → s.nipStands sh') :
    (s.releasePass sh).nipStands sh' := by
  obtain ⟨⟨_, _, _, _, _, _, pass⟩, set, _⟩ := s.releasePass_spec sh
  by_cases own : sh' = sh
  · rw [own]
    exact State.nipStands_of_set set
  · refine (h own).kept (s.releasePass_kept fun e => own (Watch.nip.inj e)) ?_ fun x held => ?_
    · rw [pass]
      exact (Pair.get_set ..).trans (if_neg own)
    · exact (State.held_congr (by rw [pass]) x).trans held

theorem State.gain_nipStands {s : State} {sh sh' : Shaft} {es : List NipEntry} (h : (sh' = sh → es = []) → s.nipStands sh') :
    (s.gain sh es).nipStands sh' := by
  unfold State.gain
  split
  · next empty => exact h fun _ => List.isEmpty_iff.mp empty
  · exact State.releasePass_nipStands fun other => h fun own => absurd own other

theorem State.setKnifeWatch_waits (s : State) {w : Watch} (h : ∃ a ∈ s.position.arrivals, a.watch = w) :
    ∃ a ∈ s.setKnifeWatch.position.arrivals, a.watch = w := by
  obtain ⟨a, mem, own⟩ := h
  exact ⟨a, s.setKnifeWatch_arrivals.subset mem, own⟩

/-- Setting the knife watch leaves the nip watches to their stages. -/
theorem State.setKnifeWatch_nipStands {s : State} {sh : Shaft} (h : s.nipStands sh) : s.setKnifeWatch.nipStands sh := by
  obtain ⟨_, _, e⟩ := s.setKnifeWatch_frame
  exact h.kept ⟨.inl (s.setKnifeWatch_watch_ne nofun), s.setKnifeWatch_waits⟩ (by rw [e]) fun x held =>
    (State.held_congr (by rw [e]) x).trans held

/-- A knife pass sets the knife watch and the nip watch of each shaft that gains an entry, and leaves the others. -/
theorem State.knifePass_stands {s : State} (nips : ∀ sh, s.nipStands sh) :
    s.knifePass.knifeStands ∧ ∀ sh, s.knifePass.nipStands sh := by
  obtain ⟨f, resolved, _⟩ := s.resolved_eq
  refine ⟨State.knifeStands_of_set s.knifePass_spec.2.1, fun sh => ?_⟩
  rw [s.knifePass_eq]
  refine State.setKnifeWatch_nipStands (State.gain_nipStands fun second => State.gain_nipStands fun first => ?_)
  have none : s.added sh = [] := by
    cases sh
    · exact first rfl
    · exact second rfl
  refine (nips sh).kept ⟨.inl (by rw [resolved]; rfl), fun h => by rw [resolved]; exact h⟩ ?_ fun x held => ?_
  · have stage : s.resolved.travel.nip.get sh = insertNips (s.travel.nip.get sh) (s.added sh) := by
      rw [resolved]
      cases sh <;> rfl
    rw [stage, none]
    rfl
  · exact (State.held_congr (by rw [resolved]) x).trans held

theorem State.acceptEntry_stands {s : State} (e : ApproachEntry) (nips : ∀ sh, s.nipStands sh) :
    (s.acceptEntry e).knifeStands ∧ ∀ sh, (s.acceptEntry e).nipStands sh := by
  let u := s.setTravel { s.travel with free := s.travel.free - 2, approach := insertApproach e s.travel.approach }
  have nips : ∀ sh, u.nipStands sh := nips
  unfold State.acceptEntry
  simp only []
  split
  · exact State.knifePass_stands nips
  · exact ⟨State.knifeStands_of_set (State.setKnifeWatch_set u), fun sh => State.setKnifeWatch_nipStands (nips sh)⟩

/-! ## Arrivals taken -/

/-- An arrival taken leaves those of the other watches waiting. -/
theorem State.takeArrival_kept {s t : State} {v w : Watch} {a : Arrival} (h : s.takeArrival v = some (a, t)) (other : w ≠ v) :
    s.StageKept t w := by
  obtain ⟨absent, _⟩ | ⟨b, _, taken⟩ := s.takeArrival_cases v
  · cases absent.symm.trans h
  · cases taken.symm.trans h
    refine ⟨.inl rfl, fun ⟨a, mem, own⟩ => ⟨a, ?_, own⟩⟩
    exact (List.mem_eraseP_of_neg (by simpa [own] using other)).mpr mem

/-- Where every watch but one stands, the stages of the others do so behind an arrival of that one. -/
theorem State.takeArrival_stands {s t : State} {v : Watch} {a : Arrival} (h : s.takeArrival v = some (a, t))
    (law : s.knifeStands ∧ ∀ sh, s.nipStands sh) :
    (v ≠ .knife → t.knifeStands) ∧ ∀ sh, v ≠ .nip sh → t.nipStands sh := by
  obtain ⟨_, e⟩ := State.takeArrival_frame h
  refine ⟨fun other => law.1.kept (State.takeArrival_kept h other.symm) (by rw [e]), fun sh other => ?_⟩
  exact (law.2 sh).kept (State.takeArrival_kept h other.symm) (by rw [e]) fun x held =>
    (State.held_congr (by rw [e]) x).trans held

/-! ## Turns -/

theorem State.arm_kept (s : State) {v w : Watch} (x : Nat) (other : w ≠ v) : s.StageKept (s.arm v x) w := by
  refine ⟨.inl (s.watch_arm_ne x other), fun ⟨a, mem, own⟩ => ⟨a, ?_, own⟩⟩
  rw [State.arrivals_arm]
  split
  · exact mem
  · exact List.mem_append_left _ mem

theorem Watch.free.ne {v w : Watch} (own : v.free) (stage : ¬ w.free) : w ≠ v := fun e => stage (e ▸ own)

theorem State.atRest_travel {s : State} (rest : s.atRest = true) :
    s.travel.approach = [] ∧ ∀ sh, s.travel.nip.get sh = [] := by
  simp only [State.atRest, TravelList.isEmpty, Bool.and_eq_true, List.isEmpty_iff] at rest
  obtain ⟨_, ⟨approach, a⟩, b⟩ := rest
  exact ⟨approach, fun sh => by cases sh <;> assumption⟩

theorem Turn.keeps_stands {s t : State} (h : Turn s t) (law : s.knifeStands ∧ ∀ sh, s.nipStands sh) :
    t.knifeStands ∧ ∀ sh, t.nipStands sh := by
  cases h with
  | still h =>
    exact stageWatchLaw_kept law h.approach h.nip h.latch fun w _ => .same h.watches h.arrivals w
  | decode pair =>
    obtain ⟨travel, latch, arrivals, watches, _⟩ := s.decodePair_counted pair
    exact stageWatchLaw_kept law (by rw [travel]) (by rw [travel]) latch fun w _ =>
      ⟨watches w, fun ⟨a, mem, own⟩ => ⟨a, arrivals mem, own⟩⟩
  | stamp sh absent =>
    let t := s.setPosition { s.position with latch := s.position.latch.set sh (some s.position.p) }
    have kept (w : Watch) : s.StageKept t w := .same (s := s) (t := t) rfl rfl w
    refine ⟨law.1.kept (kept _) rfl, fun sh' => (law.2 sh').kept (kept _) rfl fun x held => ?_⟩
    unfold State.held at *
    rw [State.setPosition_position, Pair.get_set]
    split
    · next own => rw [own, absent] at held; cases held
    · exact held
  | taken w a own h =>
    obtain ⟨knife, nips⟩ := State.takeArrival_stands h law
    exact ⟨knife (own.ne id).symm, fun sh => nips sh (own.ne id).symm⟩
  | arm w x own =>
    obtain ⟨_, _, e⟩ := s.arm_frame w x
    exact stageWatchLaw_kept law (by rw [e]) (by rw [e]) (by rw [e]) fun v stage => s.arm_kept x (own.ne stage)
  | disarm w own =>
    exact stageWatchLaw_kept law rfl rfl rfl fun v stage => ⟨.inl (s.watch_disarm_ne (own.ne stage)), id⟩
  | newRun rest =>
    obtain ⟨approach, nips⟩ := State.atRest_travel rest
    refine ⟨?_, fun sh => ?_⟩
    · unfold State.knifeStands
      rw [State.setPosition_travel, approach]
      rfl
    · unfold State.nipStands
      rw [State.setPosition_travel, nips]
      cases sh <;> rfl
  | accept e free => exact State.acceptEntry_stands e law.2
  | knife a h => exact State.knifePass_stands fun sh => (State.takeArrival_stands h law).2 sh nofun
  | nip sh a h =>
    obtain ⟨knife, nips⟩ := State.takeArrival_stands h law
    exact ⟨State.releasePass_knifeStands (knife nofun) sh, fun sh' => State.releasePass_nipStands fun other =>
      nips sh' fun e => other (Watch.nip.inj e).symm⟩
  | cutReported sh =>
    have kept (w : Watch) : s.StageKept (s.clearLatch sh) w := .same (s := s) (t := s.clearLatch sh) rfl rfl w
    refine ⟨State.releasePass_knifeStands (law.1.kept (kept _) rfl : (s.clearLatch sh).knifeStands) sh,
      fun sh' => State.releasePass_nipStands fun other => (law.2 sh').kept (kept _) rfl fun x held => ?_⟩
    exact (State.held_congr ((Pair.get_set ..).trans (if_neg other)) x).trans held

/-- Settles O12: counts report what they reach, and every pass sets the watch of the stage it has changed. -/
theorem armedWatchesLieAhead : Obligations.ArmedWatchesLieAhead := by
  unfold Obligations.ArmedWatchesLieAhead
  refine ⟨stepKeeps_of_turns Turn.keeps_watches fun {s} position _ => ?_, ?_⟩
  · intro w x armed
    rw [State.watch, position] at armed
    cases (WatchTable.initial_get w).symm.trans armed
  · have key : StepKeeps fun s => s.knifeStands ∧ ∀ sh, s.nipStands sh := by
      refine stepKeeps_of_turns Turn.keeps_stands fun {s} position travel => ⟨?_, fun sh => ?_⟩
      · unfold State.knifeStands
        rw [travel]
        show (s.position.watches.get .knife) = none
        rw [position]
        rfl
      · have stage : s.travel.nip.get sh = [] := by rw [travel]; cases sh <;> rfl
        unfold State.nipStands
        rw [stage]
        show (s.position.watches.get (.nip sh)) = none
        rw [position]
        cases sh <;> rfl
    intro s t law h
    rw [stageWatchLaw_iff] at law ⊢
    exact key s t law h

end Sys2Proof.Machine
end

section
/-! PROOF. The laws of the reels, act by act: what an act leaves of every record in use, and the tracking laws with some lanes
set aside, which the parts of a cut and of a start keep (O9, O16, O18). -/

namespace Sys2Proof.Machine

variable {L : Prop}

/-! ## Records as acts leave them -/

/-- A record as acts leave it that open, end and close none: its opening and its end stand, its history only grows, and it
is DOFFED at most. -/
structure Reel.Goes (r q : Reel) : Prop where
  same : q = { r with
    state := q.state, diameter := q.diameter, parents := q.parents, tallies := q.tallies, computed := q.computed,
    override := q.override, chain := q.chain, dropped := q.dropped, revision := q.revision, flags := q.flags }
  state : q.state = r.state ∨ r.state = .doffing ∧ q.state = .doffed
  flags : r.flags.under q.flags
  tallies : r.tallies.upTo q.tallies
  dropped : r.dropped ≤ q.dropped
  chain : r.chain.Sublist q.chain
  parents : r.parents.Sublist q.parents
  computed : r.computed.rank ≤ q.computed.rank

theorem Reel.Goes.refl (r : Reel) : r.Goes r :=
  ⟨rfl, .inl rfl, r.flags.under_refl, r.tallies.upTo_refl, le_rfl, .refl _, .refl _, le_rfl⟩

theorem Reel.Goes.trans {r q p : Reel} (h : r.Goes q) (k : q.Goes p) : r.Goes p where
  same := by rw [k.same, h.same]
  state := by
    obtain a | ⟨a, b⟩ := h.state
    · rw [← a]; exact k.state
    · obtain c | ⟨c, _⟩ := k.state
      · exact .inr ⟨a, c.trans b⟩
      · exact absurd (b.symm.trans c) nofun
  flags := ReelFlags.under_trans h.flags k.flags
  tallies := Tallies.upTo_trans h.tallies k.tallies
  dropped := h.dropped.trans k.dropped
  chain := h.chain.trans k.chain
  parents := h.parents.trans k.parents
  computed := h.computed.trans k.computed

theorem Reel.Kept.goes {r q : Reel} (h : r.Kept q) : r.Goes q := by
  obtain ⟨_, _, _, _, rfl, flags⟩ := h
  exact ⟨rfl, .inl rfl, flags, r.tallies.upTo_refl, le_rfl, .refl _, .refl _, le_rfl⟩

theorem Reel.Struck.goes {r q : Reel} (h : r.Struck q) : r.Goes q where
  same := by rw [h.same]
  state := .inl (by rw [h.same])
  flags := h.flags
  tallies := h.tallies
  dropped := h.dropped
  chain := h.chain
  parents := h.parents
  computed := h.computed

/-- A record unloaded (R47). -/
theorem Reel.unload_goes {r : Reel} (doffing : r.state = .doffing) (assumed : Bool) :
    r.Goes ({ r with state := .doffed, flags := { r.flags with
      unloadAssumed := r.flags.unloadAssumed || assumed } }.bump) := by
  refine ⟨rfl, .inr ⟨doffing, rfl⟩, ?_, r.tallies.upTo_refl, le_rfl, .refl _, .refl _, le_rfl⟩
  show r.flags.under { r.flags with unloadAssumed := r.flags.unloadAssumed || assumed }
  unfold ReelFlags.under
  simp +contextual

/-- A record as a command leaves it: its opening stands, as does its end, it moves along the table of section 3.2, and its
history only grows. -/
structure Reel.Advances (r q : Reel) : Prop where
  same : q = { r with
    state := q.state, stopAt := q.stopAt, footage := q.footage, diameter := q.diameter, parents := q.parents,
    tallies := q.tallies, computed := q.computed, override := q.override, chain := q.chain, dropped := q.dropped,
    revision := q.revision, flags := q.flags }
  state : q.state = r.state ∨ (r.state = .winding ∧ q.state = .ended) ∨ (r.state = .winding ∧ q.state = .doffing) ∨
    (r.state = .ended ∧ q.state = .doffing) ∨ (r.state = .doffing ∧ q.state = .doffed)
  ended : ∀ e ∈ r.stopAt, q.stopAt = some e ∧ q.footage = r.footage
  flags : r.flags.under q.flags
  tallies : r.tallies.upTo q.tallies
  dropped : r.dropped ≤ q.dropped
  chain : r.chain.Sublist q.chain
  parents : r.parents.Sublist q.parents
  computed : r.computed.rank ≤ q.computed.rank

theorem Reel.Goes.stopAt {r q : Reel} (h : r.Goes q) : q.stopAt = r.stopAt := by rw [h.same]

theorem Reel.Goes.advances {r q : Reel} (h : r.Goes q) : r.Advances q where
  same := by rw [h.same]
  state := h.state.imp_right fun h => .inr (.inr (.inr h))
  ended := fun e stop => ⟨h.stopAt.trans stop, by rw [h.same]⟩
  flags := h.flags
  tallies := h.tallies
  dropped := h.dropped
  chain := h.chain
  parents := h.parents
  computed := h.computed

/-- Every record in use stays in use and goes on, and no FREE record is filled. -/
def State.goesOn (s t : State) : Prop := ∀ h, Option.Rel Reel.Goes (s.reel h) (t.reel h)

theorem Option.rel_refl {α : Type} {R : α → α → Prop} (refl : ∀ a, R a a) (x : Option α) : Option.Rel R x x := by
  cases x with
  | none => exact .none
  | some a => exact .some (refl a)

theorem Option.rel_trans {α : Type} {R : α → α → Prop} (trans : ∀ {a b c}, R a b → R b c → R a c) {x y z : Option α}
    (h : Option.Rel R x y) (k : Option.Rel R y z) : Option.Rel R x z := by
  cases h with
  | none => cases k; exact .none
  | some h => cases k with | some k => exact .some (trans h k)

theorem State.goesOn.of_reels {s t : State} (h : ∀ g, t.reel g = s.reel g) : s.goesOn t := fun g => by
  rw [h]
  exact Option.rel_refl Reel.Goes.refl _

theorem State.goesOn.of_table {s t : State} (h : t.table = s.table) : s.goesOn t := .of_reels (State.reel_of_table h)

theorem State.goesOn.trans {s t u : State} (h : s.goesOn t) (k : t.goesOn u) : s.goesOn u :=
  fun g => Option.rel_trans (R := Reel.Goes) (fun h k => h.trans k) (h g) (k g)

theorem State.struck.goesOn {s t : State} (h : s.struck t) : s.goesOn t := fun g => Option.rel_imp Reel.Struck.goes (h g)

theorem State.goesOn.there {s t : State} (h : s.goesOn t) {g : Handle} {r : Reel} (there : s.reel g = some r) :
    ∃ q, t.reel g = some q ∧ r.Goes q := by
  have at' := h g
  rw [there] at at'
  cases found : t.reel g with
  | none => rw [found] at at'; cases at'
  | some q => rw [found] at at'; cases at' with | some one => exact ⟨q, rfl, one⟩

theorem State.goesOn.back {s t : State} (h : s.goesOn t) {g : Handle} {q : Reel} (there : t.reel g = some q) :
    ∃ r, s.reel g = some r ∧ r.Goes q := by
  have at' := h g
  rw [there] at at'
  cases found : s.reel g with
  | none => rw [found] at at'; cases at'
  | some r => rw [found] at at'; cases at' with | some one => exact ⟨r, rfl, one⟩

theorem State.doff_goesOn (s : State) (sh : Shaft) (sp : Spindle) (assumed : Bool) : s.goesOn (s.doff sh sp assumed) := fun g => by
  rw [s.doff_reel]
  cases s.reel g with
  | none => exact .none
  | some r =>
    refine .some ?_
    show r.Goes (if _ then _ else r)
    split
    · next on => exact Reel.unload_goes on.2.2 assumed
    · exact .refl r

/-- What an act leaves of the records. -/
theorem Act.goesOn {s t : State} (h : Act L s t) : s.goesOn t := by
  cases h with
  | quiet h => obtain ⟨⟨_, _, _, _, _, _, rfl⟩, _⟩ := h; exact .of_table rfl
  | decode pair => obtain ⟨_, _, e⟩ := s.decodePair_frame pair; exact .of_table (by rw [e])
  | taken w a own h => exact (State.takeArrival_falls h).struck.goesOn
  | arm w x own => obtain ⟨_, _, e⟩ := s.arm_frame w x; exact .of_table (by rw [e])
  | refer n on =>
    rw [s.setReference_map]
    generalize (s.setReference n).map = m
    exact .of_table rfl
  | records v kept => exact fun g => Option.rel_imp Reel.Kept.goes (kept g)
  | land h m => exact (State.struck.land s h m).goesOn
  | unload sh sp assumed =>
    obtain ⟨_, _, e⟩ := (s.doff sh sp assumed).refreshSpindles_frame sh
    exact (s.doff_goesOn sh sp assumed).trans (.of_table (by rw [e]))
  | reserve sh n _ => exact .of_reels fun _ => rfl
  | release sh n _ => exact .of_reels fun _ => rfl
  | accept e _ => exact (s.acceptEntry_falls e).struck.goesOn
  | knife a h => exact (Falls.struck ((State.takeArrival_falls h).trans (State.knifePass_falls _))).goesOn
  | nip sh a h => exact (Falls.struck ((State.takeArrival_falls h).trans (State.releasePass_falls _ sh))).goesOn
  | cutReported sh => exact (Falls.struck (.head (s.clearLatch_fall sh) (State.releasePass_falls _ sh))).goesOn
  | _ => exact .of_table rfl

theorem Acts.goesOn {s t : State} (h : Acts L s t) : s.goesOn t := by
  induction h with
  | refl => exact .of_table rfl
  | tail _ act ih => exact ih.trans act.goesOn

/-! ## The tracking laws -/

/-- The tracking laws with the lanes of D set aside, which hold no WINDING reel. -/
structure State.Tracks (s : State) (D : Lane → Prop) : Prop where
  current : ∀ n, ¬ D n → ∀ h ∈ (s.lane n).current, ∃ r, s.reel h = some r ∧ r.state = .winding ∧ r.lane = n
  winding : ∀ h, ∀ r ∈ s.reel h, r.state = .winding → ¬ D r.lane ∧ (s.lane r.lane).current = some h ∧
    (s.lane r.lane).enabled = true ∧ (s.lane r.lane).shaft = r.shaft
  wound : WoundLaw s
  apart : RangeLaw s

theorem trackingLaw_iff {s : State} : TrackingLaw s ↔ s.Tracks fun _ => False := by
  refine ⟨fun ⟨⟨current, winding⟩, wound, apart⟩ => ⟨fun n _ => current n, fun h r there winds => ?_, wound, apart⟩,
    fun ⟨current, winding, wound, apart⟩ => ⟨⟨fun n => current n id, fun h r there winds => ?_⟩, wound, apart⟩⟩
  · exact ⟨id, winding h r there winds⟩
  · exact (winding h r there winds).2

/-- Lanes set aside without a current reel need not be. -/
theorem State.Tracks.gather {s : State} {D : Lane → Prop} (law : s.Tracks D) (none : ∀ n, D n → (s.lane n).current = none) :
    TrackingLaw s := by
  refine trackingLaw_iff.mpr ⟨fun n _ h there => ?_, fun h r there winds => ⟨id, (law.winding h r there winds).2⟩, law.wound,
    law.apart⟩
  refine law.current n (fun aside => ?_) h there
  rw [none n aside] at there
  cases there

/-- Lanes without a WINDING reel may be set aside. -/
theorem TrackingLaw.aside {s : State} (law : TrackingLaw s) {D : Lane → Prop}
    (none : ∀ h, ∀ r ∈ s.reel h, r.state = .winding → ¬ D r.lane) : s.Tracks D := by
  obtain ⟨current, winding, wound, apart⟩ := trackingLaw_iff.mp law
  exact ⟨fun n _ => current n id, fun h r there winds => ⟨none h r there winds, (winding h r there winds).2⟩, wound, apart⟩

/-- Every record in use was in use before, and goes on, is ended or is closed. -/
def State.advances (s t : State) : Prop := ∀ h, ∀ q ∈ t.reel h, ∃ r, s.reel h = some r ∧ r.Advances q

theorem State.goesOn.advances {s t : State} (h : s.goesOn t) : s.advances t := fun g q there => by
  obtain ⟨r, was, one⟩ := h.back there
  exact ⟨r, was, one.advances⟩

/-- Two ranges that stood apart stand apart where their records go on, are ended or are closed. -/
theorem RangeLaw.advances {s t : State} (law : RangeLaw s) (goes : s.advances t) : RangeLaw t := by
  intro g h ne q there r there' lane shaft here here'
  obtain ⟨q₀, was, one⟩ := goes g q there
  obtain ⟨r₀, was', one'⟩ := goes h r there'
  have rise {a b : Reel} (h : a.Advances b) (off : b.flags.previousRun = false) : a.flags.previousRun = false := by
    obtain ⟨-, -, -, -, -, -, -, -, -, -, -, -, -, run⟩ := h.flags
    by_contra on
    rw [run (Bool.not_eq_false _ ▸ on)] at off
    cases off
  have stays {a b : Reel} (h : a.Advances b) {x : Nat} : (∃ e ∈ a.stopAt, e ≤ x) → ∃ e ∈ b.stopAt, e ≤ x :=
    fun ⟨e, stop, le⟩ => ⟨e, (h.ended e stop).1, le⟩
  rw [one.same, one'.same] at lane shaft
  have start : q.start = q₀.start := by rw [one.same]
  have start' : r.start = r₀.start := by rw [one'.same]
  rw [start, start']
  exact (law g h ne q₀ was r₀ was' lane shaft (rise one here) (rise one' here')).imp (stays one) (stays one')

theorem Reel.Goes.wound {r q : Reel} (h : r.Goes q) : q.isWound → r.isWound := by
  unfold Reel.isWound
  obtain e | ⟨-, e⟩ := h.state
  · rw [e]; exact fun h => h
  · rw [e]; exact fun h => by cases h <;> contradiction

theorem Reel.Goes.winding {r q : Reel} (h : r.Goes q) : q.state = .winding ↔ r.state = .winding := by
  obtain e | ⟨e, e'⟩ := h.state
  · rw [e]
  · rw [e, e']; exact ⟨nofun, nofun⟩

theorem WoundLaw.goesOn {s t : State} (law : WoundLaw s) (goes : s.goesOn t) (winds : s.windsOn t) : WoundLaw t := by
  intro h q there
  obtain ⟨r, was, one⟩ := goes.back there
  obtain ⟨place, ended, beyond⟩ := law h r was
  obtain ⟨idle, active⟩ := winds r.shaft
  have shaft : q.shaft = r.shaft := by rw [one.same]
  have spindle : q.spindle = r.spindle := by rw [one.same]
  have stop : q.stopAt = r.stopAt := by rw [one.same]
  have start : q.start = r.start := by rw [one.same]
  refine ⟨fun wound => ?_, ?_, ?_⟩
  · obtain ⟨turns, own⟩ := place (one.wound wound)
    rw [shaft, spindle]
    exact ⟨mt idle.mp turns, own.trans active.symm⟩
  · rw [stop, one.winding]
    exact ended
  · rw [stop, start]
    exact beyond

/-- The tracking laws stand where the records go on, the lanes keep their reels and shafts, and no shaft starts, stops or
turns over. -/
theorem State.Tracks.goesOn {s t : State} {D : Lane → Prop} (law : s.Tracks D) (goes : s.goesOn t) (winds : s.windsOn t)
    (lanes : ∀ n, (t.lane n).current = (s.lane n).current ∧ ((s.lane n).enabled = true → (t.lane n).enabled = true) ∧
      ((∃ h, ∃ r, s.reel h = some r ∧ r.state = .winding ∧ r.lane = n) → (t.lane n).shaft = (s.lane n).shaft)) :
    t.Tracks D where
  current := fun n out h there => by
    rw [(lanes n).1] at there
    obtain ⟨r, was, turns, lane⟩ := law.current n out h there
    obtain ⟨q, now, one⟩ := goes.there was
    exact ⟨q, now, one.winding.mpr turns, by rw [one.same]; exact lane⟩
  winding := fun h q there turns => by
    obtain ⟨r, was, one⟩ := goes.back there
    have turns := one.winding.mp turns
    obtain ⟨out, current, enabled, shaft⟩ := law.winding h r was turns
    have lane : q.lane = r.lane := by rw [one.same]
    obtain ⟨same, on, place⟩ := lanes r.lane
    rw [lane, same, place ⟨h, r, was, turns, rfl⟩]
    exact ⟨out, current, on enabled, shaft.trans (by rw [one.same])⟩
  wound := law.wound.goesOn goes winds
  apart := law.apart.advances goes.advances

/-- The lanes keep their reels, shafts and enabling. -/
theorem Falls.lanes {s t : State} (h : Falls s t) (n : Lane) : (t.lane n).current = (s.lane n).current ∧
    (t.lane n).enabled = (s.lane n).enabled ∧ (t.lane n).shaft = (s.lane n).shaft := by
  induction h with
  | refl => exact ⟨rfl, rfl, rfl⟩
  | @tail u v _ fall ih =>
    suffices one : (v.lane n).current = (u.lane n).current ∧ (v.lane n).enabled = (u.lane n).enabled ∧
        (v.lane n).shaft = (u.lane n).shaft from
      ⟨one.1.trans ih.1, one.2.1.trans ih.2.1, one.2.2.trans ih.2.2⟩
    cases fall with
    | land h m => obtain ⟨_, _, _, e⟩ := u.land_frame h m; rw [e]; exact ⟨rfl, rfl, rfl⟩
    | tally m =>
      unfold State.countUntracked
      rw [State.setLane_lane]
      split
      · next e => rw [e]; exact ⟨rfl, rfl, rfl⟩
      · exact ⟨rfl, rfl, rfl⟩
    | _ => exact ⟨rfl, rfl, rfl⟩

/-- What a lane record written keeps for the tracking laws. -/
theorem State.setLane_tracked {s : State} {n : Lane} {k : LaneRec} (current : k.current = (s.lane n).current)
    (enabled : (s.lane n).enabled = true → k.enabled = true)
    (shaft : (∃ h, ∃ r, s.reel h = some r ∧ r.state = .winding ∧ r.lane = n) → k.shaft = (s.lane n).shaft) (m : Lane) :
    ((s.setLane n k).lane m).current = (s.lane m).current ∧
      ((s.lane m).enabled = true → ((s.setLane n k).lane m).enabled = true) ∧
      ((∃ h, ∃ r, s.reel h = some r ∧ r.state = .winding ∧ r.lane = m) → ((s.setLane n k).lane m).shaft = (s.lane m).shaft) := by
  rw [State.setLane_lane]
  split
  · next e => rw [e]; exact ⟨current, enabled, shaft⟩
  · exact ⟨rfl, id, fun _ => rfl⟩

theorem State.setReference_tracked (s : State) (n m : Lane) :
    ((s.setReference n).lane m).current = (s.lane m).current ∧ ((s.setReference n).lane m).enabled = (s.lane m).enabled ∧
      ((s.setReference n).lane m).shaft = (s.lane m).shaft := by
  rw [State.setReference_lane]
  split
  · next e => rw [e]; exact ⟨rfl, rfl, rfl⟩
  · split <;> exact ⟨rfl, rfl, rfl⟩

/-- Every act keeps the tracking laws, whatever lanes are set aside. -/
theorem Act.tracks {s t : State} {D : Lane → Prop} (h : Act L s t) (law : s.Tracks D) : t.Tracks D := by
  have goes := h.goesOn
  have winds := h.windsOn
  have mapped (map : t.map = s.map) : t.Tracks D := by
    refine law.goesOn goes winds fun n => ?_
    have same : t.lane n = s.lane n := by unfold State.lane; rw [map]
    rw [same]
    exact ⟨rfl, id, fun _ => rfl⟩
  have fallen (falls : Falls s t) : t.Tracks D :=
    law.goesOn goes winds fun n => ⟨(falls.lanes n).1, (falls.lanes n).2.1.trans, fun _ => (falls.lanes n).2.2⟩
  cases h with
  | quiet h => obtain ⟨⟨_, _, _, _, _, _, rfl⟩, _⟩ := h; exact mapped rfl
  | decode pair => obtain ⟨_, _, e⟩ := s.decodePair_frame pair; exact mapped (by rw [e])
  | taken w a own h => exact fallen (State.takeArrival_falls h)
  | arm w x own => obtain ⟨_, _, e⟩ := s.arm_frame w x; exact mapped (by rw [e])
  | lane n k h =>
    obtain ⟨e, -⟩ := h
    refine law.goesOn goes winds (State.setLane_tracked ?_ ?_ ?_) <;> rw [e]
    exacts [id, fun _ => rfl]
  | geometry n e w _ _ _ _ _ =>
    exact law.goesOn goes winds (State.setLane_tracked (s := s) (k := { s.lane n with edge := e, width := w }) rfl id fun _ => rfl)
  | move n sh leaves joins =>
    refine law.goesOn goes winds (State.setLane_tracked (s := s) (k := { s.lane n with shaft := sh, reference := false }) rfl id
      fun ⟨h, r, there, turns, own⟩ => ?_)
    obtain ⟨_, _, _, shaft⟩ := law.winding h r there turns
    rw [own] at shaft
    exact absurd (shaft ▸ leaves) ((law.wound h r there).1 (.inl turns)).1
  | enable n off web apart =>
    exact law.goesOn goes winds (State.setLane_tracked (s := s) (k := { s.lane n with enabled := true }) rfl (fun _ => rfl)
      fun _ => rfl)
  | refer n on =>
    exact law.goesOn goes winds fun m => by
      obtain ⟨current, enabled, shaft⟩ := s.setReference_tracked n m
      exact ⟨current, enabled.trans, fun _ => shaft⟩
  | land h m => exact fallen (.single (.land s h m))
  | unload sh sp assumed =>
    obtain ⟨_, e⟩ := s.doff_frame sh sp assumed
    obtain ⟨_, _, e'⟩ := (s.doff sh sp assumed).refreshSpindles_frame sh
    exact mapped (by rw [e', e])
  | accept e _ => exact fallen (s.acceptEntry_falls e)
  | knife a h => exact fallen ((State.takeArrival_falls h).trans (State.knifePass_falls _))
  | nip sh a h => exact fallen ((State.takeArrival_falls h).trans (State.releasePass_falls _ sh))
  | cutReported sh => exact fallen (.head (s.clearLatch_fall sh) (State.releasePass_falls _ sh))
  | trim k =>
    exact law.goesOn goes winds fun _ => ⟨rfl, id, fun _ => rfl⟩
  | _ => exact mapped rfl

theorem Acts.tracks {s t : State} {D : Lane → Prop} (h : Acts L s t) (law : s.Tracks D) : t.Tracks D := by
  induction h with
  | refl => exact law
  | tail _ act ih => exact act.tracks ih

end Sys2Proof.Machine
end

section
/-! PROOF. The tracking laws through cuts, starts, stops and lane edits: the set closed with its lanes set aside, and the next
set opened lane by lane (O16). -/

namespace Sys2Proof.Machine

/-! ## A set closed -/

/-- A record as the closing of the set of a shaft leaves it: DOFFING with an end where it was WINDING or ENDED there, and
otherwise where it stood, unloaded at most. -/
structure Reel.ClosedBy (sh : Shaft) (r q : Reel) : Prop where
  advances : r.Advances q
  closed : r.shaft = sh → r.isWound → q.state = .doffing ∧ ∃ e, q.stopAt = some e ∧ r.start ≤ e
  rest : ¬ (r.shaft = sh ∧ r.isWound) → q.stopAt = r.stopAt ∧ (q.state = r.state ∨ r.state = .doffing ∧ q.state = .doffed)

theorem Reel.Goes.closedBy {r q : Reel} {sh : Shaft} (h : r.Goes q) (rests : ¬ (r.shaft = sh ∧ r.isWound)) :
    r.ClosedBy sh q :=
  ⟨h.advances, fun own wound => absurd ⟨own, wound⟩ rests, fun _ => ⟨h.stopAt, h.state⟩⟩

/-- What WoundLaw says of a record's end. -/
def Reel.endsRight (r : Reel) : Prop := (r.stopAt = none ↔ r.state = .winding) ∧ ∀ e ∈ r.stopAt, r.start ≤ e

theorem WoundLaw.endsRight {s : State} (law : WoundLaw s) {h : Handle} {r : Reel} (there : s.reel h = some r) : r.endsRight :=
  (law h r there).2

theorem ReelFlags.under_short (f : ReelFlags) (b : Bool) : f.under { f with short := f.short || b } := by
  unfold ReelFlags.under
  simp +contextual

/-- A WINDING or ENDED record of the shaft closed (R45, R46). -/
theorem Reel.close_closedBy {r : Reel} {sh : Shaft} (own : r.shaft = sh) (wound : r.isWound) (ends : r.endsRight) (x : Nat)
    (short : Bool) : r.ClosedBy sh (r.close x short) := by
  obtain ⟨stop, beyond⟩ := ends
  have rest {p : Prop} (h : ¬ (r.shaft = sh ∧ r.isWound)) : p := absurd ⟨own, wound⟩ h
  rcases wound with turns | ended
  · have open' : r.stopAt = none := stop.mpr turns
    rw [Reel.close_winding turns]
    refine ⟨⟨rfl, .inr (.inr (.inl ⟨turns, rfl⟩)), fun e h => ?_, ?_, r.tallies.upTo_refl, le_rfl, .refl _, .refl _, le_rfl⟩,
      fun _ _ => ⟨rfl, _, rfl, Nat.le_max_right ..⟩, rest⟩
    · rw [open'] at h
      cases h
    · exact ReelFlags.under_trans (r.footageFlags_under x) (ReelFlags.under_short ..)
  · rw [Reel.close_ended ended]
    refine ⟨⟨rfl, .inr (.inr (.inr (.inl ⟨ended, rfl⟩))), fun e h => ⟨h, rfl⟩, ReelFlags.under_short .., r.tallies.upTo_refl,
      le_rfl, .refl _, .refl _, le_rfl⟩, fun _ _ => ⟨rfl, ?_⟩, rest⟩
    obtain ⟨e, h⟩ := Option.ne_none_iff_exists'.mp (mt stop.mp (by rw [ended]; decide))
    exact ⟨e, h, beyond e h⟩

theorem Reel.closes_iff {r : Reel} {sh : Shaft} : r.closes sh = true ↔ r.shaft = sh ∧ r.isWound := by
  simp [Reel.closes, Reel.isWound]

/-- A record as a stop leaves it. -/
theorem Reel.closeIf_closedBy {r : Reel} {sh : Shaft} (ends : r.endsRight) (x : Nat) (short : Bool) :
    r.ClosedBy sh (if r.closes sh then r.close x short else r) := by
  split
  · next closes =>
    obtain ⟨own, wound⟩ := Reel.closes_iff.mp closes
    exact Reel.close_closedBy own wound ends x short
  · next rests => exact (Reel.Goes.refl r).closedBy (mt Reel.closes_iff.mpr rests)

/-- What goes on first is closed as it was. -/
theorem Reel.ClosedBy.after {r q p : Reel} {sh : Shaft} (first : r.Goes q) (same : q.state = r.state) (h : q.ClosedBy sh p) :
    r.ClosedBy sh p := by
  obtain ⟨⟨place, moves, ended, flags, tallies, dropped, chain, parents, computed⟩, closed, rest⟩ := h
  have shaft : q.shaft = r.shaft := by rw [first.same]
  have start : q.start = r.start := by rw [first.same]
  have footage : q.footage = r.footage := by rw [first.same]
  have wound : q.isWound ↔ r.isWound := by unfold Reel.isWound; rw [same]
  rw [shaft, wound, start] at closed
  rw [shaft, wound, first.stopAt, same] at rest
  rw [first.stopAt, footage] at ended
  rw [same] at moves
  exact ⟨⟨by rw [place, first.same], moves, ended, ReelFlags.under_trans first.flags flags,
    Tallies.upTo_trans first.tallies tallies, first.dropped.trans dropped, first.chain.trans chain,
    first.parents.trans parents, first.computed.trans computed⟩, closed, rest⟩

theorem Reel.overrunIf_goes (r : Reel) (sh : Shaft) (b : Bool) : r.Goes (r.overrunIf sh b) := by
  unfold Reel.overrunIf
  split
  · refine ⟨rfl, .inl rfl, ?_, r.tallies.upTo_refl, le_rfl, .refl _, .refl _, le_rfl⟩
    show r.flags.under { r.flags with overrun := r.flags.overrun || b }
    unfold ReelFlags.under
    simp +contextual
  · exact .refl r

theorem Reel.unloadIf_goes (r : Reel) (sh : Shaft) (sp : Spindle) (b : Bool) : r.Goes (r.unloadIf sh sp b) := by
  unfold Reel.unloadIf
  split
  · next h =>
    have goes := Reel.unload_goes h.2.2.2 true
    rw [Bool.or_true] at goes
    exact goes
  · exact .refl r

/-- A record as a cut leaves it (R45, R46, R119, R120). -/
theorem State.cutReel_closedBy (s : State) (sh : Shaft) (c : Nat) {r : Reel} (ends : r.endsRight) :
    r.ClosedBy sh (s.cutReel sh c r) := by
  have goes := r.overrunIf_goes sh ((s.shaft sh).catches c .overrun)
  have state := (r.overrunIf_facts sh ((s.shaft sh).catches c .overrun)).2.2
  by_cases wound : r.shaft = sh ∧ r.isWound
  · rw [s.cutReel_wound c wound.1 wound.2]
    have shaft : (r.overrunIf sh ((s.shaft sh).catches c .overrun)).shaft = sh := by rw [goes.same]; exact wound.1
    refine .after goes state (Reel.close_closedBy shaft ?_ ?_ c _)
    · unfold Reel.isWound
      rw [state]
      exact wound.2
    · unfold Reel.endsRight
      rw [goes.stopAt, state, show (r.overrunIf sh ((s.shaft sh).catches c .overrun)).start = r.start by rw [goes.same]]
      exact ends
  · have open' : (s.cutReel sh c r) = (r.overrunIf sh ((s.shaft sh).catches c .overrun)).unloadIf sh (s.shaft sh).active.other
        (decide ((s.shaft sh).spindle (s.shaft sh).active.other = .full)) := by
      unfold State.cutReel
      exact if_neg (by rw [Reel.unloadIf_closes, Reel.overrunIf_closes, Reel.closes_iff]; exact wound)
    rw [open']
    exact (goes.trans (Reel.unloadIf_goes ..)).closedBy wound

/-- The set of a shaft closed, with its enabled lanes set aside. -/
theorem TrackingLaw.closed {s t : State} {sh : Shaft} (law : TrackingLaw s)
    (reels : ∀ h, Option.Rel (Reel.ClosedBy sh) (s.reel h) (t.reel h))
    (lanes : ∀ n, (t.lane n).enabled = (s.lane n).enabled ∧ (t.lane n).shaft = (s.lane n).shaft ∧
      ((t.lane n).current = (s.lane n).current ∨ (s.lane n).shaft = sh ∧ (t.lane n).current = none))
    (shafts : ∀ sh', sh' ≠ sh → ((t.shaft sh').phase = .idle ↔ (s.shaft sh').phase = .idle) ∧
      (t.shaft sh').active = (s.shaft sh').active) : t.Tracks (· ∈ s.enabledLanes sh) := by
  obtain ⟨⟨currents, windings⟩, wounds, apart⟩ := law
  have there {h : Handle} {r : Reel} (was : s.reel h = some r) : ∃ q, t.reel h = some q ∧ r.ClosedBy sh q := by
    have at' := reels h
    rw [was] at at'
    cases now : t.reel h with
    | none => rw [now] at at'; cases at'
    | some q => rw [now] at at'; cases at' with | some one => exact ⟨q, rfl, one⟩
  have back {h : Handle} {q : Reel} (now : t.reel h = some q) : ∃ r, s.reel h = some r ∧ r.ClosedBy sh q := by
    have at' := reels h
    rw [now] at at'
    cases was : s.reel h with
    | none => rw [was] at at'; cases at'
    | some r => rw [was] at at'; cases at' with | some one => exact ⟨r, rfl, one⟩
  have stays {r q : Reel} (one : r.ClosedBy sh q) (wound : q.isWound) : r.shaft ≠ sh ∧ q.state = r.state := by
    have unloaded (done : q.state = .doffed) : False := by
      unfold Reel.isWound at wound
      rw [done] at wound
      cases wound <;> contradiction
    have notClosed : ¬ (r.shaft = sh ∧ r.isWound) := fun h => by
      have doffing := (one.closed h.1 h.2).1
      unfold Reel.isWound at wound
      rw [doffing] at wound
      cases wound <;> contradiction
    obtain same | ⟨-, done⟩ := (one.rest notClosed).2
    · refine ⟨fun own => notClosed ⟨own, ?_⟩, same⟩
      unfold Reel.isWound at wound ⊢
      exact same ▸ wound
    · exact absurd done unloaded
  refine ⟨fun n out h now => ?_, fun h q now turns => ?_, fun h q now => ?_, apart.advances fun h q now => ?_⟩
  · obtain ⟨-, -, same | ⟨-, none⟩⟩ := lanes n
    · rw [same] at now
      obtain ⟨r, was, turns, lane⟩ := currents n h now
      obtain ⟨-, enabled, shaft⟩ := windings h r was turns
      rw [lane] at enabled shaft
      have away : r.shaft ≠ sh := fun own => out (State.mem_enabledLanes.mpr ⟨enabled, shaft.trans own⟩)
      obtain ⟨q, here, one⟩ := there was
      obtain same | ⟨doffing, -⟩ := (one.rest fun h => away h.1).2
      · exact ⟨q, here, same.trans turns, by rw [one.advances.same]; exact lane⟩
      · exact absurd (turns.symm.trans doffing) nofun
    · rw [none] at now
      cases now
  · obtain ⟨r, was, one⟩ := back now
    obtain ⟨away, same⟩ := stays one (.inl turns)
    obtain ⟨current, enabled, shaft⟩ := windings h r was (same ▸ turns)
    obtain ⟨on, place, own | ⟨here, -⟩⟩ := lanes r.lane
    · have lane : q.lane = r.lane := by rw [one.advances.same]
      rw [lane, own, on, place, shaft]
      refine ⟨fun mem => away ?_, current, enabled, by rw [one.advances.same]⟩
      exact shaft.symm.trans (State.mem_enabledLanes.mp mem).2
    · exact absurd (shaft.symm.trans here) away
  · obtain ⟨r, was, one⟩ := back now
    obtain ⟨place, stop, beyond⟩ := wounds h r was
    have start : q.start = r.start := by rw [one.advances.same]
    refine ⟨fun wound => ?_, ?_⟩
    · obtain ⟨away, same⟩ := stays one wound
      obtain ⟨turns, spindle⟩ := place (by unfold Reel.isWound at wound ⊢; exact same ▸ wound)
      obtain ⟨idle, active⟩ := shafts r.shaft away
      rw [one.advances.same]
      exact ⟨mt idle.mp turns, spindle.trans active.symm⟩
    · rw [start]
      by_cases closes : r.shaft = sh ∧ r.isWound
      · obtain ⟨doffing, e, ends, le⟩ := one.closed closes.1 closes.2
        rw [ends, doffing]
        exact ⟨⟨nofun, nofun⟩, fun x h => by cases h; exact le⟩
      · obtain ⟨same, state⟩ := one.rest closes
        rw [same]
        refine ⟨stop.trans ?_, beyond⟩
        obtain e | ⟨e, e'⟩ := state
        · rw [e]
        · rw [e, e']; exact ⟨nofun, nofun⟩
  · obtain ⟨r, was, one⟩ := back now
    exact ⟨r, was, one.advances⟩

/-! ## Openings -/

theorem State.le_latestEnd {s : State} {g : Handle} {r : Reel} (there : s.reel g = some r) : r.endOn r.lane r.shaft ≤
    s.latestEnd r.lane r.shaft := by
  have bound (l : List Handle) (m : Nat) (mem : g ∈ l) : r.endOn r.lane r.shaft ≤
      l.foldl (fun m h => max m (((s.reel h).map (Reel.endOn r.lane r.shaft)).getD 0)) m := by
    have least (l : List Handle) (m : Nat) :
        m ≤ l.foldl (fun m h => max m (((s.reel h).map (Reel.endOn r.lane r.shaft)).getD 0)) m := by
      induction l generalizing m with
      | nil => exact le_rfl
      | cons h l ih => exact (Nat.le_max_left ..).trans (ih _)
    induction l generalizing m with
    | nil => cases mem
    | cons h l ih =>
      rcases List.mem_cons.mp mem with rfl | mem
      · refine le_trans ?_ (least l _)
        dsimp only
        rw [there]
        exact Nat.le_max_right ..
      · exact ih _ mem
  rw [s.latestEnd_eq]
  exact bound _ 0 (List.mem_finRange g)

/-- An opening for an enabled lane without a WINDING reel, on the active spindle of a shaft that runs, takes the lane back. -/
theorem State.Tracks.opening {s : State} {D : Lane → Prop} (law : s.Tracks D) {n : Lane} {sh : Shaft}
    (on : (s.lane n).enabled = true) (own : (s.lane n).shaft = sh) (runs : (s.shaft sh).phase ≠ .idle)
    (none : ∀ h, ∀ r ∈ s.reel h, r.state = .winding → r.lane ≠ n) (x : Nat) (pool : Pool) (flags : ReelFlags) :
    (s.openForLane n sh (s.shaft sh).active x pool flags).Tracks fun m => D m ∧ m ≠ n := by
  have winds : s.windsOn (s.openForLane n sh (s.shaft sh).active x pool flags) := by
    obtain ⟨_, _, p, q, _, _, _, _, e⟩ | e := s.openForLane_cases n sh (s.shaft sh).active x pool flags <;> rw [e]
    · exact State.windsOn_setShaft (r := { s.shaft sh with spindle1 := p, spindle2 := q }) .rfl rfl
    · exact State.windsOn_of_shafts rfl
  obtain ⟨h, st, p, q, met, step, free, lowest, e⟩ | e := s.openForLane_cases n sh (s.shaft sh).active x pool flags
  · have opens : s.OpensAt (s.openForLane n sh (s.shaft sh).active x pool flags) n sh (s.shaft sh).active x pool flags h st :=
      ⟨p, q, e⟩
    obtain ⟨t, ht⟩ : ∃ t, t = s.openForLane n sh (s.shaft sh).active x pool flags := ⟨_, rfl⟩
    rw [← ht] at opens winds ⊢
    have lane := opens.lane
    have reel := opens.reel
    have new : (s.newReel n sh (s.shaft sh).active x flags st).isWound := .inl rfl
    have old {g : Handle} {r : Reel} (there : s.reel g = some r) : g ≠ h := fun same => by
      rw [same, free] at there
      cases there
    refine ⟨fun m out g there => ?_, fun g r there turns => ?_, fun g r there => ?_, fun g g' ne r there r' there' => ?_⟩
    · rw [lane] at there
      split at there
      · next same =>
        cases there
        exact ⟨_, (reel h).trans (if_pos rfl), rfl, same.symm⟩
      · next other =>
        obtain ⟨r, was, rest⟩ := law.current m (fun aside => out ⟨aside, other⟩) g there
        exact ⟨r, ((reel g).trans (if_neg (old was))).trans was, rest⟩
    · rw [Option.mem_def, reel] at there
      split at there
      · next same =>
        cases there
        refine ⟨fun h => h.2 rfl, ?_⟩
        show (t.lane n).current = _ ∧ (t.lane n).enabled = true ∧ (t.lane n).shaft = sh
        rw [lane, if_pos rfl, same]
        exact ⟨rfl, on, own⟩
      · obtain ⟨out, rest⟩ := law.winding g r there turns
        rw [lane, if_neg (none g r there turns)]
        exact ⟨fun h => out h.1, rest⟩
    · rw [Option.mem_def, reel] at there
      split at there
      · cases there
        obtain ⟨idle, active⟩ := winds sh
        exact ⟨fun _ => ⟨mt idle.mp runs, active.symm⟩, ⟨fun _ => rfl, fun _ => rfl⟩, nofun⟩
      · obtain ⟨place, rest⟩ := law.wound g r there
        obtain ⟨idle, active⟩ := winds r.shaft
        refine ⟨fun wound => ?_, rest⟩
        obtain ⟨turns, spindle⟩ := place wound
        exact ⟨mt idle.mp turns, spindle.trans active.symm⟩
    · have behind {g : Handle} {r : Reel} (was : s.reel g = some r) (lane : r.lane = n) (shaft : r.shaft = sh)
          (here : r.flags.previousRun = false) : ∃ e ∈ r.stopAt, e ≤ max x (s.latestEnd n sh) := by
        obtain ⟨e, stop⟩ := Option.ne_none_iff_exists'.mp fun endless =>
          none g r was ((law.wound g r was).2.1.mp endless) lane
        have latest := State.le_latestEnd was
        rw [Reel.endOn, if_pos ⟨rfl, rfl, here⟩, stop, lane, shaft] at latest
        exact ⟨e, stop, latest.trans (Nat.le_max_right ..)⟩
      rw [Option.mem_def, reel] at there there'
      intro lanes shafts here here'
      split at there
      · next same =>
        cases there
        rw [if_neg fun same' => ne (same.trans same'.symm)] at there'
        exact .inr (behind there' lanes.symm shafts.symm here')
      · split at there'
        · cases there'
          exact .inl (behind there lanes shafts here)
        · exact law.apart g g' ne r there r' there' lanes shafts here here'
  · rw [e] at winds ⊢
    have lane (m : Lane) := State.setLane_lane s n m { s.lane n with current := Option.none, untracked := true }
    refine ⟨fun m out g there => ?_, fun g r there turns => ?_, law.wound.goesOn (.of_table rfl) winds,
      law.apart.advances (State.goesOn.of_table rfl).advances⟩
    · rw [lane] at there
      split at there
      · cases there
      · next other => exact law.current m (fun aside => out ⟨aside, other⟩) g there
    · obtain ⟨out, rest⟩ := law.winding g r there turns
      rw [lane, if_neg (none g r there turns)]
      exact ⟨fun h => out h.1, rest⟩

end Sys2Proof.Machine
end

section
/-! PROOF. The tracking laws through whole cuts, starts, stops and lane edits, and so through every command (O16). -/

namespace Sys2Proof.Machine

variable {L : Prop}

/-! ## Openings in a row -/

theorem State.openForLane_others (s : State) (n : Lane) (sh : Shaft) (sp : Spindle) (x : Nat) (pool : Pool)
    (flags : ReelFlags) {m : Lane} (other : m ≠ n) : (s.openForLane n sh sp x pool flags).lane m = s.lane m := by
  obtain ⟨h, st, p, q, _, _, _, _, e⟩ | e := s.openForLane_cases n sh sp x pool flags
  · rw [e]
    exact (State.setLane_lane s n m _).trans (if_neg other)
  · rw [e]
    exact (State.setLane_lane s n m _).trans (if_neg other)

theorem State.openForLane_windsOn (s : State) (n : Lane) (sh : Shaft) (sp : Spindle) (x : Nat) (pool : Pool)
    (flags : ReelFlags) : s.windsOn (s.openForLane n sh sp x pool flags) := by
  obtain ⟨_, _, p, q, _, _, _, _, e⟩ | e := s.openForLane_cases n sh sp x pool flags <;> rw [e]
  · exact State.windsOn_setShaft (r := { s.shaft sh with spindle1 := p, spindle2 := q }) .rfl rfl
  · exact State.windsOn_of_shafts rfl

/-- Openings for lanes set aside take them back. -/
theorem State.Tracks.openLanes {sh : Shaft} {x : Nat} {pool : State → Pool} {flags : ReelFlags} {ns : List Lane} {s : State}
    {D : Lane → Prop} (law : s.Tracks D) (distinct : ns.Nodup) (aside : ∀ n ∈ ns, D n)
    (on : ∀ n ∈ ns, (s.lane n).enabled = true ∧ (s.lane n).shaft = sh) (runs : (s.shaft sh).phase ≠ .idle) :
    (ns.foldl (fun u n => u.openForLane n sh (u.shaft sh).active x (pool u) flags) s).Tracks fun m => D m ∧ m ∉ ns := by
  induction ns generalizing s D with
  | nil => simpa using law
  | cons n ns ih =>
    obtain ⟨out, distinct⟩ := List.nodup_cons.mp distinct
    obtain ⟨enabled, own⟩ := on n List.mem_cons_self
    have one := law.opening enabled own runs (fun h r there turns same =>
      (law.winding h r there turns).1 (same ▸ aside n List.mem_cons_self)) x (pool s) flags
    have other {m : Lane} (mem : m ∈ ns) : m ≠ n := fun same => out (same ▸ mem)
    have rest := ih one distinct (fun m mem => ⟨aside m (List.mem_cons_of_mem _ mem), other mem⟩)
      (fun m mem => by rw [s.openForLane_others _ _ _ _ _ _ (other mem)]; exact on m (List.mem_cons_of_mem _ mem))
      (mt (s.openForLane_windsOn n sh _ x (pool s) flags sh).1.mp runs)
    have same : (fun m => (D m ∧ m ≠ n) ∧ m ∉ ns) = fun m => D m ∧ m ∉ n :: ns := by
      funext m
      rw [List.mem_cons, not_or, and_assoc]
    rw [same] at rest
    exact rest

/-! ## A cut -/

theorem ShaftRec.countSet_winds {r : ShaftRec} (winds : r.phase ≠ .idle) : r.countSet.1.phase ≠ .idle := by
  unfold ShaftRec.countSet
  split
  · exact winds
  · dsimp only
    split
    · nofun
    · split
      · nofun
      · split
        · nofun
        · split <;> nofun

theorem Option.rel_map {α : Type} {R : α → α → Prop} {f : α → α} {x : Option α} (h : ∀ a ∈ x, R a (f a)) :
    Option.Rel R x (x.map f) := by
  cases x with
  | none => exact .none
  | some a => exact .some (h a rfl)

/-- The rest of a cut behind the opening of its next set is acts. -/
theorem State.takeCut_acts (s : State) (sh : Shaft) (c : Nat) :
    Acts L ((s.cutCounted sh c).openSet sh c (s.shaft sh).phase) (s.takeCut sh c) := by
  rw [s.takeCut_eq]
  unfold State.cutMade
  dsimp only
  generalize (s.cutCounted sh c).openSet sh c (s.shaft sh).phase = u
  have settled := (u.releaseReserved_acts (L := L) sh).tail (.beside (u.releaseReserved sh) sh
    (q := ((u.releaseReserved sh).shaft sh).settleCut) rfl)
  generalize (u.releaseReserved sh).setShaft sh ((u.releaseReserved sh).shaft sh).settleCut = v at *
  have last : Acts L v ((((v.openThresholds sh c).baseTension sh).clearLatch sh).reportCut sh) :=
    (((v.openThresholds_acts sh c).trans (State.baseTension_acts ..)).tail (.cutReported _ sh)).trans
      (State.attributeHeld_acts ..)
  exact settled.trans last

theorem TrackingLaw.cutCounted {s : State} (law : TrackingLaw s) (sh : Shaft) (c : Nat) :
    (s.cutCounted sh c).Tracks (· ∈ s.enabledLanes sh) := by
  obtain ⟨⟨_, _, _, _, _, _, _, frame⟩, reels, -⟩ := s.cutCounted_spec sh c
  refine law.closed (fun h => ?_) (fun n => ?_) fun sh' other => ?_
  · rw [reels]
    exact Option.rel_map fun r there => s.cutReel_closedBy sh c (law.2.1.endsRight there)
  · rw [frame]
    exact ⟨rfl, rfl, .inl rfl⟩
  · have same : (s.cutCounted sh c).shaft sh' = s.shaft sh' := by
      rw [frame]
      exact (Pair.get_set ..).trans (if_neg other)
    rw [same]
    exact ⟨.rfl, rfl⟩

theorem TrackingLaw.acts {s t : State} (law : TrackingLaw s) (h : Acts L s t) : TrackingLaw t :=
  trackingLaw_iff.mpr (h.tracks (trackingLaw_iff.mp law))

theorem TrackingLaw.takeCut {s : State} (law : TrackingLaw s) {sh : Shaft} (winds : (s.shaft sh).phase ≠ .idle) (c : Nat) :
    TrackingLaw (s.takeCut sh c) := by
  obtain ⟨⟨_, _, _, _, _, _, _, frame⟩, -⟩ := s.cutCounted_spec sh c
  have closed := law.cutCounted sh c
  have runs : ((s.cutCounted sh c).shaft sh).phase ≠ .idle := by
    rw [frame, State.shaft, Pair.get_set_self]
    exact ShaftRec.countSet_winds winds
  have lanes : (s.cutCounted sh c).enabledLanes sh = s.enabledLanes sh := by rw [frame]; rfl
  refine TrackingLaw.acts (L := True) ?_ (s.takeCut_acts sh c)
  rw [← lanes] at closed
  generalize s.cutCounted sh c = u at *
  obtain ⟨d, raised⟩ := u.raiseIf_frame (decide ((s.shaft sh).phase = .winding)) (.unplannedCut sh)
  unfold State.openSet
  dsimp only
  rw [raised]
  have opened := State.Tracks.openLanes (s := { u with digest := d }) (sh := sh) (x := c)
    (pool := fun v => v.cutPool sh (s.shaft sh).phase)
    (flags := { ReelFlags.none with
      extra := decide ((u.shaft sh).phase = .runout), unplanned := decide ((s.shaft sh).phase = .winding) })
    (Act.tracks (.quiet (u.setDigest_quietly d).loud) closed) (u.enabledLanes_nodup sh)
    (fun n mem => mem) (fun n mem => State.mem_enabledLanes.mp mem) runs
  exact opened.gather fun n aside => absurd aside.1 aside.2

/-! ## A start and a stop -/

/-- A shaft without a WINDING or ENDED reel may be written at will. -/
theorem State.Tracks.setShaft {s : State} {D : Lane → Prop} (law : s.Tracks D) {sh : Shaft}
    (clear : ∀ h, ∀ r ∈ s.reel h, r.shaft = sh → ¬ r.isWound) (q : ShaftRec) : (s.setShaft sh q).Tracks D := by
  obtain ⟨current, winding, wound, apart⟩ := law
  refine ⟨current, winding, fun h r there => ?_, apart⟩
  obtain ⟨place, rest⟩ := wound h r there
  refine ⟨fun turns => ?_, rest⟩
  rw [State.setShaft_shaft, if_neg fun same => clear h r there same turns]
  exact place turns

theorem TrackingLaw.start {s : State} (law : TrackingLaw s) {sh : Shaft} (rests : (s.shaft sh).phase = .idle)
    (st : PlanStep) : TrackingLaw (s.start sh st) := by
  obtain ⟨⟨-, windings⟩, wounds, -⟩ := id law
  have clear : ∀ h, ∀ r ∈ s.reel h, r.shaft = sh → ¬ r.isWound := fun h r there own turns =>
    ((wounds h r there).1 turns).1 (own ▸ rests)
  have aside : s.Tracks (· ∈ s.enabledLanes sh) := law.aside fun h r there turns mem =>
    clear h r there ((windings h r there turns).2.2.symm.trans (State.mem_enabledLanes.mp mem).2) (.inl turns)
  have begun := aside.setShaft clear ((s.shaft sh).begin st)
  unfold State.start
  dsimp only
  have runs : ((s.setShaft sh ((s.shaft sh).begin st)).shaft sh).phase ≠ .idle := by
    rw [State.setShaft_shaft_self]
    nofun
  have opened := begun.openLanes (sh := sh) (x := s.position.p) (pool := fun _ => .unreserved) (flags := .none)
    (s.enabledLanes_nodup sh) (fun n mem => mem) (fun n mem => State.mem_enabledLanes.mp mem) runs
  exact (opened.gather fun n aside => absurd aside.1 aside.2).acts (L := True)
    ((State.openThresholds_acts _ sh s.position.p).trans (State.baseTension_acts ..))

theorem TrackingLaw.halt {s : State} (law : TrackingLaw s) (sh : Shaft) : TrackingLaw (s.halt sh) := by
  obtain ⟨-, -, otherShaft, -, -, -, lanes, reels⟩ := s.halt_spec sh
  have closed : (s.halt sh).Tracks (· ∈ s.enabledLanes sh) := by
    refine law.closed (fun h => ?_) (fun n => ?_) fun sh' away => ?_
    · rw [reels]
      exact Option.rel_map fun r there => Reel.closeIf_closedBy (law.2.1.endsRight there) _ _
    · rw [lanes]
      split
      · next own => exact ⟨rfl, rfl, .inr ⟨own, rfl⟩⟩
      · exact ⟨rfl, rfl, .inl rfl⟩
    · have own : sh' = other sh := (eq_or_other sh sh').resolve_left away
      rw [own, otherShaft]
      exact ⟨.rfl, rfl⟩
  refine closed.gather fun n mem => ?_
  rw [lanes, if_pos (State.mem_enabledLanes.mp mem).2]

/-! ## Lane edits and retirement -/

theorem TrackingLaw.enableLane {s : State} (law : TrackingLaw s) {n : Lane} (off : (s.lane n).enabled = false)
    (web : (s.lane n).edge + (s.lane n).width ≤ s.settings.webWidth)
    (apart : s.overlapsOther n (s.lane n).edge (s.lane n).width = false) : TrackingLaw (s.enableLane n) := by
  have on := Act.tracks (L := True) (.enable s n off web apart) (trackingLaw_iff.mp law)
  unfold State.enableLane
  dsimp only
  split
  · exact trackingLaw_iff.mpr on
  · next runs =>
    have lane : (s.setLane n { s.lane n with enabled := true }).lane n = { s.lane n with enabled := true } :=
      State.setLane_lane_self ..
    have opened := on.opening (n := n) (sh := (s.lane n).shaft) (by rw [lane]) (by rw [lane]) runs
      (fun h r there turns same => by
        have enabled := (law.1.2 h r there turns).2.1
        rw [same, off] at enabled
        cases enabled) s.position.p .unreserved
      { ReelFlags.none with lateStart := true, extra := decide ((s.shaft (s.lane n).shaft).phase = .runout) }
    exact opened.gather fun m aside => aside.1.elim

theorem Reel.endByDisable_advances {r : Reel} (turns : r.state = .winding) (open' : r.stopAt = none) (p : Nat) :
    r.Advances (r.endByDisable p) := by
  refine ⟨rfl, .inr (.inl ⟨turns, rfl⟩), fun e h => ?_, ?_, r.tallies.upTo_refl, le_rfl, .refl _, .refl _, le_rfl⟩
  · rw [open'] at h
    cases h
  · refine ReelFlags.under_trans (r.footageFlags_under p) ?_
    show (r.footageFlags p).under { r.footageFlags p with laneClosed := true }
    unfold ReelFlags.under
    simp +contextual

/-- A lane disabled: its current reel, if it has one, is ended (R30, R44). -/
theorem State.disableLane_spec (s : State) (n : Lane) :
    (∀ m, (s.disableLane n).lane m = if m = n then { s.lane n with
      current := none, enabled := false, reference := false, untracked := false } else s.lane m) ∧
    (∀ h, (s.disableLane n).reel h =
      if (s.lane n).current = some h then (s.reel h).map fun r => r.endByDisable s.position.p else s.reel h) ∧
    (s.disableLane n).shafts = s.shafts := by
  have lanes (m : Lane) : (s.endCurrent n).lane m = s.lane m := by unfold State.lane; rw [State.endCurrent_map]
  refine ⟨fun m => ?_, fun h => ?_, ?_⟩
  · unfold State.disableLane
    rw [State.setLane_lane, lanes]
  · show (s.endCurrent n).reel h = _
    unfold State.endCurrent
    split
    · next none => rw [none]; exact (if_neg nofun).symm
    · next g current =>
      rw [current, State.setReel_reel]
      by_cases same : h = g
      · rw [same, if_pos rfl, if_pos rfl]
      · rw [if_neg same, if_neg fun e => same (Option.some.inj e).symm]
  · show (s.endCurrent n).shafts = s.shafts
    unfold State.endCurrent
    split <;> rfl

theorem TrackingLaw.disableLane {s : State} (law : TrackingLaw s) (n : Lane) : TrackingLaw (s.disableLane n) := by
  obtain ⟨⟨currents, windings⟩, wounds, apart⟩ := law
  obtain ⟨lanes, reels, shafts⟩ := s.disableLane_spec n
  have shaft (sh : Shaft) : (s.disableLane n).shaft sh = s.shaft sh := by unfold State.shaft; rw [shafts]
  generalize s.disableLane n = t at *
  have ended {h : Handle} (current : (s.lane n).current = some h) : ∃ r, s.reel h = some r ∧ r.state = .winding ∧ r.lane = n ∧
      r.stopAt = none := by
    obtain ⟨r, there, turns, lane⟩ := currents n h current
    exact ⟨r, there, turns, lane, (wounds h r there).2.1.mpr turns⟩
  have cases {h : Handle} {q : Reel} (there : t.reel h = some q) : (∃ r, s.reel h = some r ∧ r.state = .winding ∧ r.lane = n ∧
      r.stopAt = none ∧ q = r.endByDisable s.position.p) ∨ (s.lane n).current ≠ some h ∧ s.reel h = some q := by
    rw [reels] at there
    split at there
    · next current =>
      obtain ⟨r, was, turns, lane, stop⟩ := ended current
      rw [was] at there
      exact .inl ⟨r, was, turns, lane, stop, (Option.some.inj there).symm⟩
    · next other => exact .inr ⟨other, there⟩
  refine ⟨⟨fun m h current => ?_, fun h q there turns => ?_⟩, fun h q there => ?_, apart.advances fun h q there => ?_⟩
  · rw [lanes] at current
    split at current
    · cases current
    · next away =>
      obtain ⟨r, was, rest⟩ := currents m h current
      refine ⟨r, (reels h).trans ((if_neg fun own => ?_).trans was), rest⟩
      obtain ⟨r', was', -, lane, -⟩ := ended own
      rw [was] at was'
      cases was'
      exact away (rest.2.symm.trans lane)
  · obtain ⟨r, -, -, -, -, e⟩ | ⟨other, was⟩ := cases there
    · rw [e] at turns
      cases turns
    · obtain ⟨current, rest⟩ := windings h q was turns
      rw [lanes, if_neg fun own : q.lane = n => other (own ▸ current)]
      exact ⟨current, rest⟩
  · rw [shaft]
    obtain ⟨r, was, turns, -, -, e⟩ | ⟨-, was⟩ := cases there
    · rw [e]
      exact ⟨fun _ => (wounds h r was).1 (.inl turns), ⟨nofun, nofun⟩, fun x stop => by cases stop; exact Nat.le_max_right ..⟩
    · exact wounds h q was
  · obtain ⟨r, was, turns, -, stop, e⟩ | ⟨-, was⟩ := cases there
    · exact ⟨r, was, e ▸ Reel.endByDisable_advances turns stop _⟩
    · exact ⟨q, was, (Reel.Goes.refl q).advances⟩

/-- A record freed leaves the others and the lanes, and starts and stops no shaft (R57). -/
theorem State.freeReel_spec (s : State) (g : Handle) (r : Reel) :
    (∀ h, (s.freeReel g r).reel h = if h = g then none else s.reel h) ∧ s.windsOn (s.freeReel g r) ∧
      ∀ n, (s.freeReel g r).lane n = s.lane n := by
  refine ⟨fun h => State.setReel_reel s g h none, fun sh => ?_, fun n => rfl⟩
  have raised (q : ShaftRec) : (q.retryRaised.phase = .idle ↔ q.phase = .idle) ∧ q.retryRaised.active = q.active := by
    unfold ShaftRec.retryRaised
    split <;> exact ⟨.rfl, rfl⟩
  cases sh
  · exact raised s.shafts.a
  · exact raised s.shafts.b

theorem TrackingLaw.freeReel {s : State} (law : TrackingLaw s) {g : Handle} {r : Reel} (there : s.reel g = some r)
    (doffed : r.state = .doffed) : TrackingLaw (s.freeReel g r) := by
  obtain ⟨⟨currents, windings⟩, wounds, apart⟩ := law
  obtain ⟨reels, winds, lanes⟩ := s.freeReel_spec g r
  have kept {h : Handle} {q : Reel} (there : (s.freeReel g r).reel h = some q) : s.reel h = some q := by
    rw [reels] at there
    split at there
    · cases there
    · exact there
  generalize s.freeReel g r = t at *
  refine ⟨⟨fun n h current => ?_, fun h q there turns => ?_⟩, fun h q there => ?_, apart.advances fun h q there =>
    ⟨q, kept there, (Reel.Goes.refl q).advances⟩⟩
  · rw [lanes] at current
    obtain ⟨q, was, turns, lane⟩ := currents n h current
    refine ⟨q, (reels h).trans ((if_neg fun same => ?_).trans was), turns, lane⟩
    rw [same, there] at was
    cases was
    exact absurd (doffed.symm.trans turns) nofun
  · rw [lanes]
    exact windings h q (kept there) turns
  · obtain ⟨place, rest⟩ := wounds h q (kept there)
    obtain ⟨idle, active⟩ := winds q.shaft
    refine ⟨fun wound => ?_, rest⟩
    obtain ⟨turns, spindle⟩ := place wound
    exact ⟨mt idle.mp turns, spindle.trans active.symm⟩

/-! ## Every command -/

theorem Effect.keeps_tracking {s t : State} (h : Effect L s t) (law : TrackingLaw s) : TrackingLaw t := by
  have quiet {s t : State} (h : s.hushed L t) (law : TrackingLaw s) : TrackingLaw t := law.acts (Acts.quiet h)
  cases h with
  | acts h => exact law.acts h
  | cut sh c before _ winds after => exact quiet after ((quiet before law).takeCut winds c)
  | start sh st later before _ rests _ after => exact quiet after ((quiet before law).start rests st)
  | halt sh before _ after => exact quiet after ((quiet before law).halt sh)
  | enable n before off web apart after => exact quiet after ((quiet before law).enableLane off web apart)
  | disable n before _ after => exact quiet after ((quiet before law).disableLane n)
  | retire g r before there doffed after => exact quiet after ((quiet before law).freeReel there doffed)

theorem TrackingLaw.congr {s t : State} (law : TrackingLaw s) (table : t.table = s.table) (map : t.map = s.map)
    (shafts : t.shafts = s.shafts) : TrackingLaw t := by
  refine trackingLaw_iff.mpr ((trackingLaw_iff.mp law).goesOn (.of_table table) (State.windsOn_of_shafts shafts) fun n => ?_)
  have same : t.lane n = s.lane n := by unfold State.lane; rw [map]
  rw [same]
  exact ⟨rfl, fun h => h, fun _ => rfl⟩

theorem Course.keeps_tracking {s t : State} (h : Course s t) (law : TrackingLaw s) : TrackingLaw t := by
  cases h with
  | effect h => exact h.keeps_tracking law
  | powerUp => exact TrackingLaw.reset.congr rfl rfl rfl
  | begins => exact law.congr rfl rfl rfl
  | load ack loads =>
    obtain ⟨w, l, quiet⟩ := s.completeLoad_quietly (loadImage ack s.store.eeprom)
    have loaded : TrackingLaw (s.loadedWith (loadImage ack s.store.eeprom) w l) := law.congr rfl rfl rfl
    exact loaded.acts (Acts.quiet quiet.loud)

/-- Settles O16: a closed set lies behind its cut, and an opening starts at the latest end of its lane at least. -/
theorem reelsNeverOverlap : Obligations.ReelsNeverOverlap := by
  unfold Obligations.ReelsNeverOverlap
  exact stepKeeps_of_course (fun s _ _ law => TrackingLaw.congr (s := s) law rfl rfl rfl) fun h law => h.keeps_tracking law

end Sys2Proof.Machine
end

section
/-! PROOF. What a command leaves of a record that stays in use (O18). -/

namespace Sys2Proof.Machine

variable {L : Prop}

/-- A record that stays in use goes on, is ended or is closed. -/
def State.grows (s t : State) : Prop := ∀ h, ∀ r ∈ s.reel h, ∀ q ∈ t.reel h, r.Advances q

theorem State.advances.grows {s t : State} (h : s.advances t) : s.grows t := fun g r was q there => by
  obtain ⟨r', was', one⟩ := h g q there
  cases Option.some.inj (was.symm.trans was')
  exact one

/-- Records kept behind a command, or before it. -/
theorem State.grows.before {s u t : State} (same : ∀ h, u.reel h = s.reel h) (h : u.grows t) : s.grows t :=
  fun g r was => h g r ((same g).trans was)

theorem State.grows.after {s u t : State} (h : s.grows u) (same : ∀ h, t.reel h = u.reel h) : s.grows t :=
  fun g r was q there => h g r was q ((same g).symm.trans there)

/-- Every record in use is kept as it stands. -/
theorem State.grows.of_kept {s t : State} (kept : ∀ h, ∀ r ∈ s.reel h, t.reel h = some r) : s.grows t :=
  fun g r was q there => by
    cases Option.some.inj ((kept g r was).symm.trans there)
    exact (Reel.Goes.refl r).advances

/-- What goes on behind an advance without leaving its state has advanced. -/
theorem Reel.Advances.struck {r q p : Reel} (h : r.Advances q) (k : q.Struck p) : r.Advances p := by
  have goes := k.goes
  have state : p.state = q.state := by rw [k.same]
  have footage : p.footage = q.footage := by rw [k.same]
  refine ⟨by rw [goes.same, h.same], by rw [state]; exact h.state, fun e stop => ?_, ReelFlags.under_trans h.flags goes.flags,
    Tallies.upTo_trans h.tallies goes.tallies, h.dropped.trans goes.dropped, h.chain.trans goes.chain,
    h.parents.trans goes.parents, h.computed.trans goes.computed⟩
  rw [goes.stopAt, footage]
  exact h.ended e stop

theorem State.takeCut_grows {s : State} (law : TrackingLaw s) (sh : Shaft) (c : Nat) : s.grows (s.takeCut sh c) := by
  obtain ⟨st, made⟩ := s.cutMade_exists sh c
  have struck := ((s.cutMade sh c).reportCut_struck sh).1
  rw [s.takeCut_eq]
  intro h r was q there
  obtain ⟨p, there', one⟩ := struck.there (made.reels h r was)
  cases Option.some.inj (there'.symm.trans there)
  exact (s.cutReel_closedBy sh c (law.2.1.endsRight was)).advances.struck one

theorem State.openLanes_kept {sh : Shaft} {x : Nat} {pool : State → Pool} {flags : ReelFlags} (ns : List Lane) (s : State)
    {h : Handle} {r : Reel} (was : s.reel h = some r) :
    (ns.foldl (fun u n => u.openForLane n sh (u.shaft sh).active x (pool u) flags) s).reel h = some r := by
  induction ns generalizing s with
  | nil => exact was
  | cons n ns ih =>
    refine ih _ ?_
    obtain ⟨g, st, p, q, _, _, free, _, e⟩ | e := s.openForLane_cases n sh (s.shaft sh).active x (pool s) flags
    · have opens : s.OpensAt (s.openForLane n sh (s.shaft sh).active x (pool s) flags) n sh (s.shaft sh).active x (pool s) flags
          g st := ⟨p, q, e⟩
      refine (opens.reel h).trans ((if_neg fun same => ?_).trans was)
      rw [same, free] at was
      cases was
    · dsimp only
      rw [e]
      exact was

theorem State.start_grows (s : State) (sh : Shaft) (st : PlanStep) : s.grows (s.start sh st) := by
  refine .of_kept fun h r was => ?_
  obtain ⟨u, begun⟩ : ∃ u, u = s.setShaft sh ((s.shaft sh).begin st) := ⟨_, rfl⟩
  have kept := State.openLanes_kept (sh := sh) (x := s.position.p) (pool := fun _ => .unreserved) (flags := .none)
    (u.enabledLanes sh) u (show u.reel h = some r by rw [begun]; exact was)
  obtain ⟨v, opened⟩ : ∃ v, v = (u.enabledLanes sh).foldl
    (fun u n => u.openForLane n sh (u.shaft sh).active s.position.p .unreserved .none) u := ⟨_, rfl⟩
  have whole : s.start sh st = (v.openThresholds sh s.position.p).baseTension sh := by rw [opened, begun]; rfl
  obtain ⟨⟨_, _, _, _, e⟩, -⟩ := v.equip_spec sh s.position.p
  rw [← opened] at kept
  exact (State.reel_of_table (by rw [whole, e]) h).trans kept

theorem State.enableLane_grows (s : State) (n : Lane) : s.grows (s.enableLane n) := by
  refine .of_kept fun h r was => ?_
  unfold State.enableLane
  dsimp only
  split
  · exact was
  · exact State.openLanes_kept (sh := (s.lane n).shaft) (x := s.position.p) (pool := fun _ => .unreserved)
      (flags := { ReelFlags.none with
        lateStart := true, extra := decide ((s.shaft (s.lane n).shaft).phase = .runout) }) [n]
      (s.setLane n { s.lane n with enabled := true }) was

theorem State.halt_grows {s : State} (law : TrackingLaw s) (sh : Shaft) : s.grows (s.halt sh) := by
  obtain ⟨-, -, -, -, -, -, -, reels⟩ := s.halt_spec sh
  intro h r was q there
  rw [Option.mem_def, reels, Option.mem_def.mp was] at there
  cases there
  exact (Reel.closeIf_closedBy (law.2.1.endsRight was) _ _).advances

theorem State.disableLane_grows {s : State} (law : TrackingLaw s) (n : Lane) : s.grows (s.disableLane n) := by
  obtain ⟨-, reels, -⟩ := s.disableLane_spec n
  intro h r was q there
  rw [Option.mem_def, reels, Option.mem_def.mp was] at there
  split at there
  · next current =>
    obtain ⟨r', was', turns, -⟩ := law.1.1 n h current
    cases Option.some.inj (was.symm.trans was')
    cases there
    exact Reel.endByDisable_advances turns ((law.2.1 h r was).2.1.mpr turns) _
  · cases there
    exact (Reel.Goes.refl r).advances

theorem State.freeReel_grows (s : State) (g : Handle) (r : Reel) : s.grows (s.freeReel g r) := by
  intro h q was p there
  rw [Option.mem_def, (s.freeReel_spec g r).1] at there
  split at there
  · cases there
  · cases Option.some.inj (was.symm.trans there)
    exact (Reel.Goes.refl q).advances

theorem State.quietly_reel {s t : State} (h : s.quietly t) (g : Handle) : t.reel g = s.reel g := by
  obtain ⟨_, _, _, _, _, _, rfl⟩ := h
  rfl

theorem Effect.grows {s t : State} (h : Effect L s t) (law : TrackingLaw s) : s.grows t := by
  have around {u v : State} (before : s.hushed L u) (h : TrackingLaw u → u.grows v) (after : v.hushed L t) : s.grows t :=
    .before (State.quietly_reel before.1) (.after (h (law.acts (Acts.quiet before))) (State.quietly_reel after.1))
  cases h with
  | acts h => exact h.goesOn.advances.grows
  | cut sh c before _ _ after => exact around before (fun law => State.takeCut_grows law sh c) after
  | start sh st later before _ _ _ after => exact around before (fun _ => State.start_grows _ sh st) after
  | halt sh before _ after => exact around before (fun law => State.halt_grows law sh) after
  | enable n before _ _ _ after => exact around before (fun _ => State.enableLane_grows _ n) after
  | disable n before _ after => exact around before (fun law => State.disableLane_grows law n) after
  | retire g r before _ _ after => exact around before (fun _ => State.freeReel_grows _ g r) after

theorem Course.grows {s t : State} (h : Course s t) (law : TrackingLaw s) : s.grows t := by
  cases h with
  | effect h => exact h.grows law
  | powerUp kind reset loading =>
    intro h r _ q there
    rw [Option.mem_def, State.powerUp_reel] at there
    cases there
  | begins => exact .of_kept fun _ _ was => was
  | load ack loads =>
    obtain ⟨w, l, quiet⟩ := s.completeLoad_quietly (loadImage ack s.store.eeprom)
    exact .of_kept fun h r was => (State.quietly_reel quiet h).trans was

/-- Settles O18: acts let records go on, and cuts, stops and lane edits end and close them. -/
theorem recordsOnlyGrow : Obligations.RecordsOnlyGrow := by
  unfold Obligations.RecordsOnlyGrow
  intro s t law h g r was q there
  have one : r.Advances q := by
    obtain ⟨rfl, -⟩ | ⟨c, rest, -, -, course⟩ := step_course h
    · cases Option.some.inj (was.symm.trans (show s.reel g = some q from there))
      exact (Reel.Goes.refl r).advances
    · exact course.grows (TrackingLaw.congr (s := s) law rfl rfl rfl) g r was q there
  obtain ⟨same, state, ended, flags, ⟨t₁, t₂, t₃, t₄, t₅, t₆, t₇⟩, dropped, chain, parents, computed⟩ := one
  refine ⟨?_, state, ended, ⟨t₁, t₂, t₃, t₄, t₅, t₆, t₇, dropped⟩, ⟨chain, parents, computed⟩, flags⟩
  rw [same]
  exact ⟨rfl, rfl, rfl, rfl, rfl, rfl, rfl, rfl, rfl, rfl, rfl, rfl, rfl⟩

end Sys2Proof.Machine
end

section
/-! PROOF. The spindle states follow the records through every command (O9). -/

namespace Sys2Proof.Machine

variable {L : Prop}

/-! ## Records on their spindles -/

/-- A record stays on its spindle, or stays off it. -/
def Reel.Sits (r q : Reel) : Prop := q.shaft = r.shaft ∧ q.spindle = r.spindle ∧ q.onSpindle = r.onSpindle

theorem Reel.Sits.refl (r : Reel) : r.Sits r := ⟨rfl, rfl, rfl⟩

theorem Reel.Goes.sits {r q : Reel} (h : r.Goes q) (state : q.state = r.state) : r.Sits q :=
  ⟨by rw [h.same], by rw [h.same], by unfold Reel.onSpindle; rw [state]⟩

theorem Reel.Struck.sits {r q : Reel} (h : r.Struck q) : r.Sits q := h.goes.sits (by rw [h.same])

theorem Reel.Kept.sits {r q : Reel} (h : r.Kept q) : r.Sits q := by
  refine h.goes.sits ?_
  obtain ⟨_, _, _, _, rfl, -⟩ := h
  rfl

/-- A record that a close leaves DOFFING was on its spindle. -/
theorem Reel.close_sits {r : Reel} {sh : Shaft} (closes : r.closes sh = true) (x : Nat) (short : Bool) :
    r.Sits (r.close x short) := by
  obtain ⟨-, turns | ended⟩ := Reel.closes_iff.mp closes
  · rw [Reel.close_winding turns]
    exact ⟨rfl, rfl, by unfold Reel.onSpindle; rw [turns]; rfl⟩
  · rw [Reel.close_ended ended]
    exact ⟨rfl, rfl, by unfold Reel.onSpindle; rw [ended]; rfl⟩

/-- The records of a shaft stay on their spindles. -/
theorem State.recordsOn_congr {s t : State} {sh : Shaft} {sp : Spindle}
    (h : ∀ g, (∀ r ∈ s.reel g, r.shaft = sh → r.onSpindle = true → ∃ q ∈ t.reel g, r.Sits q) ∧
      ∀ q ∈ t.reel g, q.shaft = sh → q.onSpindle = true → ∃ r ∈ s.reel g, r.Sits q) :
    t.recordsOn sh sp = s.recordsOn sh sp := by
  refine State.countReels_congr fun g => ?_
  obtain ⟨forth, back⟩ := h g
  rw [Bool.eq_iff_iff, Option.any_eq_true, Option.any_eq_true]
  simp only [Bool.and_eq_true, decide_eq_true_eq]
  constructor
  · rintro ⟨q, there, ⟨own, place⟩, on⟩
    obtain ⟨r, was, shaft, spindle, on'⟩ := back q there own on
    exact ⟨r, was, ⟨shaft.symm.trans own, spindle.symm.trans place⟩, on'.symm.trans on⟩
  · rintro ⟨r, was, ⟨own, place⟩, on⟩
    obtain ⟨q, there, shaft, spindle, on'⟩ := forth r was own on
    exact ⟨q, there, ⟨shaft.trans own, spindle.trans place⟩, on'.trans on⟩

theorem Reel.Sits.of_rel {x y : Option Reel} (h : Option.Rel Reel.Sits x y) :
    (∀ r ∈ x, ∃ q ∈ y, r.Sits q) ∧ ∀ q ∈ y, ∃ r ∈ x, r.Sits q := by
  cases h with
  | none => exact ⟨fun r there => (Option.not_mem_none r there).elim, fun r there => (Option.not_mem_none r there).elim⟩
  | @some r q one =>
    exact ⟨fun r' there => ⟨q, rfl, Option.mem_some_iff.mp there ▸ one⟩,
      fun q' there => ⟨r, rfl, Option.mem_some_iff.mp there ▸ one⟩⟩

theorem State.recordsOn_of_rel {s t : State} (h : ∀ g, Option.Rel Reel.Sits (s.reel g) (t.reel g)) (sh : Shaft)
    (sp : Spindle) : t.recordsOn sh sp = s.recordsOn sh sp :=
  State.recordsOn_congr fun g =>
    ⟨fun r was _ _ => (Reel.Sits.of_rel (h g)).1 r was, fun q there _ _ => (Reel.Sits.of_rel (h g)).2 q there⟩

/-! ## The spindle law -/

/-- A shaft record that leaves its spindles as they follow from the records. -/
def ShaftRec.Holds (r q : ShaftRec) : Prop :=
  (q.phase = .idle ↔ r.phase = .idle) ∧ q.active = r.active ∧ q.spindle1 = r.spindle1 ∧ q.spindle2 = r.spindle2

theorem ShaftRec.Holds.refl (r : ShaftRec) : r.Holds r := ⟨.rfl, rfl, rfl, rfl⟩

/-- What `SpindleLaw` says of one shaft. -/
def State.spindlesTrue (s : State) (sh : Shaft) : Prop := ∀ sp, (s.shaft sh).spindle sp = s.spindleStateOf sh sp

theorem State.spindlesTrue.congr {s t : State} {sh : Shaft} (h : s.spindlesTrue sh)
    (records : ∀ sp, t.recordsOn sh sp = s.recordsOn sh sp) (holds : (s.shaft sh).Holds (t.shaft sh)) : t.spindlesTrue sh := by
  obtain ⟨idle, active, one, two⟩ := holds
  intro sp
  have state : t.spindleStateOf sh sp = s.spindleStateOf sh sp := by
    unfold State.spindleStateOf
    simp only [records, ne_eq, idle, active]
  rw [state, ← h sp]
  cases sp
  · exact one
  · exact two

theorem SpindleLaw.keeps {s t : State} (law : SpindleLaw s) (records : ∀ sh sp, t.recordsOn sh sp = s.recordsOn sh sp)
    (shafts : ∀ sh, (s.shaft sh).Holds (t.shaft sh)) : SpindleLaw t :=
  fun sh => State.spindlesTrue.congr (law sh) (records sh) (shafts sh)

theorem SpindleLaw.of_shafts {s t : State} (law : SpindleLaw s) (h : ∀ g, Option.Rel Reel.Sits (s.reel g) (t.reel g))
    (shafts : t.shafts = s.shafts) : SpindleLaw t :=
  law.keeps (State.recordsOn_of_rel h) fun sh => by
    unfold State.shaft
    rw [shafts]
    exact .refl _

theorem SpindleLaw.of_table {s t : State} (law : SpindleLaw s) (table : t.table = s.table) (shafts : t.shafts = s.shafts) :
    SpindleLaw t := law.of_shafts (fun g => by
      rw [State.reel_of_table table]
      exact Option.rel_refl Reel.Sits.refl _) shafts

theorem SpindleLaw.setShaft {s : State} (law : SpindleLaw s) {sh : Shaft} {q : ShaftRec} (holds : (s.shaft sh).Holds q) :
    SpindleLaw (s.setShaft sh q) := by
  refine law.keeps (fun _ _ => rfl) fun sh' => ?_
  rw [State.setShaft_shaft]
  split
  · next e => rw [e]; exact holds
  · exact .refl _

/-- Spindle states refreshed are true on their shaft. -/
theorem State.refreshSpindles_true {s : State} {sh : Shaft} (others : s.spindlesTrue (other sh)) :
    SpindleLaw (s.refreshSpindles sh) := by
  intro sh'
  obtain rfl | rfl := eq_or_other sh sh'
  · intro sp
    have state : (s.refreshSpindles sh').spindleStateOf sh' sp = s.spindleStateOf sh' sp := by
      unfold State.spindleStateOf
      rw [s.refreshSpindles_shaft]
      rfl
    rw [state, s.refreshSpindles_shaft]
    cases sp <;> rfl
  · refine others.congr (fun _ => rfl) ?_
    rw [s.refreshSpindles_other]
    exact .refl _

theorem State.spindlesTrue.doff {s : State} {sh : Shaft} (h : s.spindlesTrue (other sh)) (sp : Spindle) (assumed : Bool) :
    (s.doff sh sp assumed).spindlesTrue (other sh) := by
  refine h.congr (fun sp' => State.recordsOn_congr fun g => ?_) (by rw [State.doff_shaft]; exact .refl _)
  rw [s.doff_reel]
  have away {r : Reel} (own : r.shaft = other sh) : ¬ (r.shaft = sh ∧ r.spindle = sp ∧ r.state = .doffing) := fun h => by
    rw [own] at h
    exact other_ne sh h.1
  refine ⟨fun r was own on => ⟨r, ?_, .refl r⟩, fun q there own on => ?_⟩
  · rw [Option.mem_def, Option.mem_def.mp was, Option.map_some, if_neg (away own)]
  · obtain ⟨r, was, e⟩ := Option.mem_map.mp there
    have same : r.shaft = q.shaft := by rw [← e]; split <;> rfl
    rw [if_neg (away (same.trans own))] at e
    exact ⟨r, was, e ▸ .refl r⟩

theorem State.struck.sits {s t : State} (h : s.struck t) (g : Handle) : Option.Rel Reel.Sits (s.reel g) (t.reel g) :=
  Option.rel_imp Reel.Struck.sits (h g)

theorem Act.keeps_spindles {s t : State} (h : Act L s t) (law : SpindleLaw s) : SpindleLaw t := by
  have fallen {t : State} (falls : Falls s t) : SpindleLaw t := law.of_shafts falls.struck.sits falls.shafts
  cases h with
  | quiet h => obtain ⟨⟨_, _, _, _, _, _, rfl⟩, _⟩ := h; exact law.of_table (s := s) rfl rfl
  | decode pair => obtain ⟨_, _, e⟩ := s.decodePair_frame pair; exact law.of_table (by rw [e]) (by rw [e])
  | taken w a own h => exact fallen (State.takeArrival_falls h)
  | arm w x own => obtain ⟨_, _, e⟩ := s.arm_frame w x; exact law.of_table (by rw [e]) (by rw [e])
  | refer n on =>
    rw [s.setReference_map]
    generalize (s.setReference n).map = m
    exact law.of_table (s := s) rfl rfl
  | records v kept => exact law.of_shafts (fun g => Option.rel_imp Reel.Kept.sits (kept g)) rfl
  | land h m => exact fallen (.single (.land s h m))
  | unload sh sp assumed => exact State.refreshSpindles_true (State.spindlesTrue.doff (law (other sh)) sp assumed)
  | shaft sh r h => exact law.setShaft ⟨h.2.2.2.2, h.2.1, h.2.2.1, h.2.2.2.1⟩
  | reserve sh n _ => exact law.of_shafts (s := s) (fun g => Option.rel_refl Reel.Sits.refl _) rfl
  | release sh n _ => exact law.of_shafts (s := s) (fun g => Option.rel_refl Reel.Sits.refl _) rfl
  | accept e _ => exact fallen (s.acceptEntry_falls e)
  | knife a h => exact fallen ((State.takeArrival_falls h).trans (State.knifePass_falls _))
  | nip sh a h => exact fallen ((State.takeArrival_falls h).trans (State.releasePass_falls _ sh))
  | cutReported sh => exact fallen (.head (s.clearLatch_fall sh) (State.releasePass_falls _ sh))
  | _ => exact law.of_table (s := s) rfl rfl

theorem SpindleLaw.acts {s t : State} (law : SpindleLaw s) (h : Acts L s t) : SpindleLaw t := by
  induction h with
  | refl => exact law
  | tail _ act ih => exact act.keeps_spindles ih

/-! ## Openings and closings -/

theorem SpindleLaw.openForLane {s : State} (law : SpindleLaw s) (n : Lane) (sh : Shaft) (sp : Spindle) (x : Nat) (pool : Pool)
    (flags : ReelFlags) : SpindleLaw (s.openForLane n sh sp x pool flags) := by
  unfold State.openForLane
  split
  · next h t opened =>
    obtain ⟨st, -, -, free, -, table, -⟩ := State.openRecord_spec opened
    have reel (g : Handle) : t.reel g = if g = h then some (s.newReel n sh sp x flags st) else s.reel g := by
      have filled : t.table.reels = s.table.reels.set h (some (s.newReel n sh sp x flags st)) := by rw [table]
      exact (congrArg (fun v : Vector (Option Reel) 96 => v[g]) filled).trans (State.setReel_reel s h g _)
    have others : t.spindlesTrue (other sh) := by
      refine State.spindlesTrue.congr (s := s) (law (other sh)) (fun sp' => State.recordsOn_congr fun g => ?_) ?_
      · rw [reel]
        split
        · next same =>
          rw [same, free]
          refine ⟨fun r there => (Option.not_mem_none r there).elim, fun q there own => ?_⟩
          have new : q.shaft = sh := by rw [← Option.mem_some_iff.mp there]; rfl
          exact absurd (own.symm.trans new) (other_ne sh)
        · exact ⟨fun r was _ _ => ⟨r, was, .refl r⟩, fun q there _ _ => ⟨q, there, .refl q⟩⟩
      · obtain ⟨u, c, rfl⟩ := State.openRecord_frame opened
        exact .refl _
    exact State.refreshSpindles_true (s := t.setLane n { t.lane n with current := some h, untracked := false })
      (others.congr (fun _ => rfl) (.refl _))
  · exact law.of_table (s := s) rfl rfl

theorem SpindleLaw.openLanes {sh : Shaft} {x : Nat} {pool : State → Pool} {flags : ReelFlags} (ns : List Lane) {s : State}
    (law : SpindleLaw s) :
    SpindleLaw (ns.foldl (fun u n => u.openForLane n sh (u.shaft sh).active x (pool u) flags) s) := by
  induction ns generalizing s with
  | nil => exact law
  | cons n ns ih => exact ih (law.openForLane n sh _ x (pool s) flags)

theorem SpindleLaw.closeSet {s : State} (law : SpindleLaw s) (sh : Shaft) (x : Nat) (short : Bool) :
    SpindleLaw (s.closeSet sh x short) := by
  have closed : SpindleLaw (s.closeReels sh x short) := by
    refine law.of_shafts (fun g => ?_) (State.mapReels_shafts ..)
    rw [s.closeReels_reel]
    refine Option.rel_map fun r _ => ?_
    split
    · next closes => exact Reel.close_sits closes x short
    · exact .refl r
  exact closed.acts (L := True) (State.queueClosing_acts ..)

theorem SpindleLaw.takeCut {s : State} (law : SpindleLaw s) {sh : Shaft} (winds : (s.shaft sh).phase ≠ .idle) (c : Nat) :
    SpindleLaw (s.takeCut sh c) := by
  have first : Acts True s ((s.fireUpTo sh c true allThresholds).assumeUnload sh) :=
    (s.fireUpTo_acts ..).trans (State.assumeUnload_acts ..)
  have counted : SpindleLaw (s.cutCounted sh c) := by
    have closed := (law.acts first).closeSet sh c ((((s.fireUpTo sh c true allThresholds).assumeUnload sh).shaft sh).short)
    have goes := State.closeSet_windsOn ((s.fireUpTo sh c true allThresholds).assumeUnload sh) sh c
      ((((s.fireUpTo sh c true allThresholds).assumeUnload sh).shaft sh).short)
    have winds := mt ((State.windsOn_trans first.windsOn goes sh).1).mp winds
    unfold State.cutCounted
    dsimp only
    generalize ((s.fireUpTo sh c true allThresholds).assumeUnload sh).closeSet sh c
      ((((s.fireUpTo sh c true allThresholds).assumeUnload sh).shaft sh).short) = u at *
    have turned : SpindleLaw (u.turnOver sh) := State.refreshSpindles_true
      (State.spindlesTrue.congr (s := u) (closed (other sh)) (fun _ => rfl) (by rw [State.setShaft_shaft_other]; exact .refl _))
    have phase := u.turnOver_phase sh
    generalize u.turnOver sh = v at *
    have winds : (v.shaft sh).phase ≠ .idle := phase ▸ winds
    have set : SpindleLaw (v.setShaft sh (v.shaft sh).countSet.1) := by
      refine turned.setShaft ⟨⟨fun h => absurd h (ShaftRec.countSet_winds winds), fun h => absurd h winds⟩, ?_, ?_, ?_⟩ <;>
        rw [ShaftRec.countSet_eq]
    exact set.acts (Acts.quiet (State.raiseIf_quietly ..).loud)
  have opened : SpindleLaw ((s.cutCounted sh c).openSet sh c (s.shaft sh).phase) :=
    SpindleLaw.openLanes (pool := fun v => v.cutPool sh (s.shaft sh).phase) _ (counted.acts (Acts.quiet (State.raiseIf_quietly ..).loud))
  exact opened.acts (L := True) (s.takeCut_acts sh c)

/-! ## Starts, stops and lane edits -/

theorem ShaftRec.begin_spindles (r : ShaftRec) (st : PlanStep) (sp : Spindle) : (r.begin st).spindle sp = r.spindle sp := by
  cases sp <;> rfl

/-- A start on an EMPTY spindle leaves the spindle states true (R106). -/
theorem SpindleLaw.begin {s : State} (law : SpindleLaw s) {sh : Shaft} (rests : (s.shaft sh).phase = .idle)
    (empty : (s.shaft sh).spindle1 = .empty ∨ (s.shaft sh).spindle2 = .empty) (st : PlanStep) :
    SpindleLaw (s.setShaft sh ((s.shaft sh).begin st)) := by
  intro sh'
  obtain rfl | rfl := eq_or_other sh sh'
  · intro sp
    have chosen : (s.shaft sh').spindle ((s.shaft sh').begin st).active = .empty := by
      show (s.shaft sh').spindle (if (s.shaft sh').spindle1 = .empty then .one else .two) = .empty
      split
      · next first => exact first
      · next first => exact empty.resolve_left first
    rw [State.setShaft_shaft_self, ShaftRec.begin_spindles]
    unfold State.spindleStateOf
    rw [State.setShaft_shaft_self]
    show (s.shaft sh').spindle sp = if s.recordsOn sh' sp = 0 then .empty else _
    by_cases none : s.recordsOn sh' sp = 0
    · rw [if_pos none, law sh' sp]
      exact if_pos none
    · have full : (s.shaft sh').spindle sp = .full := by
        rw [law sh' sp]
        unfold State.spindleStateOf
        rw [if_neg none, if_neg fun h => h.1 rests]
      rw [if_neg none, if_neg fun h => ?_, full]
      rw [h.2, full] at chosen
      cases chosen
  · exact State.spindlesTrue.congr (s := s) (law (other sh)) (fun _ => rfl) (by
      rw [State.setShaft_shaft_other]
      exact .refl _)

theorem SpindleLaw.start {s : State} (law : SpindleLaw s) {sh : Shaft} (rests : (s.shaft sh).phase = .idle)
    (empty : (s.shaft sh).spindle1 = .empty ∨ (s.shaft sh).spindle2 = .empty) (st : PlanStep) :
    SpindleLaw (s.start sh st) := by
  have opened := SpindleLaw.openLanes (sh := sh) (x := s.position.p) (pool := fun _ => .unreserved) (flags := .none)
    ((s.setShaft sh ((s.shaft sh).begin st)).enabledLanes sh) (law.begin rests empty st)
  exact opened.acts (L := True) ((State.openThresholds_acts _ sh s.position.p).trans (State.baseTension_acts ..))

theorem SpindleLaw.halt {s : State} (law : SpindleLaw s) (sh : Shaft) : SpindleLaw (s.halt sh) := by
  have closed := (law.closeSet sh s.position.p false).acts (L := True) (State.releaseReserved_acts _ sh)
  unfold State.halt
  dsimp only
  generalize (s.closeSet sh s.position.p false).releaseReserved sh = u at *
  have stopped : SpindleLaw ((u.setShaft sh (u.shaft sh).halt).refreshSpindles sh) := State.refreshSpindles_true
    (State.spindlesTrue.congr (s := u) (closed (other sh)) (fun _ => rfl) (by rw [State.setShaft_shaft_other]; exact .refl _))
  have disarmed := stopped.acts (L := True) (State.disarmThresholds_acts _ sh)
  generalize ((u.setShaft sh (u.shaft sh).halt).refreshSpindles sh).disarmThresholds sh = v at *
  exact disarmed.of_table (State.mapLanes_table ..) (State.mapLanes_shafts ..)

theorem SpindleLaw.enableLane {s : State} (law : SpindleLaw s) (n : Lane) : SpindleLaw (s.enableLane n) := by
  have on : SpindleLaw (s.setLane n { s.lane n with enabled := true }) := law.of_table (s := s) rfl rfl
  unfold State.enableLane
  dsimp only
  split
  · exact on
  · exact on.openForLane n _ _ _ _ _

/-- The tracking laws make a disabled lane's current reel a WINDING one, which stays on its spindle as it is ended. -/
theorem SpindleLaw.disableLane {s : State} (law : SpindleLaw s) (tracking : TrackingLaw s) (n : Lane) :
    SpindleLaw (s.disableLane n) := by
  obtain ⟨-, reels, shafts⟩ := s.disableLane_spec n
  refine law.of_shafts (fun g => ?_) shafts
  rw [reels]
  split
  · next current =>
    obtain ⟨r, was, turns, -⟩ := tracking.1.1 n g current
    rw [was]
    exact .some ⟨rfl, rfl, by unfold Reel.onSpindle; rw [turns]; rfl⟩
  · exact Option.rel_refl Reel.Sits.refl _

theorem SpindleLaw.freeReel {s : State} (law : SpindleLaw s) {g : Handle} {r : Reel} (there : s.reel g = some r)
    (doffed : r.state = .doffed) : SpindleLaw (s.freeReel g r) := by
  obtain ⟨reels, -, -⟩ := s.freeReel_spec g r
  have raised (q : ShaftRec) : q.Holds q.retryRaised := by
    unfold ShaftRec.retryRaised
    split <;> exact ⟨.rfl, rfl, rfl, rfl⟩
  refine law.keeps (fun sh sp => State.recordsOn_congr fun h => ?_) fun sh => by
    cases sh
    · exact raised s.shafts.a
    · exact raised s.shafts.b
  rw [reels]
  split
  · next same =>
    rw [same, there]
    refine ⟨fun q was _ on => ?_, fun q now => (Option.not_mem_none q now).elim⟩
    rw [← Option.mem_some_iff.mp was, Reel.onSpindle, doffed] at on
    cases on
  · exact ⟨fun q was _ _ => ⟨q, was, .refl q⟩, fun q now _ _ => ⟨q, now, .refl q⟩⟩

/-! ## Every command -/

theorem Effect.keeps_spindles {s t : State} (h : Effect L s t) (tracking : TrackingLaw s) (law : SpindleLaw s) :
    SpindleLaw t := by
  have quiet {s t : State} (h : s.hushed L t) (law : SpindleLaw s) : SpindleLaw t := law.acts (Acts.quiet h)
  cases h with
  | acts h => exact law.acts h
  | cut sh c before _ winds after => exact quiet after ((quiet before law).takeCut winds c)
  | start sh st later before _ rests empty after => exact quiet after ((quiet before law).start rests empty st)
  | halt sh before _ after => exact quiet after ((quiet before law).halt sh)
  | enable n before off web apart after => exact quiet after ((quiet before law).enableLane n)
  | disable n before _ after =>
    exact quiet after ((quiet before law).disableLane (tracking.acts (Acts.quiet before)) n)
  | retire g r before there doffed after => exact quiet after ((quiet before law).freeReel there doffed)

theorem Course.keeps_spindles {s t : State} (h : Course s t) (tracking : TrackingLaw s) (law : SpindleLaw s) :
    SpindleLaw t := by
  cases h with
  | effect h => exact h.keeps_spindles tracking law
  | powerUp => exact SpindleLaw.reset.of_table rfl rfl
  | begins => exact law.of_table (s := s) rfl rfl
  | load ack loads =>
    obtain ⟨w, l, quiet⟩ := s.completeLoad_quietly (loadImage ack s.store.eeprom)
    have loaded : SpindleLaw (s.loadedWith (loadImage ack s.store.eeprom) w l) := law.of_table (s := s) rfl rfl
    exact loaded.acts (Acts.quiet quiet.loud)

/-- Settles O9: the counts of the records are taken where records change, and a step is loaded from the plan alone. -/
theorem spindlesFollowTheirRecords : Obligations.SpindlesFollowTheirRecords := by
  unfold Obligations.SpindlesFollowTheirRecords
  refine ⟨stepKeeps_of_course (fun s _ _ law => ⟨law.1.of_table (s := s) rfl rfl, law.2.congr (s := s) rfl rfl rfl⟩)
    fun h law => ⟨h.keeps_spindles law.2 law.1, h.keeps_tracking law.2⟩, ?_⟩
  exact stepKeeps_of_course (fun _ _ _ law => law) fun h law => h.keeps_plans law

end Sys2Proof.Machine
end

section
/-! PROOF. ATTN follows the alerts (O14): every command but those that reach into the hold unit or restart the part is calm
up to the end of its event, and the rest write the digest unit by a re-evaluation of ATTN. -/

namespace Sys2Proof.Machine

variable {L : Prop}

/-! ## Calm commands -/

theorem State.raiseIf_calm (s : State) (c : Bool) (a : Alert) (other : a ≠ .holdChanged := by simp) :
    s.calm (s.raiseIf c a) :=
  (s.raiseIf_hushed (L := False) c a other).2.resolve_left (fun h => h)

theorem State.land_calm (s : State) (h : Handle) (m : Mark) : s.calm (s.land h m) := by
  unfold State.land
  split
  · exact s.calm_refl
  · dsimp only
    refine State.calm_trans (State.calm_trans ?_ (State.raiseIf_calm _ _ .marksDropped)) (State.raiseIf_calm _ _ .lateChange)
    split <;> exact State.calm_of_same rfl rfl rfl

theorem Deed.calm {s t : State} (h : Deed False s t) : s.calm t := by
  cases h with
  | quiet h => exact h.2.resolve_left id
  | store x same _ _ _ stays =>
    refine State.calm_of_same rfl rfl (stays.resolve_left id) ?_
    rw [show (s.setStore x).settings = s.settings from same]
    exact s.settings.sameMarks_refl
  | begins loud _ => exact loud.elim
  | settings x _ _ _ stays => exact State.calm_of_same rfl rfl rfl (stays.resolve_left id)
  | land h m => exact s.land_calm h m
  | opening n sh sp x pool flags _ =>
    obtain ⟨_, _, _, _, _, e⟩ := s.openForLane_frame n sh sp x pool flags
    rw [e]
    exact State.calm_of_same rfl rfl rfl
  | _ => exact State.calm_of_same rfl rfl rfl

theorem Deeds.calm {s t : State} (h : Deeds False s t) : s.calm t := by
  induction h with
  | refl => exact s.calm_refl
  | tail _ d ih => exact State.calm_trans ih d.calm

/-- Up to the end of its event, a command that is not loud leaves the hold unit and HOLD_CHANGED alone. -/
theorem Effect.calm {s t : State} (h : Effect False s t) : s.calm t :=
  h.keeps (law := fun u => s.calm u) (fun d law => State.calm_trans law d.calm)
    (fun _ _ law => State.calm_trans law (State.calm_of_same rfl rfl rfl)) s.calm_refl

theorem Effect.now {s t : State} (h : Effect L s t) : t.now = s.now :=
  h.keeps (law := fun u => u.now = s.now) (fun d law => d.queue.2.trans law) (fun _ _ law => law) rfl

/-! ## Loud commands -/

/-- What a request does: the port's refusal, or the reply's state with the port's answer. -/
theorem State.carryOut_cases (s : State) (i : Instr) (act : State → Reply) :
    (∃ p, s.carryOut i act = s.setPort p) ∨
      ∃ q p, s.carryOut i act = ((act (s.setPort q)).state).setPort p := by
  have finish (r : Reply) (code : Byte) : ∃ p, r.finish code = r.state.setPort p := by
    unfold Reply.finish
    split <;> exact ⟨_, rfl⟩
  unfold State.carryOut
  split
  · exact .inl ⟨s.port, rfl⟩
  · split
    · exact .inl ⟨s.port, rfl⟩
    · exact .inl ⟨_, rfl⟩
    · exact .inl ⟨_, rfl⟩
    · exact .inr ⟨s.port, finish _ _⟩
    · exact .inr ⟨_, finish _ _⟩

/-- What a loud command, but for the expiry of a hold's timer, does before the end of its event. -/
inductive State.Loud (s : State) : Instr → State → Prop
  | port (c : Instr) (p : Port) : s.Loud c (s.setPort p)
  | ended : s.Loud .overrideExpiry (s.setHold { s.hold with override := none })
  | override (q p : Port) : s.Loud .holdOverride ((s.setPort q).startOverride.setPort p)
  | clear (q p : Port) (tag : Word16) (alerts : BitVec 24) :
      s.Loud (.clearAlerts tag alerts) (((s.setPort q).updateDigest (s.digest.clear tag alerts)).setPort p)
  | travel (q p : Port) (lower upper : Word32) :
      s.Loud (.setSettingsTravelWatermarks lower upper) ((((s.setPort q).setSettings { s.settings with
        travelLower := lower.toNat, travelUpper := upper.toNat }).applyTravelMarks).setPort p)
  | marks (q p : Port) (lower upper : Word32) :
      s.Loud (.setSettingsMarkWatermarks lower upper) ((((s.setPort q).setSettings { s.settings with
        markLower := lower.toNat, markUpper := upper.toNat }).applyMarkMarks).setPort p)

theorem State.setItem_state (t : State) (valid same : Bool) (change : Reply) :
    (t.setItem valid same change).state = t ∨ (t.setItem valid same change).state = change.state := by
  unfold State.setItem
  split_ifs <;> simp [Reply.code]

theorem exec_loud {c : Instr} (goes : loud c = true) (timer : ∀ l, c ≠ .holdTimerExpiry l) (s : State) :
    ∃ u, exec c s = .next (s.settle u) ∧ s.Loud c u := by
  cases c with
  | holdTimerExpiry l => exact absurd rfl (timer l)
  | overrideExpiry =>
    by_cases h : (stands s.now s.hold.override && !s.inReset) = true
    · have settled : s.settle (s.setHold { s.hold with override := none }) = s.setHold { s.hold with override := none } :=
        State.settle_same rfl rfl rfl rfl
      exact ⟨_, by rw [settled]; exact congrArg Host.Outcome.next (if_pos h), .ended⟩
    · exact ⟨s.setPort s.port, by rw [State.settle_setPort]; exact congrArg Host.Outcome.next (if_neg h), .port _ s.port⟩
  | holdOverride =>
    refine ⟨_, rfl, ?_⟩
    obtain ⟨p, e⟩ | ⟨q, p, e⟩ := s.carryOut_cases .holdOverride fun t => Reply.code t.startOverride .ok
    · rw [e]; exact .port _ p
    · rw [e]; exact .override q p
  | clearAlerts tag alerts =>
    have settled := (s.unfed_carryOut (.clearAlerts tag alerts) fun t => t.unfed_clearAlerts tag alerts).settle
    refine ⟨_, by rw [settled]; rfl, ?_⟩
    obtain ⟨p, e⟩ | ⟨q, p, e⟩ := s.carryOut_cases (.clearAlerts tag alerts) fun t => t.clearAlerts tag alerts
    · rw [e]; exact .port _ p
    · rw [e]
      unfold State.clearAlerts
      split
      · exact .clear q p tag alerts
      · exact .port _ p
  | setSettingsTravelWatermarks lower upper =>
    refine ⟨_, rfl, ?_⟩
    obtain ⟨p, e⟩ | ⟨q, p, e⟩ := s.carryOut_cases (.setSettingsTravelWatermarks lower upper) fun t =>
      t.setItem (travelMarksValid lower.toNat upper.toNat)
        (decide (lower.toNat = t.settings.travelLower) && decide (upper.toNat = t.settings.travelUpper))
        (Reply.code (State.applyTravelMarks (t.setSettings
          { t.settings with travelLower := lower.toNat, travelUpper := upper.toNat })) .ok)
    · rw [e]; exact .port _ p
    · rw [e]
      obtain same | same := State.setItem_state (s.setPort q) _ _ _
      · rw [same]; exact .port _ p
      · rw [same]; exact .travel q p lower upper
  | setSettingsMarkWatermarks lower upper =>
    refine ⟨_, rfl, ?_⟩
    obtain ⟨p, e⟩ | ⟨q, p, e⟩ := s.carryOut_cases (.setSettingsMarkWatermarks lower upper) fun t =>
      t.setItem (markMarksValid lower.toNat upper.toNat)
        (decide (lower.toNat = t.settings.markLower) && decide (upper.toNat = t.settings.markUpper))
        (Reply.code (State.applyMarkMarks (t.setSettings
          { t.settings with markLower := lower.toNat, markUpper := upper.toNat })) .ok)
    · rw [e]; exact .port _ p
    · rw [e]
      obtain same | same := State.setItem_state (s.setPort q) _ _ _
      · rw [same]; exact .port _ p
      · rw [same]; exact .marks q p lower upper
  | _ => cases goes

/-- A command that neither restarts the part nor expires a hold's timer is calm up to the end of its event, or loud. -/
theorem exec_ends {c : Instr} (goes : restarts c = false) (timer : ∀ l, c ≠ .holdTimerExpiry l) (s : State) :
    ∃ u, exec c s = .next (s.settle u) ∧ (s.calm u ∧ u.now = s.now ∨ s.Loud c u) := by
  cases noise : loud c with
  | true =>
    obtain ⟨u, next, isLoud⟩ := exec_loud noise timer s
    exact ⟨u, next, .inr isLoud⟩
  | false =>
    obtain ⟨t, next, u, effect, rfl⟩ := exec_event (L := False) goes timer (fun h => by rw [noise] at h; cases h) s
    exact ⟨u, next, .inl ⟨effect.calm, effect.now⟩⟩

/-- A law that stands at the end of every calm and every loud event, and behind the expiry of a hold's timer, is kept by
every command that does not restart the part. -/
theorem exec_keeps {law : State → Prop} {c : Instr} (goes : restarts c = false) {s t : State} (holds : law s)
    (ends : ∀ {u}, s.calm u ∧ u.now = s.now ∨ s.Loud c u → law (s.settle u))
    (expire : ∀ {line e}, s.hold.expiry line = some e → s.inReset = false →
      law (s.announce (s.setHold (s.hold.expire e s.settings.quantum line)))) (h : exec c s = .next t) : law t := by
  by_cases timer : ∀ l, c ≠ .holdTimerExpiry l
  · obtain ⟨u, next, does⟩ := exec_ends goes timer s
    rw [next] at h
    cases h
    exact ends does
  · obtain ⟨l, rfl⟩ := not_forall_not.mp timer
    cases h
    split
    · exact holds
    · next e runs =>
      split
      · exact holds
      · next stands =>
        refine expire runs (Bool.eq_false_iff.mpr fun reset => stands ?_)
        rw [reset, Bool.true_or]

/-! ## Commands that restart the part -/

/-- What a command that starts the part, resets it or ends a reset or the settings load does. -/
inductive State.Restart (s : State) : State → Prop
  | port (p : Port) : s.Restart (s.setPort p)
  | powerUp (u : State) (kind : ResetKind) {reset : ResetActivity} {loading : Bool}
      (how : (reset = .none ∧ loading = true) ∨ (reset = .clearing ∧ loading = false)) :
      s.Restart (u.powerUp kind reset loading)
  | take : s.Restart s.takeReset
  | ends : s.Restart s.endReset
  | load (ack : Bool) (loads : s.store.loading = true) : s.Restart (s.completeLoad (loadImage ack s.store.eeprom))
  | part (q p : Port) : s.Restart ((s.setPort q).takeReset.endReset.setPort p)

theorem exec_restart {c : Instr} (goes : restarts c = true) {s t : State} (h : exec c s = .next t) : s.Restart t := by
  cases c with
  | powerOn =>
    cases h
    unfold State.powerOn
    split
    · exact .powerUp _ _ (.inr ⟨rfl, rfl⟩)
    · exact .powerUp _ _ (.inl ⟨rfl, rfl⟩)
  | warmReset =>
    cases h
    split
    · exact .port s.port
    · exact .take
  | resetEnd => cases h; exact .ends
  | settingsLoadComplete ack =>
    cases h
    split
    · next loads => exact .load ack loads
    · exact .port s.port
  | resetPart =>
    cases h
    obtain ⟨p, e⟩ | ⟨q, p, e⟩ := s.carryOut_cases .resetPart fun t => { state := t.takeReset.endReset, answer := none }
    · rw [e]; exact .port p
    · rw [e]; exact .part q p
  | _ => cases goes

end Sys2Proof.Machine
end

section
/-! PROOF. ATTN (O14). -/

namespace Sys2Proof.Machine

/-! ## ATTN in step -/

theorem attnLaw_iff {s : State} : AttnLaw s ↔ BlankLaw s ∧ s.heeds := by
  have masks : (∃ c ∈ s.digest.alerts.toList, c.isSet = true ∧ c.masked = false) ↔
      s.digest.alerts.toList.any (fun c => c.isSet && !c.masked) = true := by
    simp only [List.any_eq_true, Bool.and_eq_true, Bool.not_eq_true']
  refine and_congr_right fun _ => ?_
  unfold State.heeds DigestUnit.calls
  rw [masks]
  refine Iff.trans ?_ Bool.eq_iff_iff.symm
  simp only [Bool.and_eq_true, Bool.not_eq_true', decide_eq_true_eq]

theorem State.heeds.congr {s t : State} (law : s.heeds) (digest : t.digest = s.digest)
    (reset : t.inReset = s.inReset) : t.heeds := by
  unfold State.heeds at *
  rw [digest, reset]
  exact law

theorem State.updateDigest_heeds (s : State) (d : DigestUnit) : (s.updateDigest d).heeds := rfl

theorem State.heeds.raiseIf {s : State} (law : s.heeds) (c : Bool) (a : Alert) : (s.raiseIf c a).heeds := by
  unfold State.raiseIf
  split
  · exact s.updateDigest_heeds _
  · exact law

theorem State.heeds.takeCauses {s : State} (law : s.heeds) (c : Causes) : (s.takeCauses c).heeds := by
  obtain ⟨h, e⟩ := s.takeCauses_frame c
  rw [e]
  exact law.congr rfl rfl

theorem State.heeds.settle {u : State} (law : u.heeds) (s : State) : (s.settle u).heeds := by
  unfold State.settle
  split
  · exact law
  · have counted : (s.takeCounts u).heeds := law.congr rfl rfl
    exact (counted.takeCauses _).raiseIf _ _

theorem State.Loud.heeds {s u : State} {c : Instr} (h : s.Loud c u) (law : s.heeds) : u.heeds := by
  cases h with
  | port c p => exact law.congr rfl rfl
  | ended => exact law.congr rfl rfl
  | override q p => exact law.congr rfl rfl
  | clear q p tag alerts => exact State.heeds.congr (State.updateDigest_heeds (s.setPort q) _) rfl rfl
  | travel q p lower upper =>
    have set : ((s.setPort q).setSettings { s.settings with travelLower := lower.toNat, travelUpper := upper.toNat }).heeds :=
      law.congr rfl rfl
    exact (set.takeCauses _).congr rfl rfl
  | marks q p lower upper =>
    have set : ((s.setPort q).setSettings { s.settings with markLower := lower.toNat, markUpper := upper.toNat }).heeds :=
      law.congr rfl rfl
    exact (set.takeCauses _).congr rfl rfl

/-! ## Resets and the load -/

theorem DigestUnit.initial_heeds {s : State} (digest : s.digest = .initial) : s.heeds := by
  have quiet : DigestUnit.initial.calls = false := by decide
  unfold State.heeds
  rw [digest, quiet, Bool.and_false]
  rfl

theorem State.takeReset_heeds (s : State) : s.takeReset.heeds := by
  unfold State.takeReset
  split
  · exact State.updateDigest_heeds _ _
  · exact DigestUnit.initial_heeds rfl

/-- The end of a reset resets the digest unit; at the end of a clearing one it still stands at its power-on values. -/
theorem State.endReset_heeds {s : State} (law : s.heeds) (clearing : s.store.reset = .clearing → s.digest = .initial) :
    s.endReset.heeds := by
  unfold State.endReset
  split
  · exact law
  · next clears => exact DigestUnit.initial_heeds (clearing clears)
  · have units : s.renewUnits.heeds := (DigestUnit.initial_heeds rfl).raiseIf _ _
    have work : (s.renewUnits.setEngine s.renewUnits.engine.renewed).chooseWork.heeds :=
      ((State.chooseWork_acts (L := False) _).deeds.calm).2.2.2.2 (units.congr rfl rfl)
    exact work.settle _

theorem State.heeds.completeLoad {s : State} (law : s.heeds) (image : Option Settings) : (s.completeLoad image).heeds := by
  have put : (s.putLoaded image).heeds := law.congr rfl rfl
  unfold State.completeLoad
  simp only []
  have referred := State.heeds.congr (t := State.firstReference _ s.settings.nEnc)
    (put.raiseIf image.isNone .settingsDefaulted) rfl rfl
  generalize State.firstReference _ s.settings.nEnc = u at *
  have armed : (u.armSweep (u.position.p + u.settings.sweepInterval)).heeds :=
    ((Deeds.calm (Act.deeds (L := False) (State.armSweep_act u _)))).2.2.2.2 referred
  exact ((armed.takeCauses _).takeCauses _).raiseIf _ _

theorem exec_heeds {c : Instr} {s t : State} (law : AttnLaw s) (h : exec c s = .next t) : t.heeds := by
  obtain ⟨blank, heeds⟩ := attnLaw_iff.mp law
  cases goes : restarts c with
  | false =>
    refine exec_keeps goes heeds (fun does => State.heeds.settle ?_ s) (fun {line e} _ _ => ?_) h
    · obtain ⟨⟨_, _, _, _, keeps⟩, _⟩ | noise := does
      · exact keeps heeds
      · exact noise.heeds heeds
    · have set : (s.setHold (s.hold.expire e s.settings.quantum line)).heeds := heeds.congr rfl rfl
      exact set.raiseIf _ _
  | true =>
    cases exec_restart goes h with
    | port p => exact heeds.congr rfl rfl
    | powerUp => exact DigestUnit.initial_heeds rfl
    | take => exact s.takeReset_heeds
    | ends => exact State.endReset_heeds heeds fun clears => (blank.2.1 clears).2.2
    | load ack _ => exact heeds.completeLoad _
    | part q p => exact (State.endReset_heeds (State.takeReset_heeds _) fun clears =>
        ((State.takeReset_blankLaw _).2.1 clears).2.2).congr rfl rfl

/-- Settles O14: no block writes the digest unit but by a re-evaluation of ATTN. -/
theorem attentionFollowsTheAlerts : Obligations.AttentionFollowsTheAlerts := by
  unfold Obligations.AttentionFollowsTheAlerts
  intro s t law h
  refine attnLaw_iff.mpr ⟨blankLaw_steps s t law.1 h, ?_⟩
  obtain ⟨rfl, _⟩ | ⟨c, rest, _, next, _⟩ := step_course h
  · exact (attnLaw_iff.mp law).2
  · exact exec_heeds (s := s.setPending rest) law next

end Sys2Proof.Machine
end

section
/-! PROOF. The holds and their lines (O13): how a hold unit stands to its causes after a change of the cause set, and that
every command keeps it. -/

namespace Sys2Proof.Machine

variable {L : Prop}

/-! ## Lines and demands -/

/-- The lines show the holds, and each demanded hold is active: `LineLaw` of a hold unit. -/
def HoldUnit.Lined (h : HoldUnit) : Prop :=
  h.slowLine = h.slow.isSome ∧ h.stopLine = h.stop.isSome ∧ (h.causes.anyStop = true → h.stop.isSome = true) ∧
    (h.slowDemand = true → h.slow.isSome = true)

theorem lineLaw_iff {s : State} : LineLaw s ↔ s.hold.Lined := by
  unfold LineLaw HoldUnit.Lined HoldUnit.slowDemand
  constructor
  · rintro ⟨slow, stop, both, stops, slows⟩
    rw [slow, stop] at *
    refine ⟨slow, stop, stops, fun demand => ?_⟩
    rw [Bool.or_eq_true] at demand
    exact demand.elim slows both
  · rintro ⟨slow, stop, stops, slows⟩
    rw [slow, stop]
    exact ⟨rfl, rfl, fun h => slows (by rw [h, Bool.or_true]), stops, fun h => slows (by rw [h, Bool.true_or])⟩

/-- The SLOW hold's demand after the holds have followed the causes. -/
theorem HoldUnit.follow_slow (h : HoldUnit) (expiry : Nat) :
    (h.follow expiry).slow = if (h.follow expiry).slowDemand then some (h.slow.getD expiry)
      else if h.override.isSome then none else h.slow := by
  unfold HoldUnit.follow HoldUnit.releaseSlow HoldUnit.activateSlow HoldUnit.activateStop HoldUnit.slowDemand
  cases was : h.slow <;> split_ifs <;> simp_all

theorem HoldUnit.follow_slowEntries (h : HoldUnit) (expiry : Nat) :
    (h.follow expiry).slowEntries =
      if h.slow.isNone && (h.follow expiry).slowDemand then satInc h.slowEntries else h.slowEntries := by
  unfold HoldUnit.follow HoldUnit.releaseSlow HoldUnit.activateSlow HoldUnit.activateStop HoldUnit.slowDemand
  cases was : h.slow <;> split_ifs <;> simp_all

theorem HoldUnit.follow_counts (h : HoldUnit) (expiry : Nat) :
    (h.follow expiry).lastTravel = h.lastTravel ∧ (h.follow expiry).lastMarks = h.lastMarks := by
  unfold HoldUnit.follow HoldUnit.releaseSlow HoldUnit.activateSlow HoldUnit.activateStop
  split_ifs <;> exact ⟨rfl, rfl⟩

/-- An active SLOW hold is demanded while the override runs: `OverrideLaw` of a hold unit. -/
def HoldUnit.Freed (h : HoldUnit) : Prop := h.override.isSome = true → h.slow.isSome = true → h.slowDemand = true

theorem overrideLaw_iff {s : State} : OverrideLaw s ↔ (s.inReset = false → s.hold.Freed) := by
  unfold OverrideLaw HoldUnit.Freed
  rw [HoldUnit.slowDemand_iff]

theorem HoldUnit.releaseSlow_freed (h : HoldUnit) : h.releaseSlow.Freed := by
  unfold HoldUnit.releaseSlow HoldUnit.Freed
  split
  · intro _ active
    cases active
  · next stays =>
    intro runs active
    simpa [runs, active] using stays

theorem HoldUnit.follow_freed (h : HoldUnit) (expiry : Nat) : (h.follow expiry).Freed := HoldUnit.releaseSlow_freed _

theorem HoldUnit.Lined.releaseSlow {h : HoldUnit} (law : h.Lined) : h.releaseSlow.Lined := by
  unfold HoldUnit.releaseSlow
  split
  · next falls =>
    obtain ⟨_, stop, stops, _⟩ := law
    refine ⟨rfl, stop, stops, fun demand => ?_⟩
    simp only [Bool.and_eq_true, Bool.not_eq_true'] at falls
    exact absurd (falls.1.2.symm.trans demand) (by decide)
  · exact law

/-- The holds follow their causes: whatever the causes were, the lines then show the demanded holds. -/
theorem HoldUnit.follow_lined {h : HoldUnit} (slow : h.slowLine = h.slow.isSome) (stop : h.stopLine = h.stop.isSome)
    (expiry : Nat) : (h.follow expiry).Lined := by
  obtain ⟨g, hg⟩ : ∃ g, g = h.activateStop expiry := ⟨_, rfl⟩
  have first : g.slowLine = g.slow.isSome ∧ g.stopLine = g.stop.isSome ∧ (g.causes.anyStop = true → g.stop.isSome = true) := by
    rw [hg]
    unfold HoldUnit.activateStop
    split
    · exact ⟨slow, rfl, fun _ => rfl⟩
    · next stays => exact ⟨slow, stop, fun demand => by simpa [demand, Option.isSome_iff_ne_none] using stays⟩
  obtain ⟨slow, stop, stops⟩ := first
  have second : (g.activateSlow expiry).Lined := by
    unfold HoldUnit.activateSlow
    split
    · exact ⟨rfl, stop, stops, fun _ => rfl⟩
    · next stays =>
      exact ⟨slow, stop, stops, fun demand => by simpa [demand, Option.isSome_iff_ne_none] using stays⟩
  unfold HoldUnit.follow
  rw [← hg]
  exact second.releaseSlow

/-- The expiry of a running hold's timer leaves the demanded holds active (R145, R148). -/
theorem HoldUnit.Lined.expire {h : HoldUnit} (law : h.Lined) {line : HoldLine} {e : Nat} (runs : h.expiry line = some e)
    (quantum : Nat) : (h.expire e quantum line).Lined := by
  obtain ⟨slow, stop, stops, slows⟩ := law
  cases line with
  | slow =>
    have active : h.slow = some e := runs
    show (h.expireSlow e quantum).Lined
    unfold HoldUnit.expireSlow
    split
    · exact ⟨by rw [slow, active]; rfl, stop, stops, fun _ => rfl⟩
    · next idle => exact ⟨rfl, stop, stops, fun demand => absurd demand idle⟩
  | stop =>
    have active : h.stop = some e := runs
    show (h.expireStop e quantum).Lined
    unfold HoldUnit.expireStop
    split
    · refine ⟨slow, by rw [stop, active]; rfl, fun _ => rfl, fun _ => slows ?_⟩
      rw [slowDemand, active]
      exact Bool.or_true _
    · next idle =>
      refine HoldUnit.Lined.releaseSlow ⟨slow, rfl, fun demand => absurd demand idle, fun demand => slows ?_⟩
      have demand : (h.causes.any || false) = true := demand
      rw [Bool.or_false] at demand
      rw [slowDemand, demand]
      rfl

theorem HoldUnit.expire_freed (h : HoldUnit) (line : HoldLine) (e quantum : Nat) : (h.expire e quantum line).Freed := by
  cases line with
  | slow =>
    show (h.expireSlow e quantum).Freed
    unfold HoldUnit.expireSlow
    split
    · next demand => exact fun _ _ => demand
    · intro _ active; cases active
  | stop =>
    show (h.expireStop e quantum).Freed
    unfold HoldUnit.expireStop
    split
    · exact fun _ _ => Bool.or_true _
    · exact HoldUnit.releaseSlow_freed _

/-! ## Every command (O13) -/

theorem State.takeCauses_lined {s : State} (law : s.hold.Lined) (c : Causes) : (s.takeCauses c).hold.Lined := by
  rw [State.takeCauses_hold]
  split
  · exact law
  · obtain ⟨slow, stop, _⟩ := law
    exact HoldUnit.follow_lined (h := { s.hold with causes := c }) slow stop _

theorem State.settle_lined {u : State} (law : u.hold.Lined) (s : State) : (s.settle u).hold.Lined := by
  unfold State.settle
  split
  · exact law
  · rw [State.announce_hold]
    exact State.takeCauses_lined (s := s.takeCounts u) law _

theorem State.Loud.lined {s u : State} {c : Instr} (h : s.Loud c u) (law : s.hold.Lined) : u.hold.Lined := by
  cases h with
  | override q p => exact HoldUnit.Lined.releaseSlow (h := { s.hold with override := _ }) law
  | travel q p lower upper =>
    exact State.takeCauses_lined (s := (s.setPort q).setSettings { s.settings with
      travelLower := lower.toNat, travelUpper := upper.toNat }) law _
  | marks q p lower upper =>
    exact State.takeCauses_lined (s := (s.setPort q).setSettings { s.settings with
      markLower := lower.toNat, markUpper := upper.toNat }) law _
  | _ => exact law

theorem HoldUnit.initial_lined : HoldUnit.initial.Lined := ⟨rfl, rfl, by decide, by decide⟩

theorem State.takeReset_lined {s : State} (law : s.hold.Lined) : s.takeReset.hold.Lined := by
  unfold State.takeReset
  split
  · obtain ⟨_, _, _, e, _⟩ := s.abandonSave_store
    obtain ⟨slow, stop, _, slows⟩ := law
    rw [e]
    refine ⟨slow, stop, fun causes => absurd (show Causes.empty.anyStop = true from causes) (by decide), fun demand => slows ?_⟩
    have stopped : (false || s.hold.stop.isSome) = true := demand
    rw [Bool.false_or] at stopped
    rw [HoldUnit.slowDemand, stopped, Bool.or_true]
  · exact HoldUnit.initial_lined

theorem State.renewUnits_lined (s : State) : s.renewUnits.hold.Lined := by
  unfold State.renewUnits State.rebuildHolds
  dsimp only
  obtain ⟨d, e⟩ := State.raiseIf_frame (State.setHold _ _) _ .holdChanged
  rw [e]
  exact HoldUnit.follow_lined rfl rfl _

theorem State.endReset_lined {s : State} (law : s.hold.Lined) : s.endReset.hold.Lined := by
  unfold State.endReset
  split
  · exact law
  · exact law
  · refine State.settle_lined ?_ _
    obtain ⟨same, _⟩ := (State.chooseWork_acts (L := False) (s.renewUnits.setEngine s.renewUnits.engine.renewed)).deeds.calm
    rw [same]
    exact s.renewUnits_lined

theorem State.completeLoad_lined {s : State} (law : s.hold.Lined) (image : Option Settings) :
    (s.completeLoad image).hold.Lined := by
  have referred : (((s.putLoaded image).raiseIf image.isNone .settingsDefaulted).firstReference s.settings.nEnc).hold.Lined := by
    obtain ⟨d, e⟩ := (s.putLoaded image).raiseIf_frame image.isNone .settingsDefaulted
    rw [e]
    exact law
  unfold State.completeLoad
  dsimp only
  generalize ((s.putLoaded image).raiseIf image.isNone .settingsDefaulted).firstReference s.settings.nEnc = u at *
  have armed : (u.armSweep (u.position.p + u.settings.sweepInterval)).hold.Lined := by
    rw [(Deeds.calm (Act.deeds (L := False) (State.armSweep_act u _))).1]
    exact referred
  rw [State.announce_hold]
  exact State.takeCauses_lined (State.takeCauses_lined armed _) _

theorem exec_lined {c : Instr} {s t : State} (law : LineLaw s) (h : exec c s = .next t) : LineLaw t := by
  rw [lineLaw_iff] at law ⊢
  cases goes : restarts c with
  | false =>
    refine exec_keeps (law := fun u => u.hold.Lined) goes law (fun does => State.settle_lined ?_ s)
      (fun runs _ => ?_) h
    · obtain ⟨⟨same, _⟩, _⟩ | noise := does
      · rw [same]; exact law
      · exact noise.lined law
    · rw [State.announce_hold]
      exact law.expire runs _
  | true =>
    cases exec_restart goes h with
    | port p => exact law
    | powerUp => exact HoldUnit.initial_lined
    | take => exact State.takeReset_lined law
    | ends => exact State.endReset_lined law
    | load ack _ => exact State.completeLoad_lined law _
    | part q p => exact State.endReset_lined (State.takeReset_lined (s := s.setPort q) law)

end Sys2Proof.Machine
end

section
/-! PROOF. The causes follow what the blocks feed (O13): what an event's end leaves of them, and that every command keeps
them true. -/

namespace Sys2Proof.Machine

variable {L : Prop}

/-! ## What the hold unit stands by -/

/-- The causes of `u` are those that the blocks of `s` feed, the counts those that they hold, and no SLOW hold stands that
the override frees. -/
def State.Fed (s u : State) : Prop :=
  s.feeds u.hold.causes = u.hold.causes ∧ u.hold.lastTravel = s.travel.free ∧ u.hold.lastMarks = s.freeMarks ∧ u.hold.Freed

/-- TRAVEL_LOW and TRAVEL_EMPTY stand as the watermarks say of the count held (R141). -/
def State.Travelled (u : State) : Prop := u.testTravel u.hold.lastTravel u.hold.causes = u.hold.causes

/-- MARKS_LOW stands as the watermarks say of the count held (R142). -/
def State.Marked (u : State) : Prop := u.testMarks u.hold.lastMarks u.hold.causes = u.hold.causes

/-- The hold unit of `u` stands by what the blocks of `s` feed and hold. -/
def State.StoodBy (s u : State) : Prop := s.Fed u ∧ u.Travelled ∧ u.Marked

theorem lowTest_eq_iff {lower upper count : Nat} {was : Bool} : lowTest lower upper count was = was ↔
    (count ≤ lower → was = true) ∧ (lower < count → upper ≤ count → was = false) := by
  unfold lowTest
  split
  · next le => simp only [le, forall_const, Nat.not_lt.mpr le, false_imp_iff, and_true, eq_comm]
  · next beyond =>
    split
    · next le => simp only [beyond, false_imp_iff, true_and, Nat.lt_of_not_le beyond, le, forall_const, eq_comm]
    · next below => simp [beyond, below]

theorem emptyTest_eq_iff {lower count : Nat} {was : Bool} : emptyTest lower count was = was ↔
    (count < 2 → was = true) ∧ (2 ≤ count → lower ≤ count → was = false) := by
  unfold emptyTest
  split
  · next lt => simp only [lt, forall_const, Nat.not_le.mpr lt, false_imp_iff, and_true, eq_comm]
  · next beyond =>
    split
    · next le => simp only [beyond, false_imp_iff, true_and, Nat.le_of_not_lt beyond, le, forall_const, eq_comm]
    · next below => simp [beyond, below]

theorem State.testTravel_eq_iff {s : State} {n : Nat} {c : Causes} : s.testTravel n c = c ↔
    lowTest s.settings.travelLower s.settings.travelUpper n c.travelLow = c.travelLow ∧
      emptyTest s.settings.travelLower n c.travelEmpty = c.travelEmpty := by
  cases c
  simp [State.testTravel]

theorem State.testMarks_eq_iff {s : State} {n : Nat} {c : Causes} : s.testMarks n c = c ↔
    lowTest s.settings.markLower s.settings.markUpper n c.marksLow = c.marksLow := by
  cases c
  simp [State.testMarks]

theorem ShaftRec.feedsOverrun_iff {r : ShaftRec} :
    r.feedsOverrun = true ↔ ∃ th ∈ r.thresholds, th.overrun.fired = true := by
  unfold ShaftRec.feedsOverrun
  cases r.thresholds <;> simp

theorem ShaftRec.feedsNotUnloaded_iff {r : ShaftRec} :
    r.feedsNotUnloaded = true ↔ r.reason ≠ .none ∧ r.spindle r.active.other = .full := by
  simp only [ShaftRec.feedsNotUnloaded, Bool.and_eq_true, decide_eq_true_eq]

theorem ShaftRec.feedsPlanEnd_iff {r : ShaftRec} : r.feedsPlanEnd = true ↔ r.phase = .runout := decide_eq_true_iff

theorem State.feeds_eq_iff {s : State} {c : Causes} : s.feeds c = c ↔
    c.untracked = s.feedsUntracked ∧ c.positionLimit = s.position.fault ∧
      ∀ sh, c.notUnloaded.get sh = (s.shaft sh).feedsNotUnloaded ∧ c.records.get sh = (s.shaft sh).records ∧
        c.overrun.get sh = (s.shaft sh).feedsOverrun ∧ c.planEnd.get sh = (s.shaft sh).feedsPlanEnd := by
  have both (p : Shaft → Prop) : (∀ sh, p sh) ↔ p .a ∧ p .b :=
    ⟨fun h => ⟨h .a, h .b⟩, fun h sh => by cases sh; exacts [h.1, h.2]⟩
  obtain ⟨_, _, _, _, ⟨_, _⟩, ⟨_, _⟩, ⟨_, _⟩, ⟨_, _⟩, _⟩ := c
  rw [both]
  simp only [State.feeds, Causes.mk.injEq, Pair.mk.injEq, Pair.get, State.shaft, true_and, eq_comm]
  tauto

theorem causeLaw_iff {s : State} : CauseLaw s ↔ (s.inReset = false → s.feeds s.hold.causes = s.hold.causes ∧
    s.testTravel s.hold.lastTravel s.hold.causes = s.hold.causes ∧
      s.testMarks s.hold.lastMarks s.hold.causes = s.hold.causes) := by
  refine forall_congr' fun _ => ?_
  rw [State.feeds_eq_iff, State.testTravel_eq_iff, State.testMarks_eq_iff, lowTest_eq_iff, lowTest_eq_iff, emptyTest_eq_iff,
    Bool.eq_iff_iff (b := s.feedsUntracked), State.feedsUntracked_iff]
  have shaft (sh : Shaft) (a b c d : Bool) :
      (a = (s.shaft sh).feedsNotUnloaded ∧ b = (s.shaft sh).records ∧ c = (s.shaft sh).feedsOverrun ∧
        d = (s.shaft sh).feedsPlanEnd) ↔
      ((a = true ↔ (s.shaft sh).reason ≠ .none ∧ (s.shaft sh).spindle (s.shaft sh).active.other = .full) ∧
        b = (s.shaft sh).records ∧ (c = true ↔ ∃ th ∈ (s.shaft sh).thresholds, th.overrun.fired = true) ∧
        (d = true ↔ (s.shaft sh).phase = .runout)) := by
    rw [Bool.eq_iff_iff (a := a), Bool.eq_iff_iff (a := c), Bool.eq_iff_iff (a := d), ShaftRec.feedsNotUnloaded_iff,
      ShaftRec.feedsOverrun_iff, ShaftRec.feedsPlanEnd_iff]
  simp only [shaft]
  constructor
  · rintro ⟨lanes, limit, shafts, low, low', empty, empty', marks, marks'⟩
    exact ⟨⟨lanes, limit, shafts⟩, ⟨⟨low, low'⟩, empty, empty'⟩, marks, marks'⟩
  · rintro ⟨⟨lanes, limit, shafts⟩, ⟨⟨low, low'⟩, empty, empty'⟩, marks, marks'⟩
    exact ⟨lanes, limit, shafts, low, low', empty, empty', marks, marks'⟩

/-- The three laws of O13's second half, outside a reset. -/
theorem heldLaws_iff {s : State} :
    (HeldCounts s ∧ CauseLaw s ∧ OverrideLaw s) ↔ (s.inReset = false → s.StoodBy s) := by
  rw [causeLaw_iff, overrideLaw_iff]
  unfold HeldCounts State.StoodBy State.Fed State.Travelled State.Marked
  tauto

/-! ## The end of an event -/

theorem lowTest_idem (lower upper count : Nat) (was : Bool) :
    lowTest lower upper count (lowTest lower upper count was) = lowTest lower upper count was := by
  unfold lowTest
  split_ifs <;> rfl

theorem emptyTest_idem (lower count : Nat) (was : Bool) :
    emptyTest lower count (emptyTest lower count was) = emptyTest lower count was := by
  unfold emptyTest
  split_ifs <;> rfl

theorem State.testTravel_idem (s : State) (n : Nat) (c : Causes) :
    s.testTravel n (s.testTravel n c) = s.testTravel n c := by
  rw [State.testTravel_eq_iff]
  exact ⟨lowTest_idem .., emptyTest_idem ..⟩

theorem State.testMarks_idem (s : State) (n : Nat) (c : Causes) : s.testMarks n (s.testMarks n c) = s.testMarks n c := by
  rw [State.testMarks_eq_iff]
  exact lowTest_idem ..

/-- A report puts the cause where its condition stands, if the cause stood with its condition before (R140). -/
theorem reported_of_eq {was now cause : Bool} (h : cause = was) : reported was now cause = now := by
  unfold reported
  split
  · next same => exact h.trans same
  · rfl

theorem Causes.report_feeds {s u : State} {c : Causes} (fed : s.feeds c = c) :
    Causes.report (s.feeds .empty) (u.feeds .empty) c = u.feeds c := by
  obtain ⟨untracked, limit, shafts⟩ := State.feeds_eq_iff.mp fed
  obtain ⟨fullA, recordsA, overrunA, planEndA⟩ := shafts .a
  obtain ⟨fullB, recordsB, overrunB, planEndB⟩ := shafts .b
  simp only [Causes.report, State.feeds, reported_of_eq untracked, reported_of_eq limit]
  congr 1 <;> congr 1
  · exact reported_of_eq fullA
  · exact reported_of_eq fullB
  · exact reported_of_eq recordsA
  · exact reported_of_eq recordsB
  · exact reported_of_eq overrunA
  · exact reported_of_eq overrunB
  · exact reported_of_eq planEndA
  · exact reported_of_eq planEndB

/-- The cause set at the end of an event is what the blocks then feed and the watermarks then say. -/
theorem State.StoodBy.eventCauses {s u : State} (h : s.StoodBy u) :
    s.eventCauses u = u.testMarks u.freeMarks (u.testTravel u.travel.free (u.feeds u.hold.causes)) := by
  obtain ⟨⟨fed, travel, marks, _⟩, low, few⟩ := h
  unfold State.eventCauses
  rw [Causes.report_feeds fed]
  have low : u.testTravel s.travel.free (u.feeds u.hold.causes) = u.feeds u.hold.causes := by
    rw [← travel]
    exact congrArg u.feeds low
  have few (c : Causes) (e : c = u.hold.causes ∨ c = u.testTravel u.travel.free u.hold.causes) :
      u.testMarks s.freeMarks (u.feeds c) = u.feeds c := by
    rw [← marks]
    obtain rfl | rfl := e
    · exact congrArg u.feeds few
    · exact congrArg (fun x => u.feeds (u.testTravel u.travel.free x)) few
  have travelled : (if u.travel.free = s.travel.free then u.feeds u.hold.causes
      else u.testTravel u.travel.free (u.feeds u.hold.causes)) = u.testTravel u.travel.free (u.feeds u.hold.causes) := by
    split
    · next same => rw [same, low]
    · rfl
  dsimp only
  rw [travelled]
  split
  · next same =>
    rw [same]
    exact (few _ (.inr rfl)).symm
  · rfl

theorem State.takeCauses_fed {s u : State} (travel : u.hold.lastTravel = s.travel.free)
    (marks : u.hold.lastMarks = s.freeMarks) (freed : u.hold.Freed) {c : Causes} (fed : s.feeds c = c) :
    s.Fed (u.takeCauses c) := by
  unfold State.Fed
  rw [State.takeCauses_causes, State.takeCauses_hold]
  refine ⟨fed, ?_⟩
  split
  · exact ⟨travel, marks, freed⟩
  · obtain ⟨travel', marks'⟩ :=
      HoldUnit.follow_counts { u.hold with causes := c } (u.now + u.settings.quantum)
    exact ⟨travel'.trans travel, marks'.trans marks, HoldUnit.follow_freed _ _⟩

/-- The hold unit's part of an event leaves it true to what the blocks feed (R140 to R143, R148). -/
theorem State.StoodBy.settle {s u : State} (h : s.StoodBy u) (awake : u.inReset = false) :
    (s.settle u).StoodBy (s.settle u) := by
  obtain ⟨c, hc⟩ : ∃ c, c = s.eventCauses u := ⟨_, rfl⟩
  have causes := hc.trans h.eventCauses
  obtain ⟨⟨_, travel, marks, freed⟩, _⟩ := h
  have stands : u.feeds c = c ∧ u.testTravel u.travel.free c = c ∧ u.testMarks u.freeMarks c = c := by
    rw [causes]
    refine ⟨rfl, ?_, State.testMarks_idem ..⟩
    exact congrArg (u.testMarks u.freeMarks) (u.testTravel_idem u.travel.free (u.feeds u.hold.causes))
  obtain ⟨fed, low, few⟩ := stands
  have counted : u.Fed ((s.takeCounts u).takeCauses c) := by
    refine State.takeCauses_fed (u := s.takeCounts u) ?_ ?_ freed fed
    · show (if u.travel.free = s.travel.free then u.hold.lastTravel else u.travel.free) = u.travel.free
      split
      · next same => exact travel.trans same.symm
      · rfl
    · show (if u.freeMarks = s.freeMarks then u.hold.lastMarks else u.freeMarks) = u.freeMarks
      split
      · next same => exact marks.trans same.symm
      · rfl
  have held := State.settle_hold (before := s) awake
  rw [← hc] at held
  have taken := State.takeCauses_causes (s.takeCounts u) c
  generalize (s.takeCounts u).takeCauses c = v at *
  obtain ⟨hold, d, e⟩ := s.settle_frame u
  rw [e] at held ⊢
  have held : hold = v.hold := held
  subst held
  have tests : u.testTravel v.hold.lastTravel v.hold.causes = v.hold.causes ∧
      u.testMarks v.hold.lastMarks v.hold.causes = v.hold.causes := by
    obtain ⟨_, travel, marks, _⟩ := counted
    rw [taken, travel, marks]
    exact ⟨low, few⟩
  exact ⟨counted, tests⟩

/-! ## Commands up to the end of their events -/

theorem State.calm.stoodBy {s t u : State} (h : t.calm u) (law : s.StoodBy t) : s.StoodBy u := by
  obtain ⟨hold, ⟨lower, upper, markLower, markUpper⟩, _⟩ := h
  unfold State.StoodBy State.Fed State.Travelled State.Marked State.testTravel State.testMarks at *
  rw [hold, lower, upper, markLower, markUpper]
  exact law

theorem State.takeCauses_counts (u : State) (c : Causes) :
    (u.takeCauses c).hold.lastTravel = u.hold.lastTravel ∧ (u.takeCauses c).hold.lastMarks = u.hold.lastMarks := by
  rw [State.takeCauses_hold]
  split
  · exact ⟨rfl, rfl⟩
  · exact HoldUnit.follow_counts { u.hold with causes := c } _

/-- The tests of the counts read the settings alone. -/
theorem State.takeCauses_tests (u : State) (c : Causes) :
    (u.takeCauses c).testTravel = u.testTravel ∧ (u.takeCauses c).testMarks = u.testMarks := by
  obtain ⟨h, e⟩ := u.takeCauses_frame c
  rw [e]
  exact ⟨rfl, rfl⟩

/-- New travel watermarks are tested at once against the count held (R141, R177). -/
theorem State.applyTravelMarks_fed {s u : State} (law : s.Fed u) : s.Fed u.applyTravelMarks ∧ u.applyTravelMarks.Travelled ∧
    (u.Marked → u.applyTravelMarks.Marked) := by
  obtain ⟨fed, travel, marks, freed⟩ := law
  obtain ⟨c, hc⟩ : ∃ c, c = u.testTravel u.hold.lastTravel u.hold.causes := ⟨_, rfl⟩
  obtain ⟨counts, counts'⟩ := u.takeCauses_counts c
  obtain ⟨tests, tests'⟩ := u.takeCauses_tests c
  unfold State.applyTravelMarks State.Travelled State.Marked
  rw [← hc, State.takeCauses_causes, counts, counts', tests, tests']
  refine ⟨State.takeCauses_fed travel marks freed ?_, ?_, fun marked => ?_⟩
  · rw [hc]
    exact congrArg (u.testTravel u.hold.lastTravel) fed
  · rw [hc]
    exact State.testTravel_idem ..
  · rw [hc]
    exact congrArg (u.testTravel u.hold.lastTravel) marked

/-- New mark watermarks are tested at once against the count held (R142, R177). -/
theorem State.applyMarkMarks_fed {s u : State} (law : s.Fed u) : s.Fed u.applyMarkMarks ∧ u.applyMarkMarks.Marked ∧
    (u.Travelled → u.applyMarkMarks.Travelled) := by
  obtain ⟨fed, travel, marks, freed⟩ := law
  obtain ⟨c, hc⟩ : ∃ c, c = u.testMarks u.hold.lastMarks u.hold.causes := ⟨_, rfl⟩
  obtain ⟨counts, counts'⟩ := u.takeCauses_counts c
  obtain ⟨tests, tests'⟩ := u.takeCauses_tests c
  unfold State.applyMarkMarks State.Travelled State.Marked
  rw [← hc, State.takeCauses_causes, counts, counts', tests, tests']
  refine ⟨State.takeCauses_fed travel marks freed ?_, ?_, fun travelled => ?_⟩
  · rw [hc]
    exact congrArg (u.testMarks u.hold.lastMarks) fed
  · rw [hc]
    exact State.testMarks_idem ..
  · rw [hc]
    exact congrArg (u.testMarks u.hold.lastMarks) travelled

theorem HoldUnit.releaseSlow_causes (h : HoldUnit) : h.releaseSlow.causes = h.causes ∧
    h.releaseSlow.lastTravel = h.lastTravel ∧ h.releaseSlow.lastMarks = h.lastMarks := by
  unfold HoldUnit.releaseSlow
  split <;> exact ⟨rfl, rfl, rfl⟩

theorem HoldUnit.expire_causes (h : HoldUnit) (line : HoldLine) (e quantum : Nat) :
    (h.expire e quantum line).causes = h.causes ∧ (h.expire e quantum line).lastTravel = h.lastTravel ∧
      (h.expire e quantum line).lastMarks = h.lastMarks := by
  cases line with
  | slow =>
    unfold HoldUnit.expire HoldUnit.expireSlow
    dsimp only
    split <;> exact ⟨rfl, rfl, rfl⟩
  | stop =>
    unfold HoldUnit.expire HoldUnit.expireStop
    dsimp only
    split
    · exact ⟨rfl, rfl, rfl⟩
    · exact HoldUnit.releaseSlow_causes _

/-- Another standing of the holds under the same causes and counts. -/
theorem State.StoodBy.rehold {s u t : State} (law : s.StoodBy u) (settings : t.settings = u.settings)
    (causes : t.hold.causes = u.hold.causes) (travel : t.hold.lastTravel = u.hold.lastTravel)
    (marks : t.hold.lastMarks = u.hold.lastMarks) (freed : t.hold.Freed) : s.StoodBy t := by
  unfold State.StoodBy State.Fed State.Travelled State.Marked State.testTravel State.testMarks at *
  rw [settings, causes, travel, marks]
  obtain ⟨⟨fed, low, few, _⟩, rest⟩ := law
  exact ⟨⟨fed, low, few, freed⟩, rest⟩

theorem State.Loud.stoodBy {s u : State} {c : Instr} (h : s.Loud c u) (law : s.StoodBy s) : s.StoodBy u := by
  obtain ⟨fed, travelled, marked⟩ := law
  obtain ⟨feeds, travel, marks, freed⟩ := id fed
  cases h with
  | port c p => exact ⟨fed, travelled, marked⟩
  | ended => exact ⟨⟨feeds, travel, marks, fun runs => by cases runs⟩, travelled, marked⟩
  | override q p =>
    obtain ⟨causes, travel', marks'⟩ :=
      HoldUnit.releaseSlow_causes { s.hold with override := some (s.now + s.settings.quantum) }
    refine State.StoodBy.rehold (u := s) (t := (s.setPort q).startOverride.setPort p) ⟨fed, travelled, marked⟩ rfl
      causes travel' marks' ?_
    exact HoldUnit.releaseSlow_freed _
  | clear q p tag alerts => exact ⟨fed, travelled, marked⟩
  | travel q p lower upper =>
    obtain ⟨fed, travelled, rest⟩ := State.applyTravelMarks_fed (s := s) (u := (s.setPort q).setSettings { s.settings with
      travelLower := lower.toNat, travelUpper := upper.toNat }) fed
    exact ⟨fed, travelled, rest marked⟩
  | marks q p lower upper =>
    obtain ⟨fed, marked, rest⟩ := State.applyMarkMarks_fed (s := s) (u := (s.setPort q).setSettings { s.settings with
      markLower := lower.toNat, markUpper := upper.toNat }) fed
    exact ⟨fed, rest travelled, marked⟩

theorem State.Loud.reset {s u : State} {c : Instr} (h : s.Loud c u) : u.store.reset = s.store.reset := by
  cases h with
  | travel q p lower upper =>
    obtain ⟨_, e⟩ := State.takeCauses_frame ((s.setPort q).setSettings { s.settings with
      travelLower := lower.toNat, travelUpper := upper.toNat }) _
    unfold State.applyTravelMarks
    rw [e]
    rfl
  | marks q p lower upper =>
    obtain ⟨_, e⟩ := State.takeCauses_frame ((s.setPort q).setSettings { s.settings with
      markLower := lower.toNat, markUpper := upper.toNat }) _
    unfold State.applyMarkMarks
    rw [e]
    rfl
  | _ => rfl

/-! ## Resets and the load -/

/-- What a hold unit stands by is read from the blocks that feed it and from the settings. -/
theorem State.StoodBy.congr {s t : State} (law : s.StoodBy s) (position : t.position = s.position) (map : t.map = s.map)
    (shafts : t.shafts = s.shafts) (travel : t.travel = s.travel) (marks : t.freeMarks = s.freeMarks)
    (settings : t.settings = s.settings) (hold : t.hold = s.hold) : t.StoodBy t := by
  unfold State.StoodBy State.Fed State.Travelled State.Marked State.testTravel State.testMarks State.feeds
    State.feedsUntracked at *
  rw [position, map, shafts, travel, marks, settings, hold]
  exact law

theorem State.blank.stoodBy {s : State} (h : s.blank) : s.StoodBy s := by
  obtain ⟨position, map, _, marks, travel, shafts, _, hold, settings, _⟩ := h
  have reset : State.reset.StoodBy State.reset := heldLaws_iff.mp ⟨fun _ => ⟨rfl, rfl⟩, .reset, .reset⟩ rfl
  exact reset.congr position map shafts travel marks settings hold

/-- The rebuilt causes are what the kept blocks feed (R151). -/
theorem State.rebuildHolds_stoodBy (s : State) : s.rebuildHolds.StoodBy s.rebuildHolds := by
  obtain ⟨h, hh⟩ : ∃ h : HoldUnit, h = HoldUnit.follow { HoldUnit.initial with
    causes := s.keptCauses, lastTravel := s.travel.free, lastMarks := s.freeMarks } (s.now + s.settings.quantum) := ⟨_, rfl⟩
  have causes : h.causes = s.keptCauses := by rw [hh, HoldUnit.follow_causes]
  have counts : h.lastTravel = s.travel.free ∧ h.lastMarks = s.freeMarks := by rw [hh]; exact HoldUnit.follow_counts ..
  have freed : h.Freed := by rw [hh]; exact HoldUnit.follow_freed _ _
  have kept : s.feeds s.keptCauses = s.keptCauses ∧ s.testTravel s.travel.free s.keptCauses = s.keptCauses ∧
      s.testMarks s.freeMarks s.keptCauses = s.keptCauses :=
    ⟨rfl, congrArg (s.testMarks s.freeMarks) (s.testTravel_idem s.travel.free (s.feeds .empty)), s.testMarks_idem ..⟩
  obtain ⟨d, e⟩ := (s.setHold h).raiseIf_frame (decide (h.level ≠ .none)) .holdChanged
  have rebuilt : s.rebuildHolds = { s.setHold h with digest := d } := by
    rw [← e, hh]
    rfl
  have stands : s.StoodBy (s.setHold h) := by
    obtain ⟨travel, marks⟩ := counts
    obtain ⟨fed, low, few⟩ := kept
    unfold State.StoodBy State.Fed State.Travelled State.Marked
    rw [show (s.setHold h).hold = h from rfl, causes, travel, marks]
    exact ⟨⟨fed, rfl, rfl, freed⟩, low, few⟩
  rw [rebuilt]
  exact stands

theorem State.renewUnits_reset (s : State) : s.renewUnits.store.reset = .none := by
  rw [s.renewUnits_eq]

theorem State.takeReset_inReset (s : State) : s.takeReset.inReset = true := by
  unfold State.takeReset
  split
  · rfl
  · rfl

theorem State.endReset_stoodBy {s : State} (law : s.inReset = false → s.StoodBy s)
    (clearing : s.store.reset = .clearing → s.blank) : s.endReset.StoodBy s.endReset := by
  unfold State.endReset
  split
  · next none => exact law (by simp [State.inReset, none])
  · next clears => exact (clearing clears).stoodBy.congr rfl rfl rfl rfl rfl rfl rfl
  · have units : s.renewUnits.StoodBy s.renewUnits := State.rebuildHolds_stoodBy _
    have calm := (State.chooseWork_acts (L := False) (s.renewUnits.setEngine s.renewUnits.engine.renewed)).deeds.calm
    have worked : s.renewUnits.StoodBy (s.renewUnits.setEngine s.renewUnits.engine.renewed).chooseWork :=
      calm.stoodBy units
    refine worked.settle ?_
    obtain ⟨_, _, reset, _⟩ := calm
    rw [State.inReset, reset]
    show decide (s.renewUnits.store.reset ≠ .none) = false
    rw [s.renewUnits_reset]
    rfl

theorem State.completeLoad_stoodBy {s : State} (blank : s.blank) (image : Option Settings) :
    (s.completeLoad image).StoodBy (s.completeLoad image) := by
  have put : (s.putLoaded image).Fed (s.putLoaded image) := blank.stoodBy.1
  obtain ⟨d, e⟩ := (s.putLoaded image).raiseIf_frame image.isNone .settingsDefaulted
  unfold State.completeLoad
  dsimp only
  rw [e]
  have referred : (State.firstReference { s.putLoaded image with digest := d } s.settings.nEnc).Fed
    (State.firstReference { s.putLoaded image with digest := d } s.settings.nEnc) := put
  generalize State.firstReference { s.putLoaded image with digest := d } s.settings.nEnc = u at *
  obtain ⟨w, l, armed⟩ := u.armSweep_frame (u.position.p + u.settings.sweepInterval)
  rw [armed]
  obtain ⟨v, hv⟩ : ∃ v, v = { u with position := { u.position with watches := w, arrivals := l } } := ⟨_, rfl⟩
  have swept : v.Fed v := by rw [hv]; exact referred
  rw [← hv]
  obtain ⟨fed, travelled, _⟩ := State.applyTravelMarks_fed swept
  obtain ⟨fed, marked, kept⟩ := State.applyMarkMarks_fed fed
  have stands : v.StoodBy v.applyTravelMarks.applyMarkMarks := ⟨fed, kept travelled, marked⟩
  obtain ⟨h, taken⟩ : ∃ h, v.applyTravelMarks.applyMarkMarks = { v with hold := h } := by
    obtain ⟨h, e⟩ := v.takeCauses_frame (v.testTravel v.hold.lastTravel v.hold.causes)
    unfold State.applyTravelMarks
    rw [e]
    exact State.takeCauses_frame { v with hold := h } _
  rw [taken] at stands ⊢
  obtain ⟨d, announced⟩ := s.announce_frame { v with hold := h }
  rw [announced]
  exact stands

theorem exec_stoodBy {c : Instr} {s t : State} (blank : BlankLaw s) (law : s.inReset = false → s.StoodBy s)
    (h : exec c s = .next t) : t.inReset = false → t.StoodBy t := by
  cases goes : restarts c with
  | false =>
    refine exec_keeps (law := fun t => t.inReset = false → t.StoodBy t) goes law (fun {u} does awake => ?_)
      (fun {line e} _ awake _ => ?_) h
    · have same : u.store.reset = s.store.reset := by
        obtain ⟨⟨_, _, same, _⟩, _⟩ | noise := does
        · exact same
        · exact noise.reset
      have inReset : (s.settle u).inReset = u.inReset := by
        obtain ⟨_, _, e⟩ := s.settle_frame u
        rw [e]
        rfl
      have awake : u.inReset = false := inReset.symm.trans awake
      have was := law (by unfold State.inReset at *; rw [← same]; exact awake)
      refine State.StoodBy.settle ?_ awake
      obtain ⟨calm, _⟩ | noise := does
      · exact calm.stoodBy was
      · exact noise.stoodBy was
    · obtain ⟨d, e'⟩ := s.announce_frame (s.setHold (s.hold.expire e s.settings.quantum line))
      obtain ⟨causes, travel, marks⟩ := s.hold.expire_causes line e s.settings.quantum
      have expired : s.StoodBy (s.setHold (s.hold.expire e s.settings.quantum line)) :=
        (law awake).rehold rfl causes travel marks (s.hold.expire_freed line e s.settings.quantum)
      rw [e']
      exact expired
  | true =>
    intro awake
    cases exec_restart goes h with
    | port p => exact law awake
    | powerUp u kind how =>
      refine ((BlankLaw.powerUp u kind how).1 ?_).stoodBy
      exact how.imp (fun h => h.2) (fun h => h.1)
    | take =>
      exact absurd (awake.symm.trans s.takeReset_inReset) (by decide)
    | ends => exact State.endReset_stoodBy law (fun clears => blank.1 (.inr clears))
    | load ack loads => exact State.completeLoad_stoodBy (blank.1 (.inl loads)) _
    | part q p =>
      have ended := State.endReset_stoodBy (s := (s.setPort q).takeReset)
        (fun reset => absurd (reset.symm.trans (State.takeReset_inReset _)) (by decide))
        (fun clears => (State.takeReset_blankLaw _).1 (.inr clears))
      exact ended.congr rfl rfl rfl rfl rfl rfl rfl

/-- Settles O13: CUTREQ by the records of the shafts, and the hold unit at the end of each event. -/
theorem outputLinesShowTheState : Obligations.OutputLinesShowTheState := by
  unfold Obligations.OutputLinesShowTheState
  constructor
  · intro s t ⟨asks, lines⟩ h
    obtain ⟨rfl, _⟩ | ⟨c, rest, _, next, course⟩ := step_course h
    · exact ⟨asks, lines⟩
    · exact ⟨course.keeps_cutRequests asks, exec_lined (s := s.setPending rest) lines next⟩
  · intro s t ⟨blank, held⟩ h
    refine ⟨blankLaw_steps s t blank h, heldLaws_iff.mpr ?_⟩
    have law := heldLaws_iff.mp held
    obtain ⟨rfl, _⟩ | ⟨c, rest, _, next, _⟩ := step_course h
    · exact law
    · exact exec_stoodBy (s := s.setPending rest) blank law next

end Sys2Proof.Machine
end

section
/-! PROOF. The holds over a command (O37): what an expiry, the override and the end of an event do to them, and HOLD_CHANGED. -/

namespace Sys2Proof.Machine

variable {L : Prop}

/-! ## HOLD_CHANGED -/

/-- HOLD_CHANGED is raised where the level of the output changes, as the last alert of the event (R146, R167). -/
theorem State.announce_spec (s u : State) :
    (s.hold.level = u.hold.level → s.announce u = u) ∧
      (s.hold.level ≠ u.hold.level →
        (s.announce u).digest.changeTag = u.digest.changeTag + 1 ∧ (s.announce u).holdChanged) := by
  unfold State.announce State.raiseIf
  refine ⟨fun same => if_neg (by simp [same]), fun differs => ?_⟩
  rw [if_pos (decide_eq_true differs)]
  refine ⟨rfl, ?_⟩
  unfold State.holdChanged
  rw [State.raise_alert, if_pos rfl]
  exact ⟨rfl, rfl⟩

/-- An event that leaves the feeding blocks alone ends in the announcement of its level. -/
theorem State.settle_announce {s u : State} (feeds : u.feeds .empty = s.feeds .empty) (travel : u.travel.free = s.travel.free)
    (marks : u.freeMarks = s.freeMarks) (awake : u.inReset = false) : s.settle u = s.announce u := by
  have counts : s.takeCounts u = u := by
    unfold State.takeCounts
    rw [if_pos travel, if_pos marks]
    rfl
  have causes : s.eventCauses u = u.hold.causes := by simp [State.eventCauses, feeds, travel, marks]
  unfold State.settle
  rw [awake, if_neg (by decide), counts, causes, State.takeCauses_same rfl]

/-- What O37 says of HOLD_CHANGED after an event that writes the hold unit alone. -/
def State.announced (s t : State) : Prop :=
  (s.hold.level = t.hold.level → t.digest = s.digest) ∧
    (s.hold.level ≠ t.hold.level → t.digest.changeTag = s.digest.changeTag + 1 ∧ t.holdChanged)

theorem State.announce_announced {s u : State} (digest : u.digest = s.digest) :
    s.announced (s.announce u) ∧ s.announce u = { u with digest := (s.announce u).digest } := by
  obtain ⟨stays, raises⟩ := s.announce_spec u
  obtain ⟨d, e⟩ := s.announce_frame u
  refine ⟨⟨fun same => ?_, fun differs => ?_⟩, by rw [e]⟩
  · rw [State.announce_hold] at same
    rw [stays same, digest]
  · rw [State.announce_hold] at differs
    rw [← digest]
    exact raises differs

/-! ## The holds over an event -/

/-- What an event that does not expire a hold or start the override does to the holds: `holdsFollow` but for HOLD_CHANGED. -/
def HoldUnit.Follows (h k : HoldUnit) (expiry : Nat) : Prop :=
  (h.stop = none →
    (k.causes.demandsStop → k.stop = some expiry ∧ k.stopEntries = satInc h.stopEntries) ∧
    (¬ k.causes.demandsStop → k.stop = none ∧ k.stopEntries = h.stopEntries)) ∧
  (h.stop.isSome = true → k.stopEntries = h.stopEntries ∧ k.stop = h.stop) ∧
  (h.slow = none →
    (k.demandsSlow → k.slow = some expiry ∧ k.slowEntries = satInc h.slowEntries) ∧
    (¬ k.demandsSlow → k.slow = none ∧ k.slowEntries = h.slowEntries)) ∧
  (h.slow.isSome = true → k.slowEntries = h.slowEntries ∧
    (k.demandsSlow ∨ k.override = none → k.slow = h.slow) ∧
    (¬ k.demandsSlow → k.override.isSome = true → k.slow = none)) ∧
  k.renewals = h.renewals

/-- Two hold units that differ in their causes and counts alone. -/
def HoldUnit.sameHolds (h k : HoldUnit) : Prop :=
  k.slow = h.slow ∧ k.stop = h.stop ∧ k.override = h.override ∧ k.slowEntries = h.slowEntries ∧
    k.stopEntries = h.stopEntries ∧ k.renewals = h.renewals

theorem HoldUnit.follow_follows {h g : HoldUnit} (same : h.sameHolds g) (expiry : Nat) : h.Follows (g.follow expiry) expiry := by
  obtain ⟨slow, stop, override, slowEntries, stopEntries, renewals⟩ := same
  unfold HoldUnit.Follows
  rw [← Causes.anyStop_iff, ← HoldUnit.slowDemand_iff, HoldUnit.follow_slow, HoldUnit.follow_slowEntries,
    HoldUnit.follow_causes, HoldUnit.follow_stop, HoldUnit.follow_stopEntries, HoldUnit.follow_override,
    HoldUnit.follow_renewals, slow, stop, override, slowEntries, stopEntries, renewals]
  generalize (g.follow expiry).slowDemand = demand
  generalize g.causes.anyStop = stopped
  refine ⟨fun idle => ?_, fun active => ?_, fun idle => ?_, fun active => ?_, rfl⟩
  · rw [idle]
    cases stopped <;> simp
  · obtain ⟨e, runs⟩ := Option.isSome_iff_exists.mp active
    rw [runs]
    exact ⟨rfl, rfl⟩
  · rw [idle]
    cases demand <;> simp
  · obtain ⟨e, runs⟩ := Option.isSome_iff_exists.mp active
    rw [runs]
    cases demand <;> cases h.override <;> simp

/-- Where the holds already stand by the causes, they stay. -/
theorem HoldUnit.stay_follows {h k : HoldUnit} (lined : h.Lined) (freed : h.Freed) (causes : k.causes = h.causes)
    (same : h.sameHolds k) (expiry : Nat) : h.Follows k expiry := by
  obtain ⟨_, _, stops, slows⟩ := lined
  obtain ⟨slow, stop, override, slowEntries, stopEntries, renewals⟩ := same
  have demand : k.slowDemand = h.slowDemand := by rw [HoldUnit.slowDemand, HoldUnit.slowDemand, causes, stop]
  unfold HoldUnit.Follows
  rw [← Causes.anyStop_iff, ← HoldUnit.slowDemand_iff, demand, causes, slow, stop, override, slowEntries, stopEntries, renewals]
  refine ⟨fun idle => ⟨fun demanded => ?_, fun _ => ⟨idle, rfl⟩⟩, fun _ => ⟨rfl, rfl⟩,
    fun idle => ⟨fun demanded => ?_, fun _ => ⟨idle, rfl⟩⟩, fun active => ⟨rfl, fun _ => rfl, fun undemanded runs => ?_⟩, rfl⟩
  · have active := stops demanded
    rw [idle] at active
    cases active
  · have active := slows demanded
    rw [idle] at active
    cases active
  · exact absurd (freed runs active) undemanded

/-- What O37 says of the holds over a command: `holdsFollow` but for HOLD_CHANGED. -/
def HoldUnit.Goes (h k : HoldUnit) (expiry : Nat) (c : Instr) : Prop :=
  (h.stop = none →
    (k.causes.demandsStop → k.stop = some expiry ∧ k.stopEntries = satInc h.stopEntries) ∧
    (¬ k.causes.demandsStop → k.stop = none ∧ k.stopEntries = h.stopEntries)) ∧
  (h.stop.isSome = true → k.stopEntries = h.stopEntries ∧ (c ≠ .holdTimerExpiry .stop → k.stop = h.stop)) ∧
  (h.slow = none →
    (k.demandsSlow → k.slow = some expiry ∧ k.slowEntries = satInc h.slowEntries) ∧
    (¬ k.demandsSlow → k.slow = none ∧ k.slowEntries = h.slowEntries)) ∧
  (h.slow.isSome = true → k.slowEntries = h.slowEntries ∧ (c ≠ .holdTimerExpiry .slow →
    (k.demandsSlow ∨ k.override = none → k.slow = h.slow) ∧
    (¬ k.demandsSlow → k.override.isSome = true → k.slow = none))) ∧
  ((∀ l, c ≠ .holdTimerExpiry l) → k.renewals = h.renewals) ∧
  (c ≠ .holdOverride → c ≠ .overrideExpiry → k.override = h.override)

theorem HoldUnit.Follows.goes {h k : HoldUnit} {expiry : Nat} (follows : h.Follows k expiry)
    (override : k.override = h.override) (c : Instr) : h.Goes k expiry c := by
  obtain ⟨stop, stop', slow, slow', renewals⟩ := follows
  exact ⟨stop, fun active => ⟨(stop' active).1, fun _ => (stop' active).2⟩, slow,
    fun active => ⟨(slow' active).1, fun _ => (slow' active).2⟩, fun _ => renewals, fun _ _ => override⟩

theorem State.holdsFollow_of {s t : State} {c : Instr} (goes : s.hold.Goes t.hold (s.now + t.settings.quantum) c)
    (changes : s.hold.level ≠ t.hold.level → t.holdChanged)
    (stays : s.hold.level = t.hold.level →
      (t.digest.alerts[Alert.index .holdChanged]).tag = (s.digest.alerts[Alert.index .holdChanged]).tag ∧
      ((∀ tag alerts, c ≠ .clearAlerts tag alerts) →
        (t.digest.alerts[Alert.index .holdChanged]).isSet = (s.digest.alerts[Alert.index .holdChanged]).isSet)) :
    s.holdsFollow t c := by
  obtain ⟨stop, stop', slow, slow', renewals, override⟩ := goes
  exact ⟨stop, stop', slow, slow', renewals, override, changes, stays⟩

/-- The level of a command's holds announced (R146). -/
theorem State.announce_holdsFollow {s u : State} {c : Instr}
    (tag : (u.digest.alerts[Alert.index .holdChanged]).tag = (s.digest.alerts[Alert.index .holdChanged]).tag)
    (isSet : (∀ tag alerts, c ≠ .clearAlerts tag alerts) →
      (u.digest.alerts[Alert.index .holdChanged]).isSet = (s.digest.alerts[Alert.index .holdChanged]).isSet)
    (goes : s.hold.Goes u.hold (s.now + u.settings.quantum) c) : s.holdsFollow (s.announce u) c := by
  obtain ⟨stays, raises⟩ := s.announce_spec u
  obtain ⟨_, e⟩ := s.announce_frame u
  have held : (s.announce u).hold = u.hold := State.announce_hold ..
  have settings : (s.announce u).settings = u.settings := by rw [e]
  refine State.holdsFollow_of (by rw [held, settings]; exact goes) (fun differs => ?_) fun level => ?_
  · rw [held] at differs
    exact (raises differs).2
  · rw [held] at level
    rw [stays level]
    exact ⟨tag, isSet⟩

/-- The hold unit takes a cause set: an event's holds follow it. -/
theorem State.takeCauses_follows {h : HoldUnit} {u : State} (lined : h.Lined) (freed : h.Freed) (causes : u.hold.causes = h.causes)
    (same : h.sameHolds u.hold) (c : Causes) : h.Follows (u.takeCauses c).hold (u.now + u.settings.quantum) ∧
      (u.takeCauses c).hold.override = h.override := by
  obtain ⟨_, _, override, _⟩ := id same
  rw [State.takeCauses_hold]
  split
  · exact ⟨HoldUnit.stay_follows lined freed causes same _, override⟩
  · exact ⟨HoldUnit.follow_follows (g := { u.hold with causes := c }) same _, by rw [HoldUnit.follow_override]; exact override⟩

/-- The end of a calm event (R140 to R149). -/
theorem State.settle_holdsFollow {s u : State} {c : Instr} (awake : u.inReset = false) (lined : s.hold.Lined)
    (freed : s.hold.Freed) (hold : u.hold = s.hold) (now : u.now = s.now)
    (tag : (u.digest.alerts[Alert.index .holdChanged]).tag = (s.digest.alerts[Alert.index .holdChanged]).tag)
    (isSet : (∀ tag alerts, c ≠ .clearAlerts tag alerts) →
      (u.digest.alerts[Alert.index .holdChanged]).isSet = (s.digest.alerts[Alert.index .holdChanged]).isSet) :
    s.holdsFollow (s.settle u) c := by
  have same : s.hold.sameHolds (s.takeCounts u).hold := by rw [← hold]; exact ⟨rfl, rfl, rfl, rfl, rfl, rfl⟩
  obtain ⟨follows, override⟩ := State.takeCauses_follows (u := s.takeCounts u) lined freed
    (by rw [← hold]; rfl) same (s.eventCauses u)
  obtain ⟨h, e⟩ := (s.takeCounts u).takeCauses_frame (s.eventCauses u)
  have settled : s.settle u = s.announce ((s.takeCounts u).takeCauses (s.eventCauses u)) := by
    unfold State.settle
    rw [awake, if_neg (by decide)]
  have digest : ((s.takeCounts u).takeCauses (s.eventCauses u)).digest = u.digest := by rw [e]; rfl
  have settings : ((s.takeCounts u).takeCauses (s.eventCauses u)).settings = u.settings := by rw [e]; rfl
  generalize (s.takeCounts u).takeCauses (s.eventCauses u) = v at *
  rw [settled]
  refine State.announce_holdsFollow (by rw [digest]; exact tag) (by rw [digest]; exact isSet) ?_
  rw [settings, ← now]
  exact follows.goes override c

/-- An event that writes the port, the store and the hold unit alone. -/
theorem State.rehold_holdsFollow {s : State} (awake : s.inReset = false) {c : Instr} {p : Port} {x : SettingsStore}
    {k : HoldUnit} (reset : x.reset = s.store.reset) (goes : s.hold.Goes k (s.now + x.settings.quantum) c) :
    s.holdsFollow (s.settle { s with port := p, store := x, hold := k }) c := by
  have outside : State.inReset { s with port := p, store := x, hold := k } = false := by
    unfold State.inReset at *
    rw [show (State.store { s with port := p, store := x, hold := k }).reset = x.reset from rfl, reset]
    exact awake
  rw [State.settle_announce (s := s) (u := { s with port := p, store := x, hold := k }) rfl rfl rfl outside]
  exact State.announce_holdsFollow (u := { s with port := p, store := x, hold := k }) rfl (fun _ => rfl) goes

/-- An event that puts watermarks into force and has the hold unit test its counts (R177). -/
theorem State.takeCauses_holdsFollow {s : State} (awake : s.inReset = false) (lined : s.hold.Lined) (freed : s.hold.Freed)
    (q p : Port) {x : SettingsStore} (reset : x.reset = s.store.reset) (causes : Causes) (c : Instr) :
    s.holdsFollow (s.settle ((State.takeCauses { s with port := q, store := x } causes).setPort p)) c := by
  obtain ⟨follows, override⟩ := State.takeCauses_follows (h := s.hold) (u := { s with port := q, store := x }) lined freed rfl
    ⟨rfl, rfl, rfl, rfl, rfl, rfl⟩ causes
  obtain ⟨k, e⟩ := State.takeCauses_frame { s with port := q, store := x } causes
  rw [e] at follows override ⊢
  exact State.rehold_holdsFollow (p := p) (x := x) (k := k) awake reset (follows.goes override c)

/-! ## Expiries and the override -/

theorem exec_holdTimerExpiry {s : State} (awake : s.inReset = false) {line : HoldLine} {e : Nat}
    (runs : s.hold.expiry line = some e) (stands : e ≤ s.now) : exec (.holdTimerExpiry line) s =
      .next (s.announce (s.setHold (s.hold.expire e s.settings.quantum line))) := by
  show execHoldTimerExpiry line s = _
  unfold execHoldTimerExpiry
  rw [runs]
  exact congrArg Host.Outcome.next (if_neg (by simp [awake, stands]))

theorem exec_holdTimerExpiry_early {s : State} {line : HoldLine} (early : ∀ e ∈ s.hold.expiry line, s.now < e) :
    exec (.holdTimerExpiry line) s = .next s := by
  show execHoldTimerExpiry line s = _
  unfold execHoldTimerExpiry
  cases runs : s.hold.expiry line with
  | none => rfl
  | some e => exact congrArg Host.Outcome.next (if_pos (by simp [early e runs]))

/-- What the override leaves of the holds (R148). -/
theorem HoldUnit.releaseSlow_spec (g : HoldUnit) : g.releaseSlow.causes = g.causes ∧ g.releaseSlow.stop = g.stop ∧
    g.releaseSlow.override = g.override ∧ g.releaseSlow.slowEntries = g.slowEntries ∧
    g.releaseSlow.stopEntries = g.stopEntries ∧ g.releaseSlow.renewals = g.renewals ∧
    g.releaseSlow.slow = if g.slowDemand then g.slow else if g.override.isSome then none else g.slow := by
  unfold HoldUnit.releaseSlow
  cases was : g.slow <;> split_ifs <;> simp_all

theorem HoldUnit.releaseSlow_slowDemand (g : HoldUnit) : g.releaseSlow.slowDemand = g.slowDemand := by
  obtain ⟨causes, stop, _⟩ := g.releaseSlow_spec
  rw [HoldUnit.slowDemand, HoldUnit.slowDemand, causes, stop]

/-- A SLOW hold that the override releases where nothing demands it (R148). -/
theorem HoldUnit.released (g : HoldUnit) :
    (g.slowDemand = true ∨ g.override = none →
      (if g.slowDemand then g.slow else if g.override.isSome then none else g.slow) = g.slow) ∧
    (¬ g.slowDemand = true → g.override.isSome = true →
      (if g.slowDemand then g.slow else if g.override.isSome then none else g.slow) = none) := by
  refine ⟨fun keeps => ?_, fun undemanded runs => by rw [if_neg undemanded, if_pos runs]⟩
  obtain demand | off := keeps
  · rw [if_pos demand]
  · rw [off]
    exact ite_self _

/-- A running hold's expiry over the holds (R145, R148). -/
theorem HoldUnit.expire_goes {h : HoldUnit} (lined : h.Lined) {line : HoldLine} {e : Nat} (runs : h.expiry line = some e)
    (quantum expiry : Nat) : h.Goes (h.expire e quantum line) expiry (.holdTimerExpiry line) := by
  obtain ⟨_, _, stops, slows⟩ := lined
  have idleStop (idle : h.stop = none) (demanded : h.causes.anyStop = true) : False := by
    have active := stops demanded
    rw [idle] at active
    cases active
  unfold HoldUnit.Goes
  rw [← Causes.anyStop_iff, ← HoldUnit.slowDemand_iff, (h.expire_causes line e quantum).1]
  cases line with
  | slow =>
    have active : h.slow = some e := runs
    show _ ∧ _
    unfold HoldUnit.expire HoldUnit.expireSlow
    dsimp only
    split <;> exact ⟨fun idle => ⟨fun demanded => (idleStop idle demanded).elim, fun _ => ⟨idle, rfl⟩⟩,
      fun _ => ⟨rfl, fun _ => rfl⟩, fun idle => absurd (idle.symm.trans active) (by simp),
      fun _ => ⟨rfl, fun other => absurd rfl other⟩, fun other => absurd rfl (other .slow), fun _ _ => rfl⟩
  | stop =>
    have active : h.stop = some e := runs
    have idleSlow (idle : h.slow = none) : False := by
      have running := slows (by rw [HoldUnit.slowDemand, active]; exact Bool.or_true _)
      rw [idle] at running
      cases running
    unfold HoldUnit.expire HoldUnit.expireStop
    dsimp only
    split
    · refine ⟨fun idle => absurd (idle.symm.trans active) (by simp), fun _ => ⟨rfl, fun other => absurd rfl other⟩,
        fun idle => (idleSlow idle).elim, fun _ => ⟨rfl, fun _ => ⟨fun _ => rfl, fun undemanded => ?_⟩⟩,
        fun other => absurd rfl (other .stop), fun _ _ => rfl⟩
      exact absurd (Bool.or_true _) undemanded
    · obtain ⟨_, _, override, slowEntries, stopEntries, _, slow⟩ :=
        HoldUnit.releaseSlow_spec { h with stop := none, stopLine := false }
      have demand := HoldUnit.releaseSlow_slowDemand { h with stop := none, stopLine := false }
      rw [demand, override, slowEntries, stopEntries, slow]
      refine ⟨fun idle => absurd (idle.symm.trans active) (by simp), fun _ => ⟨rfl, fun other => absurd rfl other⟩,
        fun idle => (idleSlow idle).elim, fun _ => ⟨rfl, fun _ => HoldUnit.released _⟩,
        fun other => absurd rfl (other .stop), fun _ _ => rfl⟩

theorem State.expire_holdsFollow {s : State} (lined : s.hold.Lined) {line : HoldLine} {e : Nat}
    (runs : s.hold.expiry line = some e) :
    s.holdsFollow (s.announce (s.setHold (s.hold.expire e s.settings.quantum line))) (.holdTimerExpiry line) :=
  State.announce_holdsFollow (u := s.setHold (s.hold.expire e s.settings.quantum line)) rfl (fun _ => rfl)
    (HoldUnit.expire_goes lined runs _ _)

/-- The override over the holds (R148). -/
theorem HoldUnit.override_goes {h : HoldUnit} (lined : h.Lined) (x : Option Nat) (expiry : Nat) :
    h.Goes (HoldUnit.releaseSlow { h with override := x }) expiry .holdOverride := by
  obtain ⟨_, _, stops, slows⟩ := lined
  obtain ⟨causes, stop, override, slowEntries, stopEntries, renewals, slow⟩ :=
    HoldUnit.releaseSlow_spec { h with override := x }
  have demand := HoldUnit.releaseSlow_slowDemand { h with override := x }
  unfold HoldUnit.Goes
  rw [← Causes.anyStop_iff, ← HoldUnit.slowDemand_iff, causes, demand, stop, override, slowEntries, stopEntries, renewals, slow]
  refine ⟨fun idle => ⟨fun demanded => ?_, fun _ => ⟨idle, rfl⟩⟩, fun _ => ⟨rfl, fun _ => rfl⟩,
    fun idle => ⟨fun demanded => ?_, fun undemanded => ⟨?_, rfl⟩⟩, fun _ => ⟨rfl, fun _ => HoldUnit.released _⟩,
    fun _ => rfl, fun other => absurd rfl other⟩
  · have active := stops demanded
    rw [idle] at active
    cases active
  · have active := slows demanded
    rw [idle] at active
    cases active
  · rw [if_neg undemanded, idle]
    exact ite_self _

/-- CLEAR_ALERTS leaves the raise tags (R170). -/
theorem DigestUnit.clear_tag (d : DigestUnit) (tag : Word16) (alerts : BitVec 24) (i : Fin 20) :
    ((d.clear tag alerts).alerts[i]).tag = (d.alerts[i]).tag := by
  unfold DigestUnit.clear
  simp only [Fin.getElem_fin, Vector.getElem_ofFn]
  split <;> rfl

/-- The three writes of the hold unit in the words of O37. -/
theorem HoldUnit.expireSlow_eq (h : HoldUnit) (e quantum : Nat) : h.expireSlow e quantum =
    if h.causes.any ∨ h.stop.isSome then { h with slow := some (e + quantum), renewals := satInc h.renewals }
    else { h with slow := none, slowLine := false } := by
  unfold HoldUnit.expireSlow HoldUnit.slowDemand
  simp only [Bool.or_eq_true]

theorem HoldUnit.expireStop_eq (h : HoldUnit) (e quantum : Nat) : h.expireStop e quantum =
    if h.causes.anyStop then { h with stop := some (e + quantum), renewals := satInc h.renewals }
    else if h.slow.isSome ∧ h.causes.any = false ∧ h.override.isSome then
      { h with stop := none, stopLine := false, slow := none, slowLine := false }
    else { h with stop := none, stopLine := false } := by
  unfold HoldUnit.expireStop HoldUnit.releaseSlow HoldUnit.slowDemand
  simp only [Option.isSome_none, Bool.or_false, Bool.and_eq_true, Bool.not_eq_true', and_assoc]

theorem HoldUnit.override_eq (h : HoldUnit) (x : Nat) : HoldUnit.releaseSlow { h with override := some x } =
    if h.slow.isSome ∧ h.causes.any = false ∧ h.stop = none then
      { h with override := some x, slow := none, slowLine := false }
    else { h with override := some x } := by
  unfold HoldUnit.releaseSlow HoldUnit.slowDemand
  simp only [Option.isSome_some, Bool.and_true, Bool.and_eq_true, Bool.not_eq_true', Bool.or_eq_false_iff,
    Option.isSome_eq_false_iff, Option.isNone_iff_eq_none]

/-! ## Every command -/

theorem State.Loud.holdsFollow {s u : State} {c : Instr} (h : s.Loud c u) (awake : s.inReset = false)
    (lined : s.hold.Lined) (freed : s.hold.Freed) : s.holdsFollow (s.settle u) c := by
  cases h with
  | port c p => exact State.settle_holdsFollow (u := s.setPort p) awake lined freed rfl rfl rfl fun _ => rfl
  | ended =>
    refine State.rehold_holdsFollow (p := s.port) (x := s.store) (k := { s.hold with override := none }) awake rfl ?_
    obtain ⟨stop, stop', slow, _, renewals, _⟩ := (HoldUnit.stay_follows lined freed rfl
      ⟨rfl, rfl, rfl, rfl, rfl, rfl⟩ (s.now + s.settings.quantum)).goes rfl .overrideExpiry
    exact ⟨stop, stop', slow, fun _ => ⟨rfl, fun _ => ⟨fun _ => rfl, fun _ runs => by cases runs⟩⟩, renewals,
      fun _ other => absurd rfl other⟩
  | override q p =>
    exact State.rehold_holdsFollow (p := p) (x := s.store) awake rfl (HoldUnit.override_goes lined _ _)
  | clear q p tag alerts =>
    refine State.settle_holdsFollow (u := ((s.setPort q).updateDigest (s.digest.clear tag alerts)).setPort p)
      awake lined freed rfl rfl ?_ fun other => absurd rfl (other tag alerts)
    exact s.digest.clear_tag tag alerts _
  | travel q p lower upper =>
    exact State.takeCauses_holdsFollow awake lined freed q p (x := { s.store with settings := { s.settings with
      travelLower := lower.toNat, travelUpper := upper.toNat } }) rfl _ _
  | marks q p lower upper =>
    exact State.takeCauses_holdsFollow awake lined freed q p (x := { s.store with settings := { s.settings with
      markLower := lower.toNat, markUpper := upper.toNat } }) rfl _ _

/-- A load that leaves the level raises no more than SETTINGS_DEFAULTED. -/
theorem State.completeLoad_digest {s : State} {image : Option Settings}
    (level : (s.completeLoad image).hold.level = s.hold.level) :
    (s.completeLoad image).digest = ((s.putLoaded image).raiseIf image.isNone .settingsDefaulted).digest := by
  unfold State.completeLoad at *
  dsimp only at *
  have beside (v : State) : v.applyTravelMarks.applyMarkMarks.digest = v.digest := by
    obtain ⟨h, e⟩ := v.takeCauses_frame (v.testTravel v.hold.lastTravel v.hold.causes)
    obtain ⟨h', e'⟩ := State.takeCauses_frame { v with hold := h } (State.testMarks { v with hold := h } h.lastMarks h.causes)
    unfold State.applyTravelMarks State.applyMarkMarks
    rw [e, e']
  rw [State.announce_hold] at level
  rw [(s.announce_spec _).1 level.symm, beside]
  obtain ⟨w, l, e⟩ := State.armSweep_frame (((s.putLoaded image).raiseIf image.isNone .settingsDefaulted).firstReference
    s.settings.nEnc) ((((s.putLoaded image).raiseIf image.isNone .settingsDefaulted).firstReference
    s.settings.nEnc).position.p + (((s.putLoaded image).raiseIf image.isNone .settingsDefaulted).firstReference
    s.settings.nEnc).settings.sweepInterval)
  rw [e]
  rfl

theorem State.completeLoad_holdsFollow {s : State} (lined : s.hold.Lined) (freed : s.hold.Freed) (blank : s.blank)
    (loads : s.store.loading = true) (awake : s.inReset = false) (ack : Bool) :
    s.holdsFollow (s.completeLoad (loadImage ack s.store.eeprom)) (.settingsLoadComplete ack) := by
  obtain ⟨t, next, frame, _⟩ := settingsLoadPutsTheImageInForce ack s loads awake blank
  have done : exec (.settingsLoadComplete ack) s = .next (s.completeLoad (loadImage ack s.store.eeprom)) :=
    congrArg Host.Outcome.next (if_pos loads)
  rw [done] at next
  cases next
  generalize loadImage ack s.store.eeprom = image at *
  have held : (s.completeLoad image).hold = s.hold := by rw [frame]
  have digest := State.completeLoad_digest (image := image) (congrArg HoldUnit.level held)
  obtain ⟨_, _, _, ⟨isSet, tag⟩, _⟩ := (s.putLoaded image).raiseIf_calm image.isNone .settingsDefaulted
  refine State.holdsFollow_of ?_ (fun differs => absurd (congrArg HoldUnit.level held).symm differs) fun _ => ?_
  · rw [held]
    exact (HoldUnit.stay_follows lined freed rfl ⟨rfl, rfl, rfl, rfl, rfl, rfl⟩ _).goes rfl _
  · rw [digest]
    exact ⟨tag, fun _ => isSet⟩

theorem exec_holdsFollow {s t : State} {c : Instr} (awake : s.inReset = false) (lines : LineLaw s) (override : OverrideLaw s)
    (blank : BlankLaw s) (start : c ≠ .powerOn) (part : c ≠ .resetPart) (h : exec c s = .next t) (ends : t.inReset = false) :
    s.holdsFollow t c := by
  have lined := lineLaw_iff.mp lines
  have freed := overrideLaw_iff.mp override awake
  have stays (c : Instr) : s.holdsFollow s c := by
    have follows := State.settle_holdsFollow (c := c) awake lined freed rfl rfl rfl fun _ => rfl
    rw [State.settle_self] at follows
    exact follows
  cases goes : restarts c with
  | false =>
    by_cases timer : ∀ l, c ≠ .holdTimerExpiry l
    · obtain ⟨u, next, does⟩ := exec_ends goes timer s
      rw [next] at h
      cases h
      obtain ⟨⟨hold, _, reset, ⟨isSet, tag⟩, _⟩, now⟩ | noise := does
      · refine State.settle_holdsFollow ?_ lined freed hold now tag fun _ => isSet
        rw [State.inReset, reset]
        exact awake
      · exact noise.holdsFollow awake lined freed
    · obtain ⟨line, rfl⟩ := not_forall_not.mp timer
      cases runs : s.hold.expiry line with
      | none =>
        rw [exec_holdTimerExpiry_early (by rw [runs]; exact fun _ h => (Option.not_mem_none _ h).elim)] at h
        cases h
        exact stays _
      | some e =>
        by_cases stands : e ≤ s.now
        · rw [exec_holdTimerExpiry awake runs stands] at h
          cases h
          exact State.expire_holdsFollow lined runs
        · rw [exec_holdTimerExpiry_early fun x hx => ?_] at h
          · cases h
            exact stays _
          · rw [runs, Option.mem_some_iff] at hx
            rw [← hx]
            exact Nat.lt_of_not_le stands
  | true =>
    cases c with
    | powerOn => exact absurd rfl start
    | resetPart => exact absurd rfl part
    | warmReset =>
      cases h
      rw [if_neg (by rw [awake]; decide)] at ends
      exact absurd (ends.symm.trans s.takeReset_inReset) (by decide)
    | resetEnd =>
      cases h
      have outside : s.store.reset = .none := by simpa [State.inReset] using awake
      unfold State.endReset
      rw [outside]
      exact stays _
    | settingsLoadComplete ack =>
      cases h
      split
      · next loads => exact State.completeLoad_holdsFollow lined freed (blank.1 (.inl loads)) loads awake ack
      · exact stays _
    | _ => cases goes

/-- Settles O37: an event ends in the holds following their causes and in the announcement of the level. -/
theorem holdsFallOrAreRenewed : Obligations.HoldsFallOrAreRenewed := by
  unfold Obligations.HoldsFallOrAreRenewed
  intro s awake announced
  refine ⟨fun e runs stands => ?_, fun e runs stands => ?_, exec_holdTimerExpiry_early (line := .slow),
    exec_holdTimerExpiry_early (line := .stop),
    fun takes => ?_, fun lines override blank c start part => ?_⟩
  · have done := exec_holdTimerExpiry awake (line := .slow) runs stands
    obtain ⟨spoken, frame⟩ := State.announce_announced (s := s) (u := s.setHold (s.hold.expire e s.settings.quantum .slow)) rfl
    refine ⟨_, done, frame.trans ?_, spoken⟩
    exact congrArg (fun k => ({ s with digest := _, hold := k } : State)) (s.hold.expireSlow_eq e s.settings.quantum)
  · have done := exec_holdTimerExpiry awake (line := .stop) runs stands
    obtain ⟨spoken, frame⟩ := State.announce_announced (s := s) (u := s.setHold (s.hold.expire e s.settings.quantum .stop)) rfl
    refine ⟨_, done, frame.trans ?_, spoken⟩
    exact congrArg (fun k => ({ s with digest := _, hold := k } : State)) (s.hold.expireStop_eq e s.settings.quantum)
  · have settled := settled_exec (i := .holdOverride) (s := s) rfl takes (act := fun t => Reply.code t.startOverride .ok)
      (c := .ok) rfl rfl
    obtain ⟨k, hk⟩ : ∃ k, k = HoldUnit.releaseSlow { s.hold with override := some (s.now + s.settings.quantum) } := ⟨_, rfl⟩
    have done : exec .holdOverride s =
        .next (s.settle { s with port := s.port.answered 0x39 .ok [], hold := k }) := by
      rw [hk]
      exact congrArg Host.Outcome.next settled
    rw [State.settle_announce (s := s) (u := { s with port := s.port.answered 0x39 .ok [], hold := k }) rfl rfl rfl awake] at done
    obtain ⟨spoken, frame⟩ :=
      State.announce_announced (s := s) (u := { s with port := s.port.answered 0x39 .ok [], hold := k }) rfl
    refine ⟨_, done, frame.trans ?_, spoken⟩
    exact congrArg (fun k => ({ s with port := s.port.answered 0x39 .ok [], digest := _, hold := k } : State))
      (hk.trans (s.hold.override_eq _))
  · obtain ⟨t, next, _⟩ := exec_course c s
    exact ⟨t, next, exec_holdsFollow awake lines override blank start part next⟩

end Sys2Proof.Machine
end
